-- ==== Sys2Proof/Word.lean ====
section
/-!
DEFINITION. The word types of the model and the sparse-table type every store of the device is written with.
-/
namespace Sys2Proof

/-- One byte, as in command packets, frames and records. -/
abbrev Byte := BitVec 8
/-- A 16-bit field. -/
abbrev W16 := BitVec 16
/-- A 32-bit register (R-chapter 0, "Registers are 32 bits wide"). -/
abbrev W32 := BitVec 32
/-- A 48-bit TAI second or event counter (R12, R42). -/
abbrev W48 := BitVec 48
/-- A 64-bit value. -/
abbrev W64 := BitVec 64
/-- A byte string, first byte first. -/
abbrev Bytes := List Byte

/-- A sparse table: key and value pairs, keys strictly rising. A key that is not listed holds the table's default. -/
abbrev NMap (α : Type) := List (Nat × α)

end Sys2Proof
end

