-- ==== Sys2Proof/Syntax/Aln.lean ====
section
/-!
DEFINITION. Operands of the alignment commands (chapter 6).
-/
namespace Sys2Proof

/-- Parameters of ALN_OSTREAM_DEF: the O-stream index and Table 6-1. -/
structure OstreamDefP where
  ostream   : W16
  rate      : Byte
  firstMemb : W32
  membCount : W32
  maxWait   : W32
  lagLimit  : W32
  guardUs   : W16
  qtail     : W16
  defWait   : W32
  missLimit : Byte
  amend     : Byte
  deriving DecidableEq, Repr

/-- Parameters of ALN_MEMBER_SET. -/
structure MemberP where
  index    : BitVec 24
  ostream  : W16
  stream   : BitVec 24
  sel      : Byte
  wait     : Byte
  decimate : Byte
  deriving DecidableEq, Repr

end Sys2Proof
end

