-- ==== Sys2Proof/Syntax/Command.lean ====
section
/-!
DEFINITION. The header of a command packet (Table 16-1), the paths and channels that carry it, its status codes
(Table 16-14), and the parameter-block source of R434.
-/
namespace Sys2Proof

/-- An access path of the host (R13, R449): the two PCIe functions and the two local-bus windows. -/
inductive Path where
  | pf0 | pf1 | lb | lbs
  deriving DecidableEq, Repr

/-- A command packet's header as it is accepted (Table 16-1). `path` is the path that posted it (for a mailbox), and
`pad` says that every byte beyond PLEN is 0 (R433). The channel numbers are those of R437; 24 is the internal channel
of the start-up replay (R446), 25 to 28 are the internal channels of forwarded commands by the class of their origin
(R483): 25 secure mailbox, 26 secure queue, 27 non-secure mailbox, 28 non-secure queue. -/
structure Hdr where
  chan   : Nat
  path   : Path
  flags  : Byte
  target : Byte
  seq    : W32
  plen   : W16
  status : W16
  order  : W32
  pad    : Bool
  deriving DecidableEq, Repr

/-- A time as a cell of the Herd link carries it (R480): TAI second, ns and 2^-16 ns. -/
structure CellTime where
  sec  : W48
  ns   : W32
  frac : W16
  deriving DecidableEq, Repr

/-- The status codes of Table 16-14 (R548). -/
inductive Status where
  | ok | accepted | badParam | badOpcode | badLength | wrongChannel | notPermitted | presenceRequired
  | busy | noResource | generationConflict | nothingToAbort | aborted | authFail | counterStale
  | keyOrphaned | internalFault
  deriving DecidableEq, Repr

/-- The source of a parameter block or of bulk data (R434): the kind byte, the address or offset, the length the
command gives, and whether the device's read of it succeeds. A host-memory read is an input from outside the device. -/
structure BlockSrc where
  kind   : Byte
  addr   : W64
  len    : W16
  readOk : Bool
  deriving DecidableEq, Repr

end Sys2Proof
end

