-- ==== Sys2Proof/Syntax/Dir.lean ====
section
/-!
DEFINITION. Operands of the directory commands (chapter 5).
-/
namespace Sys2Proof

/-- A directory entry as four 64-bit words (R143). -/
structure DirEntry where
  q0 : W64
  q1 : W64
  q2 : W64
  q3 : W64
  deriving DecidableEq, Repr

/-- A scaling entry (Table 5-4): K and B binary64, THETA0 binary32, MASK, FLAGS, the reserved byte, CONST. -/
structure ScaleEntry where
  k      : W64
  b      : W64
  theta0 : W32
  mask   : W16
  flags  : Byte
  res    : Byte
  const  : W64
  deriving DecidableEq, Repr

/-- Parameters of the table loads DIR_LOAD, EST_LOAD, OSC_LOAD and ISL_LOAD (Table 5-9 and the engines' tables): the
source kind, the address or section index, the kind of table where the command has one, the first index, the count and
the CRC-32. -/
structure LoadP where
  source : Byte
  addr   : W64
  table  : Byte
  first  : W32
  count  : W32
  crc    : W32
  deriving DecidableEq, Repr

end Sys2Proof
end

