-- ==== Sys2Proof/Syntax/Est.lean ====
section
/-!
DEFINITION. Operands of the estimator's commands (chapter 8).
-/
namespace Sys2Proof

/-- Parameters of EST_CONFIG (Table 8-12). -/
structure EstConfigP where
  enable    : Byte
  ostream   : W16
  stream    : BitVec 24
  alpha     : Byte
  rnLimit   : W32
  bdMax     : Byte
  xmax      : Byte
  leaveN    : Byte
  joinN     : Byte
  holdSlots : Byte
  ziSigma   : W32
  pivotTol  : W32
  critTol   : W32
  chiN      : Byte
  suspectN  : Byte
  unsolvedN : Byte
  obsLimit  : W16
  deriving DecidableEq, Repr

end Sys2Proof
end

