-- ==== Sys2Proof/Syntax/Host.lean ====
section
/-!
DEFINITION. Operands of the register, mailbox, pairing, power and firmware events (chapters 16 to 20).
-/
namespace Sys2Proof

/-- The level of a PCIe error (R503). -/
inductive TlpError where
  | unsupported | malformed | poisonedWrite | poisonedCompletion | ecc | completionTimeout | longRead | unexpectedCompletion | correctable
  deriving DecidableEq, Repr

/-- A heartbeat heard from the peer (R480, R481): a cell with its contents and whether its CRC holds, or only a pulse of the
sideband; and whether HERD_ACT_N is low. `txAt` is the cell's transmit timestamp and `rxAt` the peer's receive timestamp of this unit's last cell; `utcOffset`
is the TAI - UTC that the peer holds, where its traffic gives it (R68); `announce` is the tick of a switch-over that the active has
scheduled, and `acked` the standby's acknowledgement of one (R491). -/
structure Heartbeat where
  sideband : Bool
  crcOk    : Bool
  actIn    : Bool
  role     : Byte
  health   : W32
  priority : Bool
  tick     : W16
  sec      : W48
  pairId   : W16
  digest   : W32
  alarms   : BitVec 16
  events   : BitVec 8
  pulses   : BitVec 8
  txAt     : CellTime
  rxAt     : Option CellTime
  peerU    : W32
  utcOffset : Option W16
  announce : Option (W48 × W16)
  acked    : Bool
  deriving DecidableEq, Repr

/-- A commit digest cell (R487). -/
structure XchkCell where
  ostream  : W16
  sec      : W48
  tick     : W16
  amend    : Byte
  complete : Bool
  absent   : List Nat
  crc      : W32
  deriving DecidableEq, Repr

/-- One entry of a STATE cell (R480): template, stNum and sqNum. -/
structure StateEntry where
  template : Byte
  stNum    : W32
  sqNum    : W32
  deriving DecidableEq, Repr

/-- The straps as they stand at reset release (Table 20-2). -/
structure StrapsIn where
  priority : Bool
  bootSrc  : BitVec 2
  lbWidth  : Bool
  deriving DecidableEq, Repr

end Sys2Proof
end

