-- ==== Sys2Proof/Syntax/Ing.lean ====
section
/-!
DEFINITION. Operands of the ingest commands and events (chapter 4).
-/
namespace Sys2Proof

/-- Parameters of ING_STREAM_KEY, laid out as in Table 4-16. -/
structure StreamKeyP where
  stream  : BitVec 24
  quals   : Byte
  port    : Byte
  vid     : W16
  kind    : Byte
  disc    : W16
  dstPort : W16
  srcPort : W16
  srcAddr : BitVec 128
  dstAddr : BitVec 128
  deriving DecidableEq, Repr

/-- Parameters of ING_STREAM_DEF, laid out as in Table 4-17. -/
structure StreamDefP where
  stream    : BitVec 24
  kind      : Byte
  version   : Byte
  timeBase  : BitVec 24
  rate      : Byte
  firstChan : W32
  count     : W16
  blocks    : W16
  dataLen   : BitVec 24
  flags     : Byte
  confRev   : W32
  deriving DecidableEq, Repr

/-- Parameters of ING_IP_ADDR. -/
structure IpAddrP where
  port    : Byte
  version : Byte
  entry   : Byte
  enable  : Byte
  addr    : BitVec 128
  plen    : Byte
  deriving DecidableEq, Repr

/-- Parameters of ING_HOST_RING. -/
structure HostRingP where
  ring   : Byte
  base   : W64
  size   : W32
  wb     : W64
  enable : Byte
  deriving DecidableEq, Repr

/-- A host-ingest descriptor as fetched from host memory (Table 4-8), with the frame its buffer holds. -/
structure HostDesc where
  addr     : W64
  len      : W16
  stream   : BitVec 24
  bits     : Byte
  tsSec    : W48
  tsNs     : W32
  tsFrac   : W16
  reserved : W32
  frame    : Bytes
  deriving DecidableEq, Repr

/-- A LOCAL or DERIVED report that enters the scheduler (R130): its stream, its TAI instant and its canonical values,
one for each channel of the stream's run, in order. -/
structure InternalReport where
  stream : Nat
  sec    : W48
  ns     : W32
  values : List W64
  deriving DecidableEq, Repr

/-- What firmware finds in a configuration frame where the stream's definition and scaling entries do not hold the field (R116): the index in
the list of R116 of the first such field that differs, if any: STN identity, IDCODE and ANUNIT of a block, and every field of a CFG-3 frame.
The model compares the others itself. -/
structure CfgCompare where
  differs : Option Nat
  deriving DecidableEq, Repr

end Sys2Proof
end

