-- ==== Sys2Proof/Syntax/Local.lean ====
section
/-!
DEFINITION. Operands of the launch, capture, front-end, converter, metering, key and tamper commands (chapters 11 to 15).
-/
namespace Sys2Proof

/-- Parameters of LMF_CLOCK (Table 13-11). -/
structure LmfClockP where
  d      : Byte
  enable : Byte
  edges  : Byte
  deriving DecidableEq, Repr

/-- Parameters of LMF_CHAN (Table 13-11). -/
structure LmfChanP where
  chan   : Byte
  enable : Byte
  r      : Byte
  median : Byte
  pd     : W32
  fs     : W32
  deriving DecidableEq, Repr

/-- Parameters of LMF_PMU (Table 13-11). -/
structure LmfPmuP where
  circuit : Byte
  enable  : Byte
  rate    : Byte
  cls     : Byte
  fnom    : Byte
  stream  : BitVec 24
  deriving DecidableEq, Repr

/-- What one modulator channel gives at a sample instant (R361, R362, R368): the resampler's value, whether an
intermediate sample that contributes to it is OVER, and how many median replacements it counted. The bitstream is an
analogue input of the device. -/
structure ChanSample where
  value : BitVec 32
  ovr   : Bool
  repl  : Nat
  deriving DecidableEq, Repr

/-- Parameters of MTR_CONFIG (Tables 14-2 and 14-9). -/
structure MtrConfigP where
  circuit : Byte
  enable  : Byte
  conn    : Byte
  fnom    : Byte
  iN      : W32
  uN      : W32
  creep   : W32
  deriving DecidableEq, Repr

/-- Parameters of MTR_PULSE (Table 14-9). -/
structure MtrPulseP where
  output  : Byte
  circuit : Byte
  reg     : Byte
  kp      : W48
  width   : W16
  drive   : Byte
  active  : Byte
  enable  : Byte
  deriving DecidableEq, Repr

/-- Parameters of LCH_EVENT_CONFIG (Table 11-6). -/
structure EventConfigP where
  pin    : Byte
  mode   : Byte
  drive  : Byte
  active : Byte
  edges  : Byte
  deriving DecidableEq, Repr

/-- Parameters of ALM_PIN_CONFIG (Table 10-13). -/
structure AlmPinP where
  pin    : Byte
  enable : Byte
  drive  : Byte
  active : Byte
  width  : W32
  deriving DecidableEq, Repr

/-- Parameters of HRD_CONFIG (Table 18-8). -/
structure HrdConfigP where
  enable   : Byte
  pairId   : W16
  mask     : W16
  pairWait : Byte
  timeOut  : Byte
  auto     : Byte
  asym     : W48
  deriving DecidableEq, Repr

end Sys2Proof
end

