-- ==== Sys2Proof/Syntax/Port.lean ====
section
/-!
DEFINITION. Operands of the ports' commands and events (chapter 3).
-/
namespace Sys2Proof

/-- A frame as it arrives on a port (R77): its bytes from the destination address to the FCS inclusive, and whether a
line error touched it (code violation, uncorrectable codeword, loss of link). -/
structure RxFrame where
  bytes  : Bytes
  lineOk : Bool
  /-- FEC codewords corrected, and found uncorrectable, since the frame before. -/
  fecCorr : Nat := 0
  fecBad  : Nat := 0
  deriving DecidableEq, Repr

/-- What the fall of a link cuts (R97): whether a frame was in reception, and how many bytes of the transmitter's oldest frame were already
sent, where it was being sent. -/
structure LinkCut where
  rx : Bool
  tx : Option Nat
  deriving DecidableEq, Repr

/-- LINK codes of TRK_STAT. -/
inductive Link where
  | disabled | training | up | down | localFault | remoteFault
  deriving DecidableEq, Repr

/-- Parameters of PORT_CONFIG (Table 3-8): the polarity byte holds receive and transmit bits of the two lanes; `arpTags`
is the number of tags on ARP replies, with the outer and inner tag control words. -/
structure PortConfigP where
  port     : Byte
  mode     : Byte
  fec      : Byte
  an       : Byte
  polarity : Byte
  maxLen   : W16
  pause    : Byte
  arpTags  : Byte
  arpTpid  : Byte
  arpOuter : W16
  arpInner : W16
  deriving DecidableEq, Repr

/-- Parameters of PORT_VLAN_FILTER. -/
structure VlanFilterP where
  port      : Byte
  untagged  : Byte
  extraTpid : W16
  firstVid  : W16
  lastVid   : W16
  set       : Byte
  deriving DecidableEq, Repr

/-- Parameters of PORT_MACSEC_CONFIG. -/
structure MacsecConfigP where
  port     : Byte
  enable   : Byte
  conf     : Byte
  sci      : Byte
  ptpClear : Byte
  replay   : W32
  deriving DecidableEq, Repr

/-- Parameters of PORT_MACSEC_SA: direction 0 transmit, 1 receive. -/
structure MacsecSaP where
  port    : Byte
  dir     : Byte
  sc      : Byte
  sci     : W64
  an      : Byte
  slot    : W16
  ssci    : W32
  pn      : W64
  install : Byte
  deriving DecidableEq, Repr

end Sys2Proof
end

