-- ==== Sys2Proof/Syntax/Pub.lean ====
section
/-!
DEFINITION. Operands of the publishing and host-delivery commands (chapter 7).
-/
namespace Sys2Proof

/-- The PUB_OSTREAM_FMT parameter block (Table 7-12); `zeros` says that its reserved bytes are 0. -/
structure OstreamFmtP where
  ostream    : W16
  proto      : Byte
  version    : Byte
  idcodeBase : W16
  timeBase   : BitVec 24
  phFmt      : Byte
  frFmt      : Byte
  anFmt      : Byte
  vscale     : W16
  iscale     : W16
  frameMax   : W16
  appidBase  : W16
  confRev    : W32
  ring       : Byte
  lateRing   : Byte
  svid       : Bytes
  zeros      : Bool
  deriving DecidableEq, Repr

/-- One VLAN tag of a template (Table 7-13). -/
structure TagP where
  tpid : Byte
  pcp  : Byte
  vid  : W16
  deriving DecidableEq, Repr

/-- The PUB_TEMPLATE parameter block (Table 7-13). Addresses are the 16 bytes of the block as one number. -/
structure TemplateP where
  template : W16
  ostream  : W16
  port     : Byte
  bits     : Byte
  ttl      : Byte
  dscp     : Byte
  dstIp    : BitVec 128
  srcIp    : BitVec 128
  dstMac   : W48
  udpSrc   : W16
  udpDst   : W16
  tags     : Byte
  prio     : Byte
  outer    : TagP
  inner    : TagP
  maxAge   : W32
  sig      : Byte
  zeros    : Bool
  deriving DecidableEq, Repr

/-- Parameters of PUB_RING (R219). -/
structure RingP where
  ring      : Byte
  base      : W64
  log2      : Byte
  wb        : W64
  watermark : W32
  staleT    : W32
  enable    : Byte
  deriving DecidableEq, Repr

/-- Parameters of a signature-binding command: PUB_TEMPLATE_SIGKEY (Table 7-10) and ALM_GOOSE_SIGKEY. -/
structure SigKeyP where
  index     : W16
  binding   : Byte
  keyId     : W32
  slot      : W16
  timeOfKey : W32
  timeToNext : W16
  swap      : Byte
  deriving DecidableEq, Repr

end Sys2Proof
end

