-- ==== Sys2Proof/Syntax/Tod.lean ====
section
/-!
DEFINITION. Operands of the timebase's commands and events (chapter 2).
-/
namespace Sys2Proof

/-- A sentence received on TOD_SER_IN (R51): whether it is a ZDA or RMC sentence with valid checksum and status, the
UTC date and time it names, and how many ms after the last PPS_IN_0 edge it ended. -/
structure NmeaIn where
  valid   : Bool
  year    : Nat
  month   : Nat
  day     : Nat
  hour    : Nat
  minute  : Nat
  second  : Nat
  afterMs : Nat
  deriving DecidableEq, Repr

/-- A PTP message firmware processes on a port (R59). A Sync is given with its Follow_Up (or alone when one-step): the
master's time of the event and the measured offset master minus own, in ns; a Pdelay_Req with its sourcePortIdentity. -/
inductive PtpMsg where
  | announce (priority1 clockClass accuracy : Byte) (variance : W16) (priority2 : Byte) (identity : W64) (steps : W16)
      (utcOffset : Nat) (tti : Option Nat) (timeSource : Byte)
  | sync (masterSec : W48) (masterNs : W32) (offset : Int)
  | pdelayReq (seqId : W16) (identity : W64) (port : W16)
  | pdelayResp (meanDelay : Int)
  deriving DecidableEq, Repr

/-- Parameters of TIME_PTP_PORT (Table 2-14, Table 2-8). -/
structure PtpPortP where
  port      : Byte
  enable    : Byte
  profile   : Byte
  domain    : Byte
  priority1 : Byte
  priority2 : Byte
  slaveOnly : Byte
  peerAddr  : Byte
  vid       : W16
  pcp       : Byte
  gmId      : Byte
  variance  : W16
  deriving DecidableEq, Repr

/-- Parameters of TIME_OUTPUTS (Table 2-14). Offsets are in ns, widths in µs, the local offset in half hours. -/
structure TimeOutputsP where
  ppsEn     : Byte
  ppsUtc    : Byte
  ppsOff0   : W32
  ppsOff1   : W32
  ppsWidth0 : W32
  ppsWidth1 : W32
  ref10En   : Byte
  ref10Off  : W32
  irigEn    : Byte
  irigB005  : Byte
  irigLocal : Byte
  irigOff   : W32
  serEn     : Byte
  serBaud   : Byte
  deriving DecidableEq, Repr

/-- One entry of TIME_LEAP_SET. -/
structure LeapP where
  t   : W48
  off : Byte
  deriving DecidableEq, Repr

end Sys2Proof
end

