-- ==== Sys2Proof/Syntax.lean ====
section
/-!
DEFINITION. The commands of the block: one constructor per row of the opcode table. A constructor with an `h : Hdr`
operand is a command packet accepted on a channel (R432, R437); every other one is an access of a register, an event at a
pin or link, or the completion of work the block does by itself. Operands that come from outside the block (frames, host
memory, samples, messages of the peer) are operands of the event that brings them.
-/
namespace Sys2Proof

/-- The commands of the block, in the order of the opcode table. -/
inductive Instr where
  /-- R26. -/
  | tickStart
  /-- R174. -/
  | slotDeadline (os : Fin 4096) (sec : W48) (tick : Fin 3600)
  /-- R174. -/
  | orderWaitCommit (os : Fin 4096) (sec : W48) (tick : Fin 3600)
  /-- R311. -/
  | gazelleLaneStart
  /-- R191. -/
  | assemblyStart
  /-- R549. -/
  | perSecondSummary
  /-- R22. -/
  | genSwitch (h : Hdr) (gen : W16) (sec : W48) (tick : W16)
  /-- R25. -/
  | genCancel (h : Hdr)
  /-- R159. -/
  | genDiscardStaged (h : Hdr)
  /-- R24. -/
  | genStatus (h : Hdr)
  /-- R12. -/
  | counterSnapshot (h : Hdr) (code : Byte)
  /-- R41. -/
  | pllUnlock (domain : Fin 19)
  /-- R527. -/
  | pllRelock (domain : Fin 19)
  /-- R527. -/
  | pllRelockTimeout (domain : Fin 19)
  /-- R54. -/
  | secondStart
  /-- R66. -/
  | todSerOutSentence
  /-- R46. -/
  | todIncWrite (value : W48)
  /-- R47. -/
  | phaseAdjDone
  /-- R50. -/
  | ppsEdge (input : Fin 2) (taken : Bool)
  /-- R51. -/
  | todSerInSentence (m : NmeaIn)
  /-- R59. -/
  | ptpRx (port : Fin 12) (domain : Byte) (m : PtpMsg)
  /-- R59. -/
  | ptpTxInterval (port : Fin 12)
  /-- R52. -/
  | timeRefLost (code : BitVec 3)
  /-- R52. -/
  | referenceUpgrade
  /-- R53. -/
  | ref10Changeover (within : Bool)
  /-- R70. -/
  | todNow0Read (path : Path)
  /-- R54. -/
  | timeStatus (h : Hdr)
  /-- R551. -/
  | timeSet (h : Hdr) (sec : W48) (ns : W32) (uH : W32) (atPps : Byte)
  /-- R47. -/
  | timePhaseAdjust (h : Hdr) (shift : W64) (n : W32)
  /-- R49. -/
  | timePhaseAbort (h : Hdr)
  /-- R52. -/
  | timeRefSelect (h : Hdr) (refs : W32) (pol : Byte) (baud : Byte)
  /-- R55. -/
  | timeQualParams (h : Hdr) (uLock fRef10 aRef10 fRef100 aRef100 holdSpec degraded : W32)
  /-- R68. -/
  | timeLeapSet (h : Hdr) (entries : List LeapP)
  /-- R59. -/
  | timePtpPort (h : Hdr) (p : PtpPortP)
  /-- R63. -/
  | timeOutputs (h : Hdr) (p : TimeOutputsP)
  /-- R77. -/
  | frameReceive (port : Fin 12) (f : RxFrame)
  /-- R85. -/
  | pauseDelivered (port : Fin 12)
  /-- R85. -/
  | pauseTimerExpiry (port : Fin 12)
  /-- R210. -/
  | frameTransmit (port : Fin 12)
  /-- R73. -/
  | portLinkUp (port : Fin 12) (fecLock anDone : Bool) (partner : W32)
  /-- R97. -/
  | portLinkDown (port : Fin 12) (entered : Link) (cut : LinkCut)
  /-- R100. -/
  | portHighBer (port : Fin 12) (codewords : W32)
  /-- R104. -/
  | fwControlQueue (port : Fin 12)
  /-- R73. -/
  | portConfig (h : Hdr) (p : PortConfigP) (cut : LinkCut)
  /-- R79. -/
  | portAddr (h : Hdr) (port : Byte) (addr : W48) (mcast : Byte) (promisc : Byte)
  /-- R79. -/
  | portMcastList (h : Hdr) (port : Byte) (first : Byte) (addrs : List W48)
  /-- R81. -/
  | portVlanFilter (h : Hdr) (p : VlanFilterP)
  /-- R96. -/
  | portTsAdj (h : Hdr) (port : Byte) (rx tx : W48)
  /-- R71. -/
  | portStatus (h : Hdr) (port : Byte)
  /-- R88. -/
  | portMacsecConfig (h : Hdr) (p : MacsecConfigP)
  /-- R91. -/
  | portMacsecSa (h : Hdr) (p : MacsecSaP)
  /-- R91. -/
  | portMacsecTxAn (h : Hdr) (port : Byte) (an : Byte)
  /-- R103. -/
  | frameClassify (port : Fin 12)
  /-- R134. -/
  | frameDispatch
  /-- R130. -/
  | internalFrameIn (r : InternalReport)
  /-- R115. -/
  | fwFrameQueue (c : CfgCompare)
  /-- R127. -/
  | rngHiTailWrite (ring : Fin 16) (v : W32)
  /-- R128. -/
  | hostDescFetch (ring : Fin 16) (d : HostDesc) (readOk space : Bool)
  /-- R106. -/
  | ingStreamKey (h : Hdr) (p : StreamKeyP)
  /-- R101. -/
  | ingStreamDef (h : Hdr) (p : StreamDefP)
  /-- R101. -/
  | ingStreamRemove (h : Hdr) (stream : BitVec 24)
  /-- R102. -/
  | ingStreamStatus (h : Hdr) (stream : BitVec 24)
  /-- R116. -/
  | ingStreamRelease (h : Hdr) (stream : BitVec 24)
  /-- R104. -/
  | ingIpAddr (h : Hdr) (p : IpAddrP)
  /-- R127. -/
  | ingHostRing (h : Hdr) (p : HostRingP)
  /-- R133. -/
  | ingStreamGate (h : Hdr) (stream : BitVec 24) (set clear mask : W16)
  /-- R123. -/
  | ingStreamSigkey (h : Hdr) (stream : BitVec 24) (binding : Byte) (keyId : W32) (slot : W16) (kind : Byte)
  /-- R156. -/
  | dirWrite (h : Hdr) (chan : W32) (e : DirEntry)
  /-- R160. -/
  | dirLoad (h : Hdr) (p : LoadP)
  /-- R160. -/
  | dirLoadDone (data : Bytes) (readOk : Bool)
  /-- R156. -/
  | dirClear (h : Hdr) (first count : W32)
  /-- R156. -/
  | dirRead (h : Hdr) (chan : W32) (gsel : Byte)
  /-- R147. -/
  | dirScaleWrite (h : Hdr) (index : W16) (e : ScaleEntry)
  /-- R157. -/
  | dirValidate (h : Hdr) (first count : W32)
  /-- R156. -/
  | dirStatus (h : Hdr)
  /-- R161. -/
  | dirWinIdxWrite (path : Path) (v : W32)
  /-- R161. -/
  | dirWinFetchDone (path : Path)
  /-- R177. -/
  | reportCheck
  /-- R183. -/
  | latencySweep (os : Fin 4096)
  /-- R192. -/
  | alnOsSelWrite (v : W32)
  /-- R167. -/
  | alnOstreamDef (h : Hdr) (p : OstreamDefP)
  /-- R167. -/
  | alnOstreamRemove (h : Hdr) (ostream : W16)
  /-- R168. -/
  | alnMemberSet (h : Hdr) (p : MemberP)
  /-- R168. -/
  | alnMemberClear (h : Hdr) (first count : BitVec 24)
  /-- R179. -/
  | alnParams (h : Hdr) (restartGap : Byte)
  /-- R182. -/
  | alnOstreamStatus (h : Hdr) (ostream : W16)
  /-- R181. -/
  | alnMemberStatus (h : Hdr) (memb : BitVec 24) (half : Byte)
  /-- R172. -/
  | alnLandPlan (h : Hdr)
  /-- R220. -/
  | ringRecordWrite (feeder : Fin 32)
  /-- R222. -/
  | rngDlHeadWrite (ring : Fin 32) (v : W32)
  /-- R218. -/
  | queueStale (queue : Fin 77)
  /-- R196. -/
  | pubOstreamFmt (h : Hdr) (src : BlockSrc) (block : Bytes)
  /-- R208. -/
  | pubTemplate (h : Hdr) (src : BlockSrc) (block : Bytes)
  /-- R207. -/
  | pubTemplateRemove (h : Hdr) (template : W16)
  /-- R202. -/
  | pubCfgImage (h : Hdr) (ostream : W16) (shard : W16) (kind : Byte) (addr : W64) (len : W16) (image : Bytes) (readOk : Bool)
  /-- R219. -/
  | pubRing (h : Hdr) (p : RingP)
  /-- R221. -/
  | pubRoute (h : Hdr) (type : Byte) (ring : Byte)
  /-- R218. -/
  | pubQueueParams (h : Hdr) (queue : Byte) (limit : W32) (watermark : W16) (staleT : W32)
  /-- R230. -/
  | pubHistPlan (h : Hdr) (tMax : W32)
  /-- R233. -/
  | pubHistRead (h : Hdr) (group : W32) (sec : W48) (tick : W16) (count : W32) (addr : W64)
  /-- R207. -/
  | pubTemplateStatus (h : Hdr) (template : W16)
  /-- R209. -/
  | pubTemplateSigkey (h : Hdr) (p : SigKeyP)
  /-- R246. -/
  | estSlotStart
  /-- R250. -/
  | estSlotDelivered
  /-- R243. -/
  | estRefactorDone
  /-- R252. -/
  | estPreparationDone
  /-- R240. -/
  | estConfig (h : Hdr) (p : EstConfigP)
  /-- R258. -/
  | estLoad (h : Hdr) (p : LoadP)
  /-- R258. -/
  | estClear (h : Hdr) (table : Byte) (first count : W32)
  /-- R252. -/
  | estStatus (h : Hdr)
  /-- R243. -/
  | estRefactor (h : Hdr)
  /-- R242. -/
  | estRowRelease (h : Hdr) (row : W32)
  /-- R242. -/
  | estRowStatus (h : Hdr) (row : W32)
  /-- R277. -/
  | oscSlotStart
  /-- R269. -/
  | oscModeUpdateDelivered
  /-- R270. -/
  | oscFoEvaluation
  /-- R261. -/
  | oscConfig (h : Hdr) (src : BlockSrc) (block : Bytes)
  /-- R284. -/
  | oscLoad (h : Hdr) (p : LoadP)
  /-- R284. -/
  | oscClear (h : Hdr) (table : Byte) (first count : W32)
  /-- R281. -/
  | oscStatus (h : Hdr)
  /-- R280. -/
  | oscRestart (h : Hdr)
  /-- R268. -/
  | oscModeStatus (h : Hdr) (slot : Byte)
  /-- R274. -/
  | oscFoStatus (h : Hdr) (slot : Byte)
  /-- R290. -/
  | islSlotStart
  /-- R294. -/
  | islTopoDelivered
  /-- R295. -/
  | islCohDelivered
  /-- R315. -/
  | gooseRepeat (template : Fin 256)
  /-- R309. -/
  | alarmPinMinWidth (pin : Fin 16)
  /-- R309. -/
  | almForceWrite (v : W32)
  /-- R288. -/
  | islConfig (h : Hdr) (src : BlockSrc) (block : Bytes)
  /-- R300. -/
  | islLoad (h : Hdr) (p : LoadP)
  /-- R300. -/
  | islClear (h : Hdr) (table : Byte) (first count : W32)
  /-- R296. -/
  | islStatus (h : Hdr)
  /-- R301. -/
  | islRestart (h : Hdr)
  /-- R294. -/
  | islIslandStatus (h : Hdr) (slot : Byte)
  /-- R302. -/
  | almLimitWrite (h : Hdr) (cls : W16) (entry : Bytes)
  /-- R307. -/
  | almMap (h : Hdr) (source : Byte) (pins : W16) (goose : Byte) (latch : Byte)
  /-- R309. -/
  | almPinConfig (h : Hdr) (p : AlmPinP)
  /-- R308. -/
  | almAck (h : Hdr) (kind : Byte) (which : W32)
  /-- R313. -/
  | almGoose (h : Hdr) (template : Byte) (addr : W64) (desc : Bytes) (readOk : Bool)
  /-- R316. -/
  | almGooseSigkey (h : Hdr) (p : SigKeyP)
  /-- R305. -/
  | almStatus (h : Hdr) (kind : Byte) (which : W32)
  /-- R322. -/
  | launchExecute (entry : Fin 16384)
  /-- R325. -/
  | launchFrameDelayed (port : Fin 12)
  /-- R323. -/
  | eventPulseEnd (pin : Fin 8)
  /-- R333. -/
  | eventInputEdge (pin : Fin 8) (rise : Bool)
  /-- R332. -/
  | lchDone0Read (path : Path)
  /-- R333. -/
  | lchEvLoRead (path : Path) (pin : Fin 8)
  /-- R321. -/
  | lchWrite (h : Hdr) (index : W16) (entry : Bytes)
  /-- R329. -/
  | lchCancel (h : Hdr) (index : W16)
  /-- R332. -/
  | lchStatus (h : Hdr) (index : W16)
  /-- R326. -/
  | lchFrameLoad (h : Hdr) (buffer : W16) (len : W16) (addr : W64) (data : Bytes) (readOk : Bool)
  /-- R333. -/
  | lchEventConfig (h : Hdr) (p : EventConfigP)
  /-- R345. -/
  | captureTrigger
  /-- R346. -/
  | captureEnd (session : Fin 32)
  /-- R344. -/
  | capSelWrite (v : W32)
  /-- R340. -/
  | capSession (h : Hdr) (session : Byte) (remove : Byte) (addr : W64) (desc : Bytes) (list : List W32) (readOk : Bool)
  /-- R347. -/
  | capMask (h : Hdr) (session : Byte) (mask : Byte) (addr : W64) (desc : Bytes) (readOk : Bool)
  /-- R343. -/
  | capSkew (h : Hdr) (first : Byte) (values : List W32)
  /-- R344. -/
  | capArm (h : Hdr) (session : Byte)
  /-- R349. -/
  | capStop (h : Hdr) (session : Byte)
  /-- R345. -/
  | capTrigger (h : Hdr) (session : Byte) (given : Byte) (sec : W48) (ns : W32)
  /-- R353. -/
  | capRead (h : Hdr) (session : Byte) (lane : Byte) (first count : W32) (addr : W64)
  /-- R353. -/
  | capRelease (h : Hdr) (session : Byte)
  /-- R344. -/
  | capStatus (h : Hdr) (session : Byte)
  /-- R363. -/
  | localSample (samples : List ChanSample)
  /-- R368. -/
  | modFault (chan : Fin 48) (level : Bool)
  /-- R368. -/
  | modFaultClear (chan : Fin 48)
  /-- R367. -/
  | channelSettled (chan : Fin 48)
  /-- R371. -/
  | localPmuReport (circuit : Fin 8)
  /-- R373. -/
  | auxConversionDone (lane : Fin 8) (raw : Int)
  /-- R375. -/
  | auxInjWrite (v : W32)
  /-- R376. -/
  | auxCalDone (lane : Fin 8) (coefs : List W32)
  /-- R376. -/
  | auxSpareTakeover
  /-- R376. -/
  | auxSpareCalibrated (coefs : List W32) (failed : Option (Byte × Bool))
  /-- R378. -/
  | auxBufRdWrite (buffer : Fin 16) (v : W32)
  /-- R358. -/
  | lmfClock (h : Hdr) (p : LmfClockP)
  /-- R360. -/
  | lmfChan (h : Hdr) (p : LmfChanP)
  /-- R369. -/
  | lmfPmu (h : Hdr) (p : LmfPmuP)
  /-- R364. -/
  | lmfStatus (h : Hdr) (circuit : Byte)
  /-- R373. -/
  | auxLane (h : Hdr) (lane : Byte) (odr : W16) (run : Byte)
  /-- R374. -/
  | auxSeq (h : Hdr) (lane : Byte) (entries : List W32)
  /-- R375. -/
  | auxInjected (h : Hdr) (lane : Byte) (trigger : Byte) (entries : List W32)
  /-- R377. -/
  | auxBuffer (h : Hdr) (buffer : Byte) (first len watermark : W16)
  /-- R376. -/
  | auxCal (h : Hdr) (lane : Byte) (period : Option W16)
  /-- R373. -/
  | auxStatus (h : Hdr) (lane : Byte)
  /-- R392. -/
  | demandBoundary (circuit : Fin 8)
  /-- R394. -/
  | intervalRecord (circuit : Fin 8)
  /-- R395. -/
  | pulseStart (output : Fin 8)
  /-- R395. -/
  | pulseEnd (output : Fin 8)
  /-- R397. -/
  | meterSavePeriodic
  /-- R397. -/
  | meterSaveDone
  /-- R391. -/
  | meterStartupTestDone
  /-- R383. -/
  | mtrConfig (h : Hdr) (p : MtrConfigP)
  /-- R392. -/
  | mtrDemand (h : Hdr) (mask : Byte) (mode : Byte) (len : W16) (utcAlign : Byte)
  /-- R395. -/
  | mtrPulse (h : Hdr) (p : MtrPulseP)
  /-- R397. -/
  | mtrSaveParams (h : Hdr) (period : W16)
  /-- R397. -/
  | mtrSaveNow (h : Hdr)
  /-- R385. -/
  | mtrStatus (h : Hdr) (circuit : Byte)
  /-- R391. -/
  | mtrStartupTest (h : Hdr) (circuit : Byte)
  /-- R400. -/
  | mtrClear (h : Hdr) (mask : Byte)
  /-- R415. -/
  | keyUpdateCommit
  /-- R408. -/
  | keySlotScrub (bad : List W16)
  /-- R408. -/
  | shareRemask
  /-- R409. -/
  | keyDrbgFault (test : W32)
  /-- R421. -/
  | tamperDetected (sources : Byte)
  /-- R428. -/
  | presenceRecognised
  /-- R404. -/
  | keyStatus (h : Hdr)
  /-- R414. -/
  | keyUpdate (h : Hdr) (addr : W64) (len : W16) (msg : Bytes) (readOk : Bool)
  /-- R404. -/
  | keySlotStatus (h : Hdr) (slot : W16)
  /-- R419. -/
  | keyAttest (h : Hdr) (slot : W16) (nonce : Bytes) (addr : W64)
  /-- R418. -/
  | keyIdentity (h : Hdr) (addr : W64) (len : W32)
  /-- R409. -/
  | keyRandom (h : Hdr) (count : Byte)
  /-- R420. -/
  | tmpConfig (h : Hdr) (loops : List Byte) (internal : Byte)
  /-- R424. -/
  | tmpClear (h : Hdr)
  /-- R420. -/
  | tmpStatus (h : Hdr)
  /-- R442. -/
  | cmdSqTailWrite (pair : Fin 16) (v : W32)
  /-- R440. -/
  | cmdFetch (pair : Fin 16) (packet : Bytes)
  /-- R442. -/
  | cmdCqHeadWrite (pair : Fin 16) (v : W32)
  /-- R440. -/
  | cmdQueueEnable (pair : Fin 16) (v : W32)
  /-- R443. -/
  | cmdQueueDisable (pair : Fin 16) (v : W32)
  /-- R449. -/
  | mbxDataWrite (path : Path) (mbx : Fin 16) (word : Fin 16) (v : W32)
  /-- R448. -/
  | mbxPost (path : Path) (mbx : Fin 16)
  /-- R448. -/
  | mbxTake (path : Path) (mbx : Fin 16)
  /-- R448. -/
  | mailboxTaken (mbx : Fin 16)
  /-- R448. -/
  | mailboxReplyPost (mbx : Fin 16)
  /-- R451. -/
  | mailboxStall (mbx : Fin 16)
  /-- R452. -/
  | fwWatchdog
  /-- R452. -/
  | fwRestartDone
  /-- R446. -/
  | cfgReplayBatch
  /-- R483. -/
  | forwardedCommandRx (origin : Fin 4) (packet : Bytes)
  /-- R483. -/
  | forwardTimeout (chan : Fin 24)
  /-- R439. -/
  | sysIdentify (h : Hdr)
  /-- R444. -/
  | cmdAbort (h : Hdr) (chan : Byte) (seq : W32)
  /-- R439. -/
  | sysNop (h : Hdr) (data : Bytes)
  /-- R522. -/
  | sysReset (h : Hdr) (delay : W32)
  /-- R445. -/
  | cfgStoreWrite (h : Hdr) (addr : W64) (len : W32) (kind : Byte) (batch : Bytes) (readOk : Bool)
  /-- R445. -/
  | cfgStoreClear (h : Hdr)
  /-- R446. -/
  | cfgStoreStatus (h : Hdr)
  /-- R452. -/
  | sysFwRestart (h : Hdr)
  /-- R456. -/
  | fwBegin (h : Hdr) (kind : Byte) (addr : W64) (header : Bytes) (readOk : Bool)
  /-- R457. -/
  | fwWrite (h : Hdr) (offset len : W32) (kind : Byte) (addr : W64) (data : Bytes) (readOk : Bool)
  /-- R457. -/
  | fwFinish (h : Hdr)
  /-- R456. -/
  | fwStatus (h : Hdr)
  /-- R468. -/
  | logFlushRun
  /-- R467. -/
  | logConfig (h : Hdr) (hostMin mramMin : Byte)
  /-- R471. -/
  | logRead (h : Hdr) (src : W32) (fromOpt : W64) (count : W32) (buffered : Byte) (dest : Byte) (addr : W64)
  /-- R471. -/
  | logStatus (h : Hdr)
  /-- R472. -/
  | logClear (h : Hdr) (maxSev : Byte)
  /-- R473. -/
  | logWrite (h : Hdr) (code : W16) (sev : Byte) (p1 p2 p3 : W32)
  /-- R468. -/
  | logFlush (h : Hdr)
  /-- R481. -/
  | heartbeatRx (b : Heartbeat)
  /-- R481. -/
  | hbLost
  /-- R494. -/
  | witnessDecision (actLow : Bool)
  /-- R493. -/
  | goingDownRx (health : W32)
  /-- R478. -/
  | pairingDecision
  /-- R478. -/
  | pairWaitExpiry
  /-- R490. -/
  | switchoverFreeze
  /-- R490. -/
  | switchoverHandover
  /-- R487. -/
  | xchkCellRx (c : XchkCell)
  /-- R476. -/
  | hrdConfig (h : Hdr) (p : HrdConfigP)
  /-- R483. -/
  | hrdStatus (h : Hdr)
  /-- R491. -/
  | hrdSwitchover (h : Hdr) (sec : W48) (tick : W16)
  /-- R491. -/
  | hrdCancel (h : Hdr)
  /-- R496. -/
  | hrdUnfence (h : Hdr) (mode : Byte)
  /-- R476. -/
  | hrdUnpair (h : Hdr)
  /-- R485. -/
  | hrdDigestReset (h : Hdr)
  /-- R11. -/
  | registerWrite (path : Path) (addr : W32) (v : W32) (enables : BitVec 4)
  /-- R11. -/
  | rcRegisterRead (path : Path) (addr : W32)
  /-- R13. -/
  | multiwordLowRead (path : Path) (addr : W32)
  /-- R510. -/
  | lbHalfWrite (secure : Bool) (addr : W32) (high : Bool) (half : W16)
  /-- R516. -/
  | gblIntEoiWrite (path : Path) (v : W32)
  /-- R503. -/
  | pcieTlpError (pf1 : Bool) (e : TlpError)
  /-- R504. -/
  | pcieFlr (pf1 : Bool)
  /-- R504. -/
  | pcieD3hotEntry (pf1 : Bool)
  /-- R504. -/
  | pcieLinkDown
  /-- R522. -/
  | pciePerst
  /-- R514. -/
  | lbRst
  /-- R512. -/
  | lbTimeout
  /-- R519. -/
  | powerOn
  /-- R522. -/
  | porstN
  /-- R520. -/
  | brownOut
  /-- R523. -/
  | resetRelease (straps : StrapsIn)
  /-- R524. -/
  | alignmentReady
  /-- R529. -/
  | pfwAssert
  /-- R530. -/
  | pfwRelease
  /-- R525. -/
  | dormantEntry
  /-- R526. -/
  | dormantExit
  /-- R525. -/
  | pwrDormant (h : Hdr)
  /-- R526. -/
  | pwrWake (h : Hdr)
  /-- R531. -/
  | pwrStatus (h : Hdr)
  /-- R258. -/
  | estLoadDone (data : Bytes) (readOk : Bool)
  /-- R284. -/
  | oscLoadDone (data : Bytes) (readOk : Bool)
  /-- R159. -/
  | islLoadDone (data : Bytes) (readOk : Bool)
  /-- R269. -/
  | oscFoUpdateDelivered
  /-- R445. -/
  | cfgStoreCommit
  /-- R427. -/
  | lcChangeComplete
  /-- R522. -/
  | sysResetDelayExpiry
  /-- R63. -/
  | ppsOutPulseEnd (output : Fin 2)
  /-- R428. -/
  | presenceReleased
  /-- R41. -/
  | clockLockRestored (domain : Fin 19)
  /-- R422. -/
  | aonPowerLost
  /-- R536. -/
  | aonSourceChangeover (vdd : Bool)
  /-- R479. -/
  | herdLaneUp
  /-- R483. -/
  | herdLaneDown
  /-- R480. -/
  | herdStateCellRx (entries : List StateEntry)
  /-- R483. -/
  | forwardedCommandReply (chan : Fin 24) (status : W16) (order : W32) (reply : Bytes)
  /-- R487. -/
  | memoryTestError
  /-- R504. -/
  | pcieLinkUp (speed : BitVec 4) (width : BitVec 6) (mps : BitVec 3)
  /-- R515. -/
  | msixVectorUnmask (pf1 : Bool) (vector : Option (Fin 64))
  deriving DecidableEq, Repr

end Sys2Proof
end

