-- ==== Sys2Proof/Decode.lean ====
section
/-!
DEFINITION. Decoding by the table's bits. No row of the opcode table gives bits, so no word spells a command.
-/
namespace Sys2Proof

/-- The command that a word spells by the table's bits: none, since every row's field list is empty. -/
def decodeTableWord (_nbits _w : Nat) : Option Instr := none

end Sys2Proof
end

