-- ==== Sys2Proof/Config.lean ====
section
/-!
DEFINITION. What the spec leaves open: free values, each an opaque function, and the constants of the model.
Log entry 1 says how they are used: nothing constrains a free value, so a statement holds for every value of it.
-/
namespace Sys2Proof.Config

/-- A fresh free value, by the count of values drawn so far (log entry 1). -/
opaque freeWord : Nat → BitVec 64

/-- The angle of the complex value 0, from its imaginary and real parts: the spec states none (R139, R372). -/
opaque angle : BitVec 64 → BitVec 64 → BitVec 64
/-- The natural logarithm of a value that is not positive: the spec states none (R273). -/
opaque logarithm : BitVec 64 → BitVec 64

/-- GCM-AES-XPN-256 protection of a frame under a key (R88): kind 1 confidentiality, 2 integrity only; key; and SCI, SSCI, packet number and
frame. The salt that the cipher suite needs beside them is not in the spec. -/
opaque protect : Nat → Bytes → Bytes → Bytes
/-- The inverse of `protect`: the plain bytes, or none where the check fails. -/
opaque unprotect : Nat → Bytes → Bytes → Option Bytes
/-- HMAC-SHA256 of a key and a text (R123, R204, R406, R419). -/
opaque hmac256 : Bytes → Bytes → Bytes
/-- GMAC of a key and a text (R123, R204); what the standard makes the nonce is not in the spec. -/
opaque gmac : Bytes → Bytes → Bytes
/-- AES-256-GCM opened (R412, R413): key, nonce, additional data, ciphertext and tag; the plain text, or none where the tag fails. -/
opaque gcmOpen : Bytes → Bytes → Bytes → Bytes → Bytes → Option Bytes
/-- The ECDH P-384 shared secret of a public key x ‖ y and a private key (R412). -/
opaque ecdh : Bytes → Bytes → Bytes
/-- ECDSA P-384 signature check: public key, SHA-384 digest, signature r ‖ s (R414, R454). -/
opaque verify : Bytes → Bytes → Bytes → Bool
/-- The ECDSA P-384 signature r ‖ s of the identity key over a SHA-384 digest, by the count of values drawn (R419). -/
opaque sign : Nat → Bytes → Bytes
/-- SHA-256 (256) and SHA-384 (384). -/
opaque hash : Nat → Bytes → Bytes
/-- A key the DRBG generates, by the count of values drawn (R409). -/
opaque drbg : Nat → Nat → Bytes
/-- The device identity public key and certificate (R418). -/
opaque identity : Unit → Bytes × Bytes
/-- The Wilsia firmware public key of the fuses (R453). -/
opaque firmwareKey : Unit → Bytes
/-- The public key of KE (R419). -/
opaque kePublic : Bytes → Bytes
/-- The timeSource of the peer's time while HERD is the reference (Table 2-6), by the count of values drawn. -/
opaque peerTimeSource : Nat → BitVec 8

/-- How long after the start of a tick its heartbeat cell is sent, in 2^-16 ns; the rule bounds it by 1.0 µs (R480, log entry 1). -/
opaque heartbeatDelay : Nat → Nat
/-- TAI - UTC in force when the firmware image was built (R67). -/
opaque leapBase : Unit → BitVec 8
/-- The changes that the image's default table announces: the UTC day at whose midnight each takes effect, and whether it is an insertion
(R67). -/
opaque leapNews : Unit → List (Nat × Bool)

/-- The polarity of the parity bit of IEEE 1344 (R65): it is in a standard outside the spec. -/
opaque irigOdd : Unit → Bool

/-- The order of elimination that approximate minimum degree gives for a pattern, each bus with its neighbours (R243: the method's ties
and approximations are not stated). -/
opaque minDegree : List (Nat × List Nat) → List Nat

/-- The taps of the linear-phase low-pass of R264 by D, F_M, F_HI and place; the spec gives its band edges and attenuation only. -/
opaque lowPassTap : Nat → Nat → BitVec 32 → Nat → BitVec 64
/-- The coefficient of the first-order high-pass of R264 with its corner at F_LO, at the rate F_M. -/
opaque highPassGain : BitVec 32 → Nat → BitVec 64
/-- Where projection-approximation subspace tracking starts after a restart, by n and r: the basis U and the inverse covariance of its
projections (R266 names the method without its start). -/
opaque trackStart : Nat → Nat → List (BitVec 64) × List (BitVec 64)
/-- The state covariance of an identified model, by row: its order, then A and C by row and the Hankel matrix. The covariances R_1 to
R_(2HB-1) of R266 do not determine it, and R267 does not say which one it means. -/
opaque stateCov : Nat → List (BitVec 64) → List (BitVec 64) → List (BitVec 64) → List (BitVec 64)
/-- The Hann window of R270 by length and place; the spec does not say which of its two forms. -/
opaque hannTap : Nat → Nat → BitVec 64
/-- The second-order resonator of R273: FO_BW, F_M, f, its two words and a new value; gives its words and the output. -/
opaque resonate : BitVec 32 → Nat → BitVec 64 → List (BitVec 64) → BitVec 64 → List (BitVec 64) × BitVec 64

/-- The gain of the first-order low-pass of R292, by time constant and rate. -/
opaque lowPassGain : BitVec 32 → Nat → BitVec 64

/-- The 127 taps of the Hilbert filter of chapter 14; the spec gives its band and phase error only. -/
opaque hilbertTap : Nat → BitVec 64
/-- One payload of a session-protocol SPDU: whether it is of the sampled-value type, its simulation bit and its APPID. -/
structure SvPayload where
  isSv  : Bool
  sim   : Bool
  appid : BitVec 16
/-- The session header of an IEC 61850-90-5 SPDU with its payloads, the bytes that its signature covers, and the signature. -/
structure SvSession where
  version   : Nat
  encrypted : Bool
  keyId     : BitVec 32
  payloads  : List SvPayload
  signed    : Bytes
  signature : Bytes
/-- One ASDU: confRev, the seconds, fraction and quality of refrTm where it is present, smpSynch and the sample field. -/
structure SvAsdu where
  confRev : BitVec 32
  refrTm  : Option (Nat × Nat × Nat)
  synch   : Nat
  sample  : Bytes
/-- The session header and payloads of an SPDU, where its octets have that structure (log entry 12: the standard's octet layout is not in the
spec). -/
opaque svSession : Bytes → Option SvSession
/-- The ASDUs of the savPdu of an SPDU, where it decodes (log entry 12). -/
opaque svApdu : Bytes → Option (List SvAsdu)
/-- The length of a routed sampled-value SPDU without its sample field and signature, by the lengths of its svID and of the sample field
(log entry 12). -/
opaque svFixed : Nat → Nat → Nat
/-- The session-protocol SPDU of R204 and R314 from its fields. -/
opaque svBuild : List Nat → List Bytes → Bytes

/-- The cell that an item of a queue occupies, by queue ID and place, and the body that its class gives it (R214): the spec states neither. -/
opaque cellOf : Nat → Nat → BitVec 20
/-- See `cellOf`. -/
opaque itemBody : Nat → Nat → Bytes

/-- The queue ID under which the firmware's own work queue is logged: the spec gives it none (R218). -/
opaque fwQueueId : Unit → Nat

end Sys2Proof.Config
end

