-- ==== Sys2Proof/Machine/State/Port.lean ====
section
/-!
DEFINITION. The twelve Ethernet ports: settings, filters, buffers, PAUSE and MACsec (chapter 3).
-/
namespace Sys2Proof.Machine

/-- Time in the 96-bit format of R42: seconds, nanoseconds, 16-bit fraction. -/
structure Stamp where
  sec  : W48 := 0
  ns   : W32 := 0
  frac : W16 := 0
  deriving DecidableEq, Repr

/-- Receive metadata of Table 3-3. -/
structure RxMeta where
  port    : Nat
  ts      : Stamp
  len     : Nat
  daClass : BitVec 2
  tags    : Nat
  outer   : BitVec 18
  inner   : BitVec 16
  prot    : Byte
  deriving DecidableEq, Repr

/-- A frame that passed the port tests: what follows the tags from the EtherType on, without the FCS, with its
addresses and metadata (R78, R82). -/
structure PortFrame where
  dst     : W48
  src     : W48
  etype   : W16
  payload : Bytes
  info    : RxMeta
  deriving DecidableEq, Repr

/-- One MACsec secure association (R89). -/
structure MacSa where
  slot     : Nat
  ssci     : W32
  pn       : Nat
  /-- of a receive SA: the lowest acceptable packet number it was installed with. -/
  low      : Nat := 0
  unusable : Bool := false
  deriving DecidableEq, Repr

/-- One receive secure channel: its SCI and the SAs by AN. -/
structure RxSc where
  sci : W64
  sas : NMap MacSa
  deriving DecidableEq, Repr

/-- A frame ready for, or inside, a port's transmitter: who offered it, its bytes without FCS, whether firmware marks it
for a timestamp (with the message's sequenceId, messageType and domain). -/
structure TxFrame where
  /-- 0 firmware, 1 published, 2 GOOSE, 3 launch. -/
  kind   : Nat
  source : Nat
  bytes  : Bytes
  mark   : Option (W16 × BitVec 4 × Byte)
  /-- the aligned record in output staging that it was made from, and the bytes that record holds there (R194). -/
  held   : Option (Nat × Nat) := none
  deriving DecidableEq, Repr

/-- State of one port. -/
structure Port where
  mode      : Nat := 0            -- 4 bits; 03 R72 TRK_STAT.MODE; reset 0 (R98)
  fec       : Bool := false       -- 1 bit, FEC of mode 4; 03 Table 3-8; DESIGN CHOICE 0 (log entry 3)
  an        : Bool := true        -- 1 bit; 03 R72; DESIGN CHOICE 1 (log entry 3)
  polarity  : Byte := 0           -- 4 bits; 03 R72; DESIGN CHOICE 0 (log entry 3)
  maxLen    : Nat := 1518         -- 14 bits; 03 R74 TRK_STAT.MAX_LEN; reset 1,518
  pauseOn   : Bool := true        -- 1 bit, PAUSE honouring; 03 R84; reset 1
  arpTags   : Nat := 0            -- 2 bits; 03 R83; DESIGN CHOICE 0 (log entry 3)
  arpTpid   : Byte := 0           -- selector of the outer TPID of ARP replies; 03 R83; DESIGN CHOICE 0 (log entry 3)
  arpOuter  : W16 := 0            -- 16 bits; 03 R83; DESIGN CHOICE 0 (log entry 3)
  arpInner  : W16 := 0            -- 16 bits; 03 R83; DESIGN CHOICE 0 (log entry 3)
  link      : Link := .disabled   -- 3 bits; 03 TRK_STAT.LINK; reset 0
  anDone    : Bool := false       -- 1 bit; 03 TRK_STAT.AN_DONE; reset 0
  fecLock   : Bool := false       -- 1 bit; 03 TRK_STAT.FEC_LOCK; reset 0
  highBer   : Bool := false       -- 1 bit; 03 TRK_STAT.HIGH_BER; reset 0
  partner   : W32 := 0            -- partner's advertised abilities; 03 Table 3-8; DESIGN CHOICE 0 (log entry 3)
  preFec    : W32 := 0            -- pre-FEC bit error ratio; 03 Table 3-8; DESIGN CHOICE 0 (log entry 3)
  unicast   : Option W48 := none  -- 48 bits set by PORT_ADDR (none: the default address of R79); 03 R79; reset the default
  mcastAll  : Bool := true        -- 1 bit; 03 R79; reset ALL
  mcast     : NMap W48 := []      -- 64 addresses; 03 R79; reset empty
  promisc   : Bool := false       -- 1 bit; 03 R79; reset off
  untagged  : Bool := true        -- 1 bit; 03 R81; reset 1
  extraTpid : W16 := 0x9100       -- 16 bits; 03 R80; reset 0x9100
  vidOff    : List Nat := [4095]  -- VIDs whose bit of the 4,096-bit table is 0; 03 R81; reset all 1 but 4,095
  rxAdj     : Int := 0            -- signed 48 bits, 2^-16 ns; 03 R96; reset 0
  txAdj     : Int := 0            -- signed 48 bits, 2^-16 ns; 03 R96; reset 0
  pause     : Nat := 0            -- 16 bits, quanta as last loaded (what remains is counted from it); 03 TRK_PAUSE; reset 0
  pauseAt   : Nat := 0            -- operating time in ns at which the timer was loaded; 03 R85; reset 0
  pauseIn   : Option W16 := none  -- 16 bits, a received pause time not yet delivered over X14; 03 R85; reset none
  flags     : BitVec 7 := 0       -- 7 bits RW1C; 03 TRK_FLAGS; reset 0
  rxFifo    : List PortFrame := [] -- frames in the receive buffer, oldest first; 03 R77, TRK_RXBUF.FILL; reset empty
  rxFill    : Nat := 0            -- bytes of the receive buffer in use; 03 TRK_RXBUF.FILL; reset 0
  rxHwm     : Nat := 0            -- KiB RC; 03 TRK_RXBUF.HWM; reset 0
  ctrlQ     : List PortFrame := [] -- up to 16 ARP, ICMP and IGMP frames; 03 R78, 04 Table 4-3; reset empty
  ptpQ      : List PortFrame := [] -- PTP frames given to firmware; 03 R78; reset empty
  txBuf     : List TxFrame := []  -- frames in the transmit buffer, oldest first; 03 R86; reset empty
  msec      : Bool := false       -- 1 bit; 03 TRK_STAT.MSEC_ON; reset 0
  conf      : Bool := false       -- 1 bit, confidentiality; 03 R88; DESIGN CHOICE 0 (log entry 3)
  sendSci   : Bool := false       -- 1 bit, SCI in the SecTAG; 03 R88; DESIGN CHOICE 0 (log entry 3)
  ptpClear  : Bool := false       -- 1 bit; 03 R93; reset off
  replay    : Nat := 0            -- 31 bits, replay window; 03 R88; reset 0
  txSci     : W64 := 0            -- 64 bits, SCI of the transmit SC; 03 Table 3-8; DESIGN CHOICE 0 (log entry 3)
  txSas     : NMap MacSa := []    -- transmit SAs by AN, at most 2; 03 R89; reset none
  txAn      : Option Nat := none  -- AN of the current transmit SA; 03 R91 TRK_MSEC_STAT; reset none
  rxScs     : NMap RxSc := []     -- receive SCs by index; 03 R89; reset none
  deriving DecidableEq, Repr

end Sys2Proof.Machine
end

