-- ==== Sys2Proof/Machine/State/Pub.lean ====
section
/-!
DEFINITION. Publishing, the Husk queues, the delivery rings and the history ring (chapter 7), and what the device sends
out of itself.
-/
namespace Sys2Proof.Machine

/-- A record for a delivery ring: its TYPE and PRIO (Table 7-8), bytes 8 to 63 of the header entry, and the further
64-byte entries. The item word's RSEQ is given when the record is written (R224). -/
structure HostRec where
  type : Nat
  prio : Nat
  head : Bytes
  more : List Bytes
  /-- the aligned record in output staging that it belongs to, and the bytes that record holds there (R194). -/
  held : Option (Nat × Nat) := none
  deriving DecidableEq, Repr

/-- An egress item: a frame of a template (or of GOOSE or firmware) with the instant of its commit (R210, R211). -/
structure EgressItem where
  prio     : Nat
  template : Option Nat
  frame    : TxFrame
  amend    : Bool
  proto    : Nat
  /-- OPT of its commit, in µs of operating time, and MAX_AGE in µs (none: never aged). -/
  bornUs   : Nat
  maxAgeUs : Option Nat
  deriving DecidableEq, Repr

/-- One Husk queue's parameters and stale state (R213, R218). -/
structure QParams where
  limit     : Nat := 65536
  watermark : Nat := 65535
  staleT    : Nat := 1000
  stale     : Bool := false
  logAt     : Option (BitVec 40) := none
  /-- operating time in ns at which the stale timer started. -/
  since     : Nat := 0
  deriving DecidableEq, Repr

/-- One delivery ring (R219 to R223). -/
structure Ring where
  base      : W64 := 0        -- 64 bits; 07 R219; DESIGN CHOICE 0 (log entry 3)
  size      : Nat := 64       -- entries, a power of two; 07 R219; DESIGN CHOICE 64 (log entry 3)
  wb        : W64 := 0        -- 64 bits; 07 R219; DESIGN CHOICE 0 (log entry 3)
  watermark : Nat := 1        -- 07 R219; reset 1 (default)
  staleT    : Nat := 50       -- µs; 07 R219; reset 50 (default)
  en        : Bool := false   -- 1 bit; 07 RNG_DL_STAT.EN; reset 0
  run       : Bool := false   -- 1 bit; 07 RNG_DL_STAT.RUN; reset 0
  closing   : Bool := false   -- 1 bit, to be disabled after the record being written; 07 R219; reset 0
  err       : Bool := false   -- 1 bit RW1C; 07 RNG_DL_STAT.ERR; reset 0
  stale     : Bool := false   -- 1 bit RW1C; 07 RNG_DL_STAT.STALE; reset 0
  notice    : Bool := false   -- 1 bit; 07 RNG_DL_STAT.NOTICE; reset 0
  head      : Nat := 0        -- 24 bits; 07 RNG_DL_HEAD; reset 0
  tail      : Nat := 0        -- 24 bits, entries written; 07 R220; reset 0
  tailWb    : Nat := 0        -- 24 bits, TAIL as last written back; 07 RNG_DL_TAIL; reset 0
  rseq      : W32 := 0        -- 32 bits; 07 R224; reset 0
  part      : Option (HostRec × List Bytes) := none -- the record being written and its entries not yet written; 07 R220; reset none
  since     : Nat := 0        -- operating time in ns at which the stale timer started; 07 R218, R220; reset 0
  drops     : List Nat := [0, 0, 0, 0, 0, 0, 0, 0] -- records discarded by TYPE 0x2 to 0x9; 07 R223; reset 0
  firstDrop : Stamp := {}     -- 96 bits; 07 R228 GAP; reset 0
  lastDrop  : Stamp := {}     -- 96 bits; 07 R228 GAP; reset 0
  deriving DecidableEq, Repr

/-- A signature binding (R123, R209, R316). -/
structure Binding where
  keyId      : W32
  slot       : Nat
  timeOfKey  : W32
  timeToNext : W16
  deriving DecidableEq, Repr

/-- The running state of one template, kept outside the generation (R203, R204, R209). -/
structure TplRun where
  on      : Bool := true
  quar    : Bool := false
  spdu    : W32 := 0
  sent    : Nat := 0
  dropped : Nat := 0
  cur     : Option Binding := none
  next    : Option Binding := none
  deriving DecidableEq, Repr

/-- One block of the history ring (R229). -/
structure HistBlock where
  head : W64
  vals : List W64
  deriving DecidableEq, Repr

/-- What the device sends out of itself, as an observer outside sees it. -/
inductive Output where
  /-- a write to host memory. -/
  | hostWrite (addr : W64) (data : Bytes)
  /-- an MSI-X write of a vector of PF0 (false) or PF1 (true). -/
  | msix (pf1 : Bool) (vector : Nat)
  /-- a Completer Abort on PCIe (R449, R502). -/
  | completerAbort (pf1 : Bool)
  /-- a frame on a port, without preamble and FCS. -/
  | frame (port : Nat) (bytes : Bytes)
  /-- a rising edge of PPS_OUT_n, and its instant in ns from the PTP epoch, the output's offset applied (R63). -/
  | ppsOut (n : Nat) (rise : Int)
  /-- the edge of REF10_OUT at a second start, and its instant; the others follow every 100 ns of the counter (Table 2-10). -/
  | ref10Out (rise : Int)
  /-- a sentence on TOD_SER_OUT. -/
  | serial (text : Bytes)
  /-- an IRIG-B frame: position p of Table 2-11 in bit p, position markers 0, and the instant of its on-time edge. -/
  | irig (frame : BitVec 100) (rise : Int)
  /-- a heartbeat cell and the pulse on HERD_HB_OUT (R480): tick, second, PAIR_ID, health word, output levels, its transmit
  timestamp and the receive timestamp of the peer's last cell, and of a pending switch-over the tick that the active announces, or the
  standby's acknowledgement (R491). -/
  | heartbeat (tick : Nat) (sec : W48) (pairId : W16) (health : W32) (alarms : BitVec 16) (events pulses : BitVec 8)
      (txAt : CellTime) (rxAt : Option CellTime) (announce : Option (W48 × Nat)) (ack : Bool)
  /-- GOING_DOWN (R482) with the health word. -/
  | goingDown (health : W32)
  /-- a STATE cell (R480). -/
  | stateCell (template : Nat) (stNum sqNum : W32)
  /-- a command forwarded to the peer, with the parameter block that it carries (R434, R483). -/
  | forward (chan : Nat) (packet block : Bytes)
  /-- the completion of a command that the peer forwarded here. -/
  | forwardReply (chan : Nat) (seq : W32) (status : W16) (order : W32)
  /-- a commit digest cell (R487). -/
  | xchkCell (ostream : Nat) (sec : W48) (tick amend : Nat) (complete : Bool) (absent : List Nat) (crc : W32)
  /-- the level of a pin, none where it is three-stated or its open drain is off: group 0 alarm, 1 event, 2 pulse. -/
  | pin (group index : Nat) (level : Option Bool)
  /-- a queue's notice to its consumer (R218): its depth reached WATERMARK, or it stood unread for STALE_T; queue 76 is the firmware's. -/
  | queueNotice (queue : Nat)
  /-- every alarm, event and pulse output is three-stated (R477, R490). -/
  | release
  deriving DecidableEq, Repr

/-- State of the PUB block and the delivery rings. -/
structure Pub where
  routes     : NMap Nat := []      -- ring by record TYPE, unlisted 255; 07 R221; reset 255
  feeders    : NMap (List HostRec) := [] -- 32 feeder queues, oldest first; 07 R213, R221; reset empty
  egress     : NMap (List EgressItem) := [] -- 12 egress queues, oldest first; 07 R210; reset empty
  qparams    : NMap QParams := []  -- parameters and stale state of queues 0 to 43, and as 76 the firmware's work queue; 07 R218; reset LIMIT 65,536, WATERMARK 65,535, STALE_T 1,000 (of 76: DESIGN CHOICE, log entry 3)
  rings      : NMap Ring := []     -- 32 delivery rings; 07 R219; reset each at its fields' reset
  tpl        : NMap TplRun := []   -- per template, transmission state, quarantine, SPDU number, counts, bindings; 07 R203, R204, R209; reset none
  hist       : NMap HistBlock := [] -- 201,326,592 blocks of 128 B by position; 07 R229; reset wiped (R523)
  recNum     : Nat := 0            -- number of the next record in output staging (the model's); 07 R194; DESIGN CHOICE 0 (log entry 16)
  flags      : BitVec 9 := 0       -- 9 bits RW1C; 07 PUB_FLAGS; reset 0
  qSel       : BitVec 6 := 0       -- 6 bits; 07 PUB_Q_SEL; reset 0
  histLogged : Bool := false       -- 1 bit, HIST_PLAN_MISSING logged for the present generation; 07 R230; reset 0
  deriving DecidableEq, Repr

end Sys2Proof.Machine
end

