-- ==== Sys2Proof/Machine/State/Ing.lean ====
section
/-!
DEFINITION. Stream ingest and the flow scheduler (chapter 4).
-/
namespace Sys2Proof.Machine

/-- Stream kinds of Table 4-1. -/
inductive StreamKind where
  | c37Udp | svUdp | hostC37 | hostSv | locl | derived
  deriving DecidableEq, Repr

/-- A stream's generation-carried definition (Table 4-17). -/
structure StreamDef where
  kind      : StreamKind
  version   : Nat
  timeBase  : Nat
  rate      : Nat
  firstChan : Nat
  count     : Nat
  blocks    : Nat
  dataLen   : Nat
  testAcc   : Bool
  questAcc  : Bool
  sortAcc   : Bool
  leapTrust : Bool
  snap      : Bool
  confRev   : W32
  deriving DecidableEq, Repr

/-- A stream's classification key and qualifiers (R105, Table 4-16). -/
structure StreamKey where
  sv      : Bool
  disc    : W16
  dstPort : W16
  srcAddr : BitVec 128
  dstAddr : BitVec 128
  qPort   : Option Nat
  qVid    : Option Nat
  qSrc    : Option W16
  deriving DecidableEq, Repr

/-- A frame queued on a stream's task (R131): where it came from, its arrival time, its addresses, and the C37.118.2
frame or the SPDU it carries. -/
structure TaskFrame where
  port    : Option Nat
  ts      : Stamp
  outer   : BitVec 18 := 0
  inner   : BitVec 16 := 0
  tags    : Nat := 0
  srcMac  : W48 := 0
  srcIp   : BitVec 128 := 0
  dstIp   : BitVec 128 := 0
  srcPort : W16 := 0
  dstPort : W16 := 0
  /-- bytes of the port receive buffer or host staging it occupies (R137). -/
  held    : Nat := 0
  data    : Bytes
  /-- instant and canonical values of a LOCAL or DERIVED report. -/
  inst    : W48 × W32 := (0, 0)
  values  : List W64 := []
  deriving DecidableEq, Repr

/-- A stream's run state (R102) and its scheduler task (R132). -/
structure StreamRun where
  held     : Bool := false
  quar     : Bool := false
  fwFlags  : W16 := 0xFFFF
  fwMask   : W16 := 0
  queue    : List TaskFrame := []
  lastRx   : Stamp := {}
  lastStat : W16 := 0
  leapBits : BitVec 3 := 0
  accepted : W32 := 0
  dropped  : NMap W32 := []
  cur      : Option (Binding × Byte) := none
  next     : Option (Binding × Byte) := none
  cfgLogAt : Option (BitVec 40) := none
  revLogAt : Option (BitVec 40) := none
  leapLogAt : Option (BitVec 40) := none
  deriving DecidableEq, Repr

/-- One address entry of a port (R104). -/
structure IpEntry where
  addr : BitVec 128
  plen : Nat
  deriving DecidableEq, Repr

/-- One host-ingest ring (R127). -/
structure HostRing where
  base  : W64 := 0      -- 64 bits; 04 R127; DESIGN CHOICE 0 (log entry 3)
  size  : Nat := 64     -- entries; 04 R127; DESIGN CHOICE 64 (log entry 3)
  wb    : W64 := 0      -- 64 bits; 04 R127; DESIGN CHOICE 0 (log entry 3)
  en    : Bool := false -- 1 bit; 04 RNG_HI_STAT.EN; reset 0
  run   : Bool := false -- 1 bit; 04 RNG_HI_STAT.RUN; reset 0
  err   : Bool := false -- 1 bit RW1C; 04 RNG_HI_STAT.ERR; reset 0
  head  : Nat := 0      -- 16 bits; 04 RNG_HI_HEAD; reset 0
  tail  : Nat := 0      -- 16 bits; 04 RNG_HI_TAIL; reset 0
  since : Nat := 0      -- descriptors since the last HEAD write-back; 04 R127; reset 0
  deriving DecidableEq, Repr

/-- A frame given to firmware through the shared queue of R115, with its stream (none for a keyless command frame or a
routed GOOSE session). -/
structure FwFrame where
  stream : Option Nat
  frame  : TaskFrame
  deriving DecidableEq, Repr

/-- A parsed report on its way into the alignment engine (R119, R177): its stream, decoded instant, arrival time, the
definition it was checked under, its leap bits and its values by position in the stream's run. -/
structure Report where
  stream  : Nat
  sec     : W48
  ns      : W32
  arrival : Stamp
  defn    : StreamDef
  /-- it was parsed from a frame (else LOCAL or DERIVED). -/
  parsed  : Bool
  /-- generation of the slot (R23). -/
  gen     : W16
  leap    : Option (Bool × Bool × Bool)
  values  : List W64
  /-- its UTC second is one that a deletion removes (R177). -/
  gone    : Bool := false
  /-- a shed notice in place of a report (R175). -/
  shed    : Bool := false
  deriving DecidableEq, Repr

/-- State of the ING and SCH blocks. -/
structure Ing where
  runs     : NMap StreamRun := []  -- run state and task of 262,144 streams; 04 R102, R131; reset ACTIVE, no frame
  addrs    : NMap IpEntry := []    -- four IPv4 and four IPv6 entries per port, by port, version and entry; 04 R104; reset disabled
  replies  : NMap (W48 × Nat) := [] -- per port, replies sent in the present second; 04 R104; reset none
  readyExt : List Nat := []        -- external ready list, oldest first; 04 R134; reset empty
  readyInt : List Nat := []        -- internal ready list, oldest first; 04 R134; reset empty
  parsers  : Nat := 0              -- 6 bits, parsers in service; 04 ING_STAT.PARSERS; reset 0
  intBusy  : Nat := 0              -- 3 bits, parsers serving internal tasks; 04 SCH_STAT.INT_BUSY; reset 0
  extCells : Nat := 0              -- external descriptor cells in use; 04 R135; reset 0
  extHwm   : Nat := 0              -- 16 bits RC, in units of 16 cells; 04 SCH_HUSK.HWM; reset 0
  intCells : Nat := 0              -- 13 bits; 04 SCH_HUSK.INT_USED; reset 0
  fwQueue  : List FwFrame := []    -- up to 256 frames; 04 R115; reset empty
  alnQ     : List Report := []     -- reports in the alignment input queue; 04 R136; reset empty
  alnBp    : Bool := false         -- 1 bit; 04 ING_STAT.ALN_BP; reset 0
  quotaBp  : Bool := false         -- 1 bit; 04 ING_STAT.QUOTA_BP; reset 0
  flags    : BitVec 7 := 0         -- 7 bits RW1C; 04 ING_FLAGS; reset 0
  hostNext : Nat := 0              -- 4 bits, the host-ingest ring whose turn is next; 04 R127; DESIGN CHOICE 0 (log entry 3)
  hostRings : NMap HostRing := []  -- 16 host-ingest rings; 04 R127; reset each at its fields' reset
  deriving DecidableEq, Repr

end Sys2Proof.Machine
end

