-- ==== Sys2Proof/Machine/State/Aln.lean ====
section
/-!
DEFINITION. The alignment engine: O-streams, memberships, slots, landing rings and latency state (chapter 6).
-/
namespace Sys2Proof.Machine

/-- An O-stream's generation-carried alignment parameters (Table 6-1). -/
structure OstreamDef where
  rate      : Nat
  firstMemb : Nat
  membCount : Nat
  maxWait   : Nat
  lagLimit  : Nat
  guardUs   : Nat
  qtail     : Nat
  defWait   : Nat
  missLimit : Nat
  amend     : Bool
  deriving DecidableEq, Repr

/-- A membership's generation-carried fields (Table 6-2). -/
structure Memb where
  ostream  : Nat
  stream   : Nat
  sel      : Nat
  wait     : Bool
  decimate : Bool
  deriving DecidableEq, Repr

/-- A membership's hardware fields (Table 6-2), kept while its pair is unchanged (R189). -/
structure MembRun where
  lag  : Bool := false
  miss : Nat := 0
  deriving DecidableEq, Repr

/-- A planned landing ring (R171): depth in reports and blocks per report. -/
structure LandPlan where
  depth : Nat
  bpr   : Nat
  base  : Nat
  deriving DecidableEq, Repr

/-- A report landed in a ring (R171): its instant, its generation and its values by position of the stream's run. -/
structure Landed where
  sec    : W48
  tick   : Nat
  gen    : W16
  values : List W64
  deriving DecidableEq, Repr

/-- States of a slot position (Table 6-3). -/
inductive SlotState where
  | free | opened | committed
  deriving DecidableEq, Repr

/-- Commit causes (Table 6-3). -/
inductive Cause where
  | complete | deadline | forced
  deriving DecidableEq, Repr

/-- One slot of an O-stream: its word (Table 6-3), its scoreboard column (the memberships whose bit is set), the
memberships counted at open, the laggards at open, and values of reports that were not landed (R177 step 5). -/
structure Slot where
  ord      : Nat
  sec      : W48
  tick     : Nat
  gen      : W16
  deadline : Nat
  state    : SlotState
  waited   : Bool
  amend    : Nat := 0
  cause    : Cause := .complete
  remain   : Nat
  counted  : List Nat
  laggards : List Nat
  bits     : List Nat := []
  shed     : List Nat := []
  /-- per membership, the report as it landed and the values the slot takes from it (R169). -/
  carried  : NMap (List W64 × List W64) := []
  orderWait : Bool := false
  deriving DecidableEq, Repr

/-- Summary of a commit (R176). -/
structure Summary where
  ostream : Nat
  sec     : W48
  tick    : Nat
  gen     : W16
  cause   : Cause
  /-- contributors absent with reason 0x10, 0x11, 0x12, 0x13, 0x15 and 0x16. -/
  absent  : List Nat
  warming : Bool
  amend   : Nat
  deriving DecidableEq, Repr

/-- One published value of a record (R226). -/
structure PubVal where
  chan   : Nat
  word   : W64
  subst  : Bool
  reason : Nat
  deriving DecidableEq, Repr

/-- One contributor of a record: its membership and stream, whether its bit was set, else the reason of its absence
(Table 6-4), whether it gained values in this amended issue, and its values. -/
structure Contrib where
  memb    : Nat
  stream  : Nat
  here    : Bool
  why     : Nat
  gained  : Bool
  /-- this commit is the first that is expected to take the report, so its landed values are tested and recorded (R231, R303). -/
  tests   : Bool
  /-- the report as it landed, by position of the stream's run. -/
  landed  : List W64
  /-- the slot's value of every channel of the stream, not substituted. -/
  all     : NMap W64
  /-- the channels the O-stream selects (R148), in the order of R226, by block (R197), after substitution. -/
  blocks  : List (List PubVal)
  deriving DecidableEq, Repr

/-- An aligned record (R176, R194). -/
structure Record where
  summary  : Summary
  commitNs : Nat
  /-- the unit sent its outputs at the commit (R477, R490). -/
  sends    : Bool
  /-- TOD_QUAL_CODE at the commit (R199, R200). -/
  qual     : W32
  contribs : List Contrib
  deriving DecidableEq, Repr

/-- The running state of one O-stream. -/
structure OsRun where
  newest  : Nat := 0            -- ordinal of the newest slot; 06 R170; reset 0
  opened  : Bool := false       -- 1 bit, a slot has been opened; 06 R170; reset 0
  slots   : List Slot := []     -- up to 256 slots, newest first; 06 R170; reset empty
  wait    : Nat := 0            -- µs, D_o; 06 R182; reset 0
  warming : Bool := false       -- 1 bit; 06 R185; reset 0
  last    : Option Summary := none -- last commit's summary; 06 Table 6-12; reset none
  deriving DecidableEq, Repr

/-- The alignment state of one stream: histogram, arrivals, quantile bin, plans and ring. -/
structure StreamAln where
  bins     : List Nat := List.replicate 64 0 -- 64 bins of 8 bits; 06 R180; reset 0
  arrivals : Nat := 0           -- 10 bits, saturating at 512; 06 R181; reset 0
  lq       : Nat := 0           -- 6 bits; 06 R181; reset 0
  lastPass : Option Stamp := none -- arrival time of the last passing report; 06 R179; reset none
  returned : Bool := false      -- 1 bit, returned to ACTIVE since its last report; 06 R179; reset 0
  ring     : NMap Landed := []  -- landed reports by ring position; 06 R171; reset empty
  oldRing  : NMap Landed := []  -- landed reports of an old ring until retirement; 06 R172; reset empty
  deriving DecidableEq, Repr

/-- An early-list entry (R178). -/
structure Early where
  memb    : Nat
  stream  : Nat
  ostream : Nat
  sec     : W48
  tick    : Nat
  gen     : W16
  shed    : Bool
  carried : List W64 × List W64
  deriving DecidableEq, Repr

/-- State of the ALN block. -/
structure Aln where
  os       : NMap OsRun := []      -- running state of 4,096 O-streams; 06 R170; reset each at its fields' reset
  membs    : NMap MembRun := []    -- LAG and MISS of 1,048,576 memberships; 06 Table 6-2; reset 0
  streams  : NMap StreamAln := []  -- latency state and landing ring of 262,144 streams; 06 R171, R180; reset 0
  early    : List Early := []      -- up to 65,536 entries; 06 R178; reset empty
  restartGap : Nat := 10           -- s; 06 R179; reset 10 (default)
  flags    : BitVec 9 := 0         -- 9 bits RW1C; 06 ALN_FLAGS; reset 0
  osSel    : BitVec 12 := 0        -- 12 bits; 06 ALN_OS_SEL; reset 0
  osStat   : W32 := 0              -- 32 bits; 06 ALN_OS_STAT; reset 0
  osLag    : W32 := 0              -- 32 bits; 06 ALN_OS_LAG; reset 0
  osPos    : W32 := 0              -- 32 bits; 06 ALN_OS_POS; reset 0
  asmQueue : List Record := []     -- committed records waiting for a lane; 06 R191; reset empty
  lagLog   : W48 × List Nat := (0, []) -- the TAI second, and the memberships whose laggard changes it has logged (at most 64); 06 R184; reset none
  sweep    : Nat := 0              -- O-stream at which the sweep stands; 06 R183; reset 0
  deriving DecidableEq, Repr

end Sys2Proof.Machine
end

