-- ==== Sys2Proof/Machine/State/Alm.lean ====
section
/-!
DEFINITION. Limit classes, alarm sources, alarm pins and routed GOOSE (chapter 10).
-/
namespace Sys2Proof.Machine

/-- A limit class (Table 10-6). -/
structure LimitClass where
  high  : W64
  low   : W64
  rate  : W32
  hyst  : W32
  qsel  : Nat
  flags : BitVec 5
  onN   : Nat
  offN  : Nat
  pins  : BitVec 16
  goose : Nat
  deriving DecidableEq, Repr

/-- The slot an alarm belongs to (Table 10-9, bytes 8 to 19). -/
structure AlmCtx where
  sec     : W48 := 0
  tick    : Nat := 0
  ostream : Nat := 0
  gen     : W16 := 0
  deriving DecidableEq, Repr

/-- The limit state of one monitored channel (R304, R305): raised and latch states, condition counts, the conditions that
hold, the last tested quantity with its instant, the slot of the last test, and the time of the last change. -/
structure LimitState where
  raised  : Bool := false
  latched : Bool := false
  onN     : Nat := 0
  offN    : Nat := 0
  conds   : Nat := 0
  prev    : Option (W48 × Nat × W64) := none
  lastX   : W64 := 0
  ctx     : AlmCtx := {}
  changed : Option Stamp := none
  deriving DecidableEq, Repr

/-- The map entry of an engine source (R307). -/
structure SrcMap where
  pins  : BitVec 16 := 0
  goose : Nat := 255
  latch : Bool := false
  deriving DecidableEq, Repr

/-- The state of one engine source: raised, whether only its latch holds it, its value, detail and threshold, the map
entry in effect since its last raise (R307), its slot, and the time of the last change. -/
structure SrcState where
  raised  : Bool := false
  latched : Bool := false
  value   : W64 := 0
  detail  : W32 := 0
  limit   : W64 := 0
  map     : SrcMap := {}
  ctx     : AlmCtx := {}
  changed : Option Stamp := none
  deriving DecidableEq, Repr

/-- One alarm pin (R309). -/
structure AlmPin where
  enabled   : Bool := false
  openDrain : Bool := false
  high      : Bool := true
  minWidth  : Nat := 100000
  asserted  : Bool := false
  /-- MIN_WIDTH runs since its assertion. -/
  running   : Bool := false
  deriving DecidableEq, Repr

/-- A GOOSE template (Table 10-10) and its run state (R315, R316). -/
structure Goose where
  desc   : Bytes
  members : List (Nat × Nat)
  stNum  : W32 := 1
  sqNum  : W32 := 0
  changed : Stamp := {}
  interval : Nat := 0
  spdu   : W32 := 0
  quar   : Bool := false
  cur    : Option Binding := none
  next   : Option Binding := none
  deriving DecidableEq, Repr

/-- A commit that waits for a Gazelle lane (R311). -/
structure GzWait where
  record : Record
  since  : Nat
  deriving DecidableEq, Repr

/-- State of the ALM block. -/
structure Alm where
  limits    : NMap LimitState := [] -- limit state of monitored channels, at most 2,097,152; 10 R306; reset none
  plan      : Option (List Nat × List Nat) := none -- channels that the pending generation monitors, and those it leaves unmonitored; 10 R306; reset none
  reassigned : List Nat := []       -- channels of the old generation whose entry was reassigned; 10 R306; reset none
  newOnly   : List Nat := []        -- channels with an entry that had none in the old generation, until retirement; 10 R306; reset none
  oldOnly   : List Nat := []        -- channels whose entry the current generation does not keep, until retirement; 10 R306; reset none
  sources   : NMap SrcState := []   -- 128 engine sources; 10 R307; reset not raised
  map       : NMap SrcMap := []     -- engine source map; 10 R307; DESIGN CHOICE PINS 0, GOOSE 0xFF, LATCH 0 (log entry 3)
  pins      : NMap AlmPin := []     -- 16 alarm pins; 10 R309; reset disabled, MIN_WIDTH 100,000 µs
  launch    : BitVec 16 := 0        -- 16 bits, launch levels; 10 R309, 11 Table 11-3; reset 0
  force     : BitVec 16 := 0        -- 16 bits; 10 ALM_FORCE; reset 0
  goose     : NMap Goose := []      -- 256 GOOSE templates; 10 R313; reset none
  gzQueue   : List GzWait := []     -- commits waiting for a Gazelle lane, oldest first; 10 R311; reset empty
  flags     : BitVec 6 := 0         -- 6 bits RW1C; 10 ALM_FLAGS; reset 0
  frozen    : Option (BitVec 16) := none -- pin levels held during a switch-over gap; 18 R490; reset none
  deriving DecidableEq, Repr

end Sys2Proof.Machine
end

