-- ==== Sys2Proof/Machine/State/Cap.lean ====
section
/-!
DEFINITION. Disturbance capture: sessions, masks and captures (chapter 12).
-/
namespace Sys2Proof.Machine

/-- A trigger term (R342). -/
structure CapTerm where
  kind : Nat
  edge : BitVec 2
  sel  : W32
  deriving DecidableEq, Repr

/-- A session's definition (Table 12-2), with its channel list. -/
structure CapDef where
  isLocal  : Bool
  isWide   : Bool
  contin   : Bool
  hold     : Bool
  stream   : Bool
  extMax   : Nat
  wideAll  : Bool
  locMask  : BitVec 48
  ostream  : Nat
  list     : List Nat
  pre      : Nat
  post     : Nat
  reach    : Nat
  nLocal   : Nat
  nWide    : Nat
  lanes    : BitVec 6
  maskEn   : Byte
  terms    : List CapTerm
  deriving DecidableEq, Repr

/-- A mask test (Table 12-5): points are µs, upper and lower. -/
structure CapMask where
  stop     : Bool
  trig     : Bool
  wide     : Bool
  magn     : Bool
  chan     : Nat
  stopPost : Nat
  points   : List (Nat × W32 × W32)
  deriving DecidableEq, Repr

/-- Session states of Table 12-4. -/
inductive CapState where
  | undefined | idle | armed | capturing | rearm
  deriving DecidableEq, Repr

/-- One item of a lane: its instant in ninths of a nanosecond since the PTP epoch (every sample, slot and tick instant is a
whole number of them), its generation and its bytes. -/
structure CapItem where
  t9   : Nat
  gen  : W16 := 0
  data : Bytes
  /-- a selected channel was in FAULT, SETTLING or OVER (R337, R368). -/
  bad  : Bool := false
  /-- the first item of a new generation whose value count differs (R351). -/
  chg  : Bool := false
  deriving DecidableEq, Repr

/-- A group being reduced (R339): its start in ninths of a nanosecond, its ordinal, and the values gathered for each channel,
newest first. -/
structure CapGroup where
  t9   : Nat
  ord  : Nat
  vals : List (List W64)
  bad  : Bool := false
  deriving DecidableEq, Repr

/-- One lane: items of the pre-trigger buffer or of the capture not yet in a posted chunk (oldest first), the group being
formed, and the number of chunks posted. -/
structure CapLane where
  items  : List CapItem := []
  group  : Option CapGroup := none
  posted : Nat := 0
  deriving DecidableEq, Repr

/-- A capture (R345 to R350). -/
structure Capture where
  number   : Nat
  /-- the trigger point and the unmoved trigger instant, ns. -/
  tp       : Nat
  raw      : Nat
  kind     : Nat
  /-- the term of TP, 0xFF for a command or launch trigger. -/
  term     : Nat
  sel      : W32
  /-- the counter when the capture started, ns. -/
  began    : Nat
  /-- the capture end, exclusive, in ninths of a nanosecond. -/
  stop     : Nat
  /-- the mask that stopped it. -/
  mask     : Option Nat := none
  exts     : Nat := 0
  /-- trigger points in CAPTURING, oldest first, at most eight, and their number. -/
  during   : List Nat := []
  duringN  : Nat := 0
  co       : Nat := 0
  moved    : Bool := false
  preShort : Bool := false
  extCap   : Bool := false
  genChg   : Bool := false
  modFault : Bool := false
  lost     : Bool := false
  deriving DecidableEq, Repr

/-- One session. -/
structure CapSession where
  state   : CapState := .undefined
  defn    : Option CapDef := none
  masks   : NMap CapMask := []
  /-- chunks allocated. -/
  alloc   : Nat := 0
  /-- values of a whole record when the session was defined (R341). -/
  values  : Nat := 0
  nextNum : Nat := 0
  lanes   : NMap CapLane := []
  /-- the lanes as they stood when the capture started, for a trigger in the same cycle (R345). -/
  before  : NMap CapLane := []
  /-- first and last local sample ordinal, and first and last wide slot (in ticks from the PTP epoch), since ARMED. -/
  locals  : Option (Nat × Nat) := none
  wides   : Option (Nat × Nat) := none
  cap     : Option Capture := none
  /-- chunk records of the capture posted and not yet written or discarded. -/
  flight  : Nat := 0
  /-- the chunks of a capture that is held or not yet delivered, by lane. -/
  held    : NMap (List HostRec) := []
  /-- the last capture's end cause and number. -/
  lastEnd : Nat := 0
  lastNum : Nat := 0
  deriving DecidableEq, Repr

/-- A trigger on its way to a session (R342): kind, term, SELECTOR, its instant before and after skew correction, in ns. -/
structure CapWait where
  session : Nat
  kind    : Nat
  term    : Nat
  sel     : W32
  raw     : Nat
  tp      : Nat
  deriving DecidableEq, Repr

/-- State of the CAP block. -/
structure Cap where
  sessions : NMap CapSession := [] -- 32 sessions; 12 R340; reset UNDEFINED
  waiting  : List CapWait := []    -- triggers on their way to sessions, oldest first; 12 R342; reset empty
  skews    : NMap Int := []        -- ns, signed, 48 channels and 8 pins; 12 R343; reset 0 (default)
  free     : Nat := 131072         -- 18 bits, chunks not allocated; 12 CAP_STAT.FREE; reset 131,072
  sel      : BitVec 5 := 0         -- 5 bits; 12 CAP_SEL; reset 0
  sessStat : W32 := 0              -- 32 bits; 12 CAP_SESS_STAT; reset 0
  sessFill : W32 := 0              -- 32 bits; 12 CAP_SESS_FILL; reset 0
  sessChunks : W32 := 0            -- 32 bits; 12 CAP_SESS_CHUNKS; reset 0
  flags    : BitVec 7 := 0         -- 7 bits RW1C; 12 CAP_FLAGS; reset 0
  deriving DecidableEq, Repr

end Sys2Proof.Machine
end

