-- ==== Sys2Proof/Machine/State/Clk.lean ====
section
/-!
DEFINITION. The wheel, generation switching, clock locks, crossings and shedding (chapter 1).
-/
namespace Sys2Proof.Machine

/-- A pending or retiring generation switch (R10, R24). -/
structure Switch where
  gen  : W16
  sec  : W48
  tick : Nat
  /-- the switch was set by a launch action-6 entry (R328), by its entry index. -/
  entry : Option Nat := none
  deriving DecidableEq, Repr

/-- The accounting of one once-per-second summary record (R549): events counted in one TAI second. -/
structure Tally where
  sec   : W48
  count : Nat
  /-- a value the record carries beside the count (the first tick, a slot). -/
  arg   : Nat := 0
  deriving DecidableEq, Repr

/-- State of the CLK block. -/
structure Clk where
  sec       : W48 := 0        -- 48 bits, TAI second of the wheel's tick; 01 R2, R26; reset 0
  tick      : Nat := 0        -- 12 bits; 01 CLK_WHEEL.TICK R26; reset 0
  gen       : W16 := 0        -- 16 bits, current generation; 01 CLK_WHEEL.GEN R21; reset 0
  pending   : Option Switch := none  -- CLK_GEN_PEND.PENDING, SW_TICK, NEXT_GEN, CLK_GEN_SEC; 01 R10; reset none
  retiring  : Option Switch := none  -- CLK_GEN_PEND.RETIRING: the switch whose old generation has not retired; 01 R24; reset none
  swTick    : BitVec 12 := 0  -- 12 bits, CLK_GEN_PEND.SW_TICK as last written; 01 CLK_GEN_PEND; reset 0
  nextGen   : W16 := 0        -- 16 bits, CLK_GEN_PEND.NEXT_GEN as last written; 01 CLK_GEN_PEND; reset 0
  swSec     : W48 := 0        -- 48 bits, CLK_GEN_SEC_LO/HI as last written; 01 CLK_GEN_SEC; reset 0
  chgDir    : List Nat := []  -- changed directory entries of the staged set, at most 4,194,304 (a scaling entry i as 2^25 + i); 01 R20, 05 R147; reset empty
  chgOther  : List Nat := []  -- changed stream, membership and O-stream entries, at most 262,144 (kind × 2^24 + index); 01 R20; reset empty
  redef     : List Nat := []  -- streams whose definition the staged generation gives anew; 04 R102; reset empty
  genStart  : Option (W48 × Nat) := none -- switch tick at which the current generation began; 01 R23, R24; reset none
  oldStart  : Option (W48 × Nat) := none -- switch tick at which the old generation began; 01 R23, R24; reset none
  firstBuilt : Bool := false  -- 1 bit, a generation has been switched to since reset, so that the limits of R20 apply; 01 R21; reset 0
  xmode     : BitVec 16 := 0  -- 16 bits; 01 CLK_XMODE R36; reset 0
  xovr      : BitVec 16 := 0  -- 16 bits RW1C; 01 CLK_XOVR R38; reset 0
  lock      : BitVec 19 := 0  -- 19 bits; 01 CLK_LOCK R41; reset 0
  stalled   : NMap Nat := []  -- domains that lost lock and must relock within 10 ms, with OPT in µs at the loss; 20 R527; reset none
  missed    : List (W48 × Nat) := [] -- ticks that began while CLK_CORE or CLK_MEM was stopped, oldest first; 20 R527; reset empty
  tallies   : NMap Tally := [] -- once-per-second summary counts by event kind; 01 R549; reset none
  closed    : List (Nat × Tally) := [] -- counts that a TIME_SET closed, by event kind; 01 R549; reset none
  deriving DecidableEq, Repr

end Sys2Proof.Machine
end

