-- ==== Sys2Proof/Machine/State/Cmd.lean ====
section
/-!
DEFINITION. Command channels, queue pairs, mailboxes, the configuration store and the firmware image (chapter 16).
-/
namespace Sys2Proof.Machine

/-- A packet fetched from a submission ring and not yet accepted (R440). `bad` is the expected SEQ where the packet
failed the sequence check (R441); `abort` says that CMD_ABORT named it (Table 16-4). -/
structure Fetched where
  packet : Bytes
  bad   : Option W32 := none
  abort : Bool := false
  deriving DecidableEq, Repr

/-- A message that the firmware has taken from an inbound mailbox, and whose reply has not been posted in full (R448): the path that posted
it, its 64 bytes, and whether CMD_ABORT named it. -/
structure Taken where
  path   : Path
  packet : Bytes
  abort  : Bool := false
  deriving DecidableEq, Repr

/-- A command executing on a channel (R437): what its completion needs. -/
structure Executing where
  hdr    : Hdr
  op     : W16
  params : Bytes
  /-- it may still be aborted: its effect step has not passed (Table 16-5). -/
  abortable : Bool
  /-- ORDER of its acceptance. -/
  order  : W32
  /-- its completion is lost: its queue was reset while it executed (R443). -/
  lost   : Bool := false
  deriving DecidableEq, Repr

/-- The registers of one queue pair (Table of R440) and its fetched packets. -/
structure QPair where
  sqBase   : W64 := 0      -- 64 bits; 16 CMD_SQ_BASE; reset 0
  cqBase   : W64 := 0      -- 64 bits; 16 CMD_CQ_BASE; reset 0
  cqWb     : W64 := 0      -- 64 bits; 16 CMD_CQ_WB; reset 0
  en       : Bool := false -- 1 bit; 16 CMD_Q_CFG.EN; reset 0
  noticeEn : Bool := false -- 1 bit; 16 CMD_Q_CFG.NOTICE_EN; reset 0
  sqLog2   : Nat := 4      -- 4 bits; 16 CMD_Q_CFG.SQ_LOG2; reset 4
  cqLog2   : Nat := 4      -- 4 bits; 16 CMD_Q_CFG.CQ_LOG2; reset 4
  sqTail   : Nat := 0      -- 12 bits; 16 CMD_SQ_TAIL; reset 0
  sqHead   : Nat := 0      -- 12 bits; 16 CMD_SQ_HEAD; reset 0
  cqHead   : Nat := 0      -- 12 bits; 16 CMD_CQ_HEAD; reset 0
  cqTail   : Nat := 0      -- 12 bits; 16 CMD_CQ_TAIL; reset 0
  cfgErr   : Bool := false -- 1 bit RW1C; 16 CMD_Q_STAT.CFG_ERR; reset 0
  err      : Bool := false -- 1 bit RW1C; 16 CMD_Q_STAT.ERR; reset 0
  stopped  : Bool := false -- 1 bit, stopped by a bad doorbell until EN is cleared and set; 16 R442; reset 0
  seqNext  : W32 := 0      -- 32 bits; 16 CMD_Q_SEQ.NEXT; reset 0
  seqFixed : Bool := false -- 1 bit, the first packet has fixed the sequence; 16 R441; reset 0
  fetched  : List Fetched := [] -- up to 992 packets; 16 R440; reset empty
  noticed  : Bool := false -- 1 bit, a notice was raised since CQ_HEAD was last written; 16 R440; reset 0
  seqLogAt : Option W48 := none -- TAI second of the last CMD_SEQ_ERROR record; 16 R441; reset none
  deriving DecidableEq, Repr

/-- One mailbox (R447 to R451). -/
structure Mailbox where
  data      : NMap W32 := []          -- 16 words of 32 bits, unlisted 0; 16 MBX_DATA; reset 0
  full      : Bool := false           -- 1 bit; 16 MBX_STAT.FULL; reset 0
  path      : BitVec 3 := 0           -- 3 bits; 16 MBX_STAT.PATH; reset 0
  sepoch    : BitVec 4 := 0           -- 4 bits; 16 MBX_STAT.SEPOCH; reset 0
  stall     : Bool := false           -- 1 bit RW1C; 16 MBX_STAT.STALL; reset 0
  discarded : Bool := false           -- 1 bit RW1C; 16 MBX_STAT.DISCARDED; reset 0
  emptyEv   : Bool := false           -- 1 bit RW1C; 16 MBX_STAT.EMPTY_EV; reset 0
  msgEv     : Bool := false           -- 1 bit RW1C; 16 MBX_STAT.MSG_EV; reset 0
  reject    : Bool := false           -- 1 bit RW1C; 16 MBX_STAT.REJECT; reset 0
  window    : Path := .pf0            -- 2 bits, the window of the posting path (notices); 16 R448; DESIGN CHOICE pf0 (log entry 3)
  stalled   : Bool := false           -- 1 bit, MAILBOX_STALL was logged for this FULL period; 16 R451; reset 0
  replies   : List Bytes := []        -- reply entries waiting to be posted (outbound only); 16 R448; reset empty
  taken     : Option Taken := none    -- the message the firmware holds (inbound only); 16 R448; reset none
  abort     : Bool := false           -- 1 bit, CMD_ABORT named the posted message (inbound only); 16 Table 16-4; reset 0
  fullOp    : Nat := 0                -- operating time in ns at which it became FULL; 16 R451; DESIGN CHOICE 0 (log entry 3)
  deriving DecidableEq, Repr

/-- One Gahaver batch kept in the configuration store (R165, R445): its bytes, from the header to the last payload section. -/
structure StoredBatch where
  image : Bytes
  deriving DecidableEq, Repr

/-- A firmware image's header page as Fawn reads it (Table 16-9). -/
structure ImageHdr where
  major    : Byte := 0
  minor    : Byte := 0
  patch    : W16 := 0
  build    : W32 := 0
  schema   : W16 := 0
  svn      : W16 := 0
  minFawn  : W16 := 0
  bodyLen  : Nat := 0
  bodyHash : Bytes := []
  sigOk    : Bool := true
  deriving DecidableEq, Repr

/-- Start-up replay of the configuration store (R446). -/
structure Replay where
  running  : Bool := false -- 1 bit, batches remain to be replayed; 16 R446; reset 0
  next     : Nat := 0      -- ordinal of the next batch; 16 R446; reset 0
  packet   : Nat := 0      -- ordinal of the batch's next packet; 16 R446, 05 R166; reset 0
  result   : Nat := 0      -- result of the last replay: 0 none, 1 done, 2 failed, 3 store newer; 16 Table 16-6; reset 0
  deriving DecidableEq, Repr

/-- A CMD_ABORT that completes after its target (Table 16-4). -/
structure AbortWait where
  chan   : Nat
  target : Nat
  seq    : W32
  deriving DecidableEq, Repr

/-- State of the CMD, MBX and FWL blocks, the configuration store and the firmware. -/
structure Cmd where
  queues     : NMap QPair := []       -- pairs 0 to 15, unlisted at reset values; 16 R440; reset: every pair at its reset values
  mailboxes  : NMap Mailbox := []     -- mailboxes 0 to 15, unlisted at reset values; 16 R447; reset: every mailbox at its reset values
  order      : W32 := 0               -- 32 bits, last ORDER given; 16 R437; DESIGN CHOICE 0 (log entry 3)
  executing  : List Executing := []   -- at most 4; 16 R437; reset empty
  turns      : List Nat := [31, 31, 31, 31] -- 5 bits per class, the channel last accepted in it; 16 R437; DESIGN CHOICE 31: none (log entry 3)
  fence      : Bool := false          -- 1 bit, a fenced command executes; 16 R437; reset 0
  aborts     : List AbortWait := []   -- aborts that wait for their target's completion; 16 Table 16-4; reset empty
  epochs     : List (BitVec 4) := [0, 0, 0, 0] -- 4 bits each: PF0, PF1, local bus, firmware; 16 R449; reset 0
  paramPf0   : List (Nat × Byte) := [] -- 4 KiB of bytes, the PF0 parameter window; 16 R434; reads 0 where not written (DESIGN CHOICE, log entry 4)
  paramLb    : List (Nat × Byte) := [] -- 4 KiB of bytes, the local-bus parameter window; 16 R434; reads 0 where not written (DESIGN CHOICE, log entry 4)
  fwlWindow  : List (Nat × Byte) := [] -- 64 KiB of bytes, the FWL window; 16 R458; reads 0 where not written (DESIGN CHOICE, log entry 4)
  fwUp       : Bool := false          -- 1 bit, the firmware accepts commands; 19 GBL_STATE.FW; reset 0
  fwRestarting : Bool := false        -- 1 bit, a firmware restart is in progress; 16 R452; reset 0
  restartDue : Bool := false          -- 1 bit, SYS_FW_RESTART has completed and its restart follows; 16 Table 16-6; reset 0
  watchdogs  : List (BitVec 40) := [] -- OPT of the watchdog restarts within the last 60 s; 16 R452; reset empty
  store      : List StoredBatch := [] -- batches of the active half, at most 16,777,216 bytes; 16 R445; kept by reset, factory content empty (DESIGN CHOICE, log entry 3)
  storeHalf  : Bool := false          -- 1 bit, the active half; 16 R460; kept by reset, DESIGN CHOICE 0 (log entry 3)
  storeSchema : W16 := 0              -- 16 bits, schema recorded in the store header; 16 R460 FWL_SCHEMA.STORE; kept by reset, 0
  storePending : Option StoredBatch := none -- an append whose commit word is not yet written; 16 R445; reset none
  migrated   : Bool := false          -- 1 bit, a migration ran at this start-up; 16 R460; reset 0
  replay     : Replay := {}           -- start-up replay; 16 R446; reset idle
  running    : Option ImageHdr := none -- header of the running image (FWL_VER, FWL_SCHEMA, FWL_SVN); 16 R454; reset none (registers 0)
  stored     : ImageHdr := {}         -- header of the stored image; 16 R453; kept by reset, DESIGN CHOICE every field 0 (log entry 3)
  storedComplete : Bool := true       -- 1 bit, STATE is COMPLETE; 16 R453; kept by reset, DESIGN CHOICE COMPLETE (log entry 3)
  body       : NMap Bytes := []       -- image body by 64-byte unit; 16 R457; kept by reset, factory content not listed (DESIGN CHOICE, log entry 3)
  bodyHashOk : Bool := true           -- 1 bit, BODY_HASH of the stored image matches its body as last computed; 16 R454; kept by reset, DESIGN CHOICE 1 (log entry 3)
  updOpen    : Bool := false          -- 1 bit; 16 FWL_STAT.UPD R456; reset 0
  written    : List Nat := []         -- 64-byte units written since FW_BEGIN (FWL_STAT.WRITTEN is their number); 16 R457; reset empty
  minSvn     : W16 := 0               -- 16 bits, monotonic counter in MRAM; 16 R455 FWL_SVN.MIN_SVN; kept by reset, 0
  loader     : Bool := false          -- 1 bit; 16 FWL_STAT.LOADER R459; reset 0
  loaderCause : BitVec 3 := 0         -- 3 bits; 16 FWL_STAT.CAUSE; reset 0
  fawnVersion : W16 := 0              -- 16 bits; 16 R454; fixed part of the device, DESIGN CHOICE 0 (log entry 3)
  deriving DecidableEq, Repr

end Sys2Proof.Machine
end

