-- ==== Sys2Proof/Machine/State/Dir.lean ====
section
/-!
DEFINITION. The directory block outside the generation: its windows and its running loads (chapter 5).
-/
namespace Sys2Proof.Machine

/-- One indirect directory window (R161). -/
structure DirWin where
  idx   : W32 := 0       -- 32 bits; 05 DIR_WIN_IDX; reset 0
  busy  : Bool := false  -- 1 bit; 05 DIR_WIN_STAT.BUSY; reset 0
  valid : Bool := false  -- 1 bit; 05 DIR_WIN_STAT.VALID; reset 0
  err   : Bool := false  -- 1 bit; 05 DIR_WIN_STAT.ERR; reset 0
  gen   : W16 := 0       -- 16 bits; 05 DIR_WIN_STAT.GEN; reset 0
  data  : List W32 := [0, 0, 0, 0, 0, 0, 0, 0] -- 8 words of 32 bits; 05 DIR_WIN_DATA; reset 0
  /-- a fetch in progress: its index word and the generation current when it began (R162). -/
  fetch : Option (W32 × Bool) := none -- fetch in progress; 05 R161; reset none
  deriving DecidableEq, Repr

/-- A table load in progress (R160, R258, R284): its channel and SEQ, and its parameters. -/
structure LoadRun where
  chan : Nat
  seq  : W32
  p    : LoadP
  /-- GEN_SWITCH was accepted after the load was (R159). -/
  conflict : Bool
  deriving DecidableEq, Repr

/-- State of the DIR block. -/
structure Dir where
  winPf0 : DirWin := {}     -- the PF0 window; 05 R161; reset as its fields
  winLb  : DirWin := {}     -- the local-bus window; 05 R161; reset as its fields
  loads  : List LoadRun := [] -- loads in progress; 05 R160; reset empty
  skipFirst : Nat := 0      -- first channel skipped in the present second; 05 Table 5-10; reset 0
  deriving DecidableEq, Repr

end Sys2Proof.Machine
end

