-- ==== Sys2Proof/Machine/State/Est.lean ====
section
/-!
DEFINITION. The linear state estimator: model, factor, rows and running state (chapter 8).
-/
namespace Sys2Proof.Machine

/-- A bus entry (Table 8-11). -/
structure EstBus where
  zeroInj : Bool
  vnom    : W32
  deriving DecidableEq, Repr

/-- A branch entry (Table 8-11); `status` is the status channel, bit index and the level that means open. -/
structure EstBranch where
  f      : Nat
  t      : Nat
  gs     : W32
  bs     : W32
  bc     : W32
  tap    : W32
  theta  : W32
  status : Option (Nat × Nat × Bool)
  deriving DecidableEq, Repr

/-- A measurement row (Table 8-11). -/
structure EstRow where
  chan  : Nat
  kind  : Nat
  elem  : Nat
  sigma : W32
  deriving DecidableEq, Repr

/-- EST_CONFIG's settings (Table 8-12). -/
structure EstConfig where
  enable    : Bool := false
  ostream   : Nat := 0
  stream    : Nat := 0
  alpha     : Nat := 1
  rnLimit   : W32 := 0x40400000
  bdMax     : Nat := 8
  xmax      : Nat := 32
  leaveN    : Nat := 50
  joinN     : Nat := 50
  holdSlots : Nat := 50
  ziSigma   : W32 := 0x3F800000
  pivotTol  : W32 := 0x2EDBE6FF
  critTol   : W32 := 0x358637BD
  chiN      : Nat := 5
  suspectN  : Nat := 10
  unsolvedN : Nat := 3
  obsLimit  : Nat := 0
  deriving DecidableEq, Repr

/-- The estimator model of one generation (R252). -/
structure EstModel where
  config   : EstConfig := {}
  buses    : NMap EstBus := []
  branches : NMap EstBranch := []
  rows     : NMap EstRow := []
  deriving DecidableEq, Repr

/-- Why a row left A (R242). -/
inductive LeftCause where
  | absent | bad | topology
  deriving DecidableEq, Repr

/-- The running state of one row (R242, R247). -/
structure EstRowRun where
  inA      : Bool := true
  cause    : LeftCause := .absent
  absentN  : Nat := 0
  badN     : Nat := 0
  joinN    : Nat := 0
  /-- a refactorisation with the new topology has completed since it left (R242). -/
  topoDone : Bool := false
  disabled : Bool := false
  /-- the last estimated measurement (real and imaginary part) and the slot it is from. -/
  pseudo   : Option (W64 × W64 × Nat) := none
  lastRn   : W64 := 0
  deriving DecidableEq, Repr

/-- A factor (R243 to R245): its rows, branch states, NNZ, unobservable buses, Ω per row and critical rows. -/
structure Factor where
  gen      : W16
  rows     : List Nat
  branches : List Nat
  nnz      : Nat
  unobs    : List Nat
  omega    : NMap W64
  critical : List Nat
  buses    : Nat
  /-- FSEQ at its install. -/
  seq      : W16 := 0
  deriving DecidableEq, Repr

/-- A factorisation in progress: what it factors, and whether it is a preparation (R252). -/
structure Factoring where
  gen      : W16
  prep     : Bool
  rows     : List Nat
  branches : List Nat
  deriving DecidableEq, Repr

/-- Consecutive counts of one engine alarm condition (R256, R279, R297). -/
structure AlarmCount where
  onN  : Nat := 0
  offN : Nat := 0
  deriving DecidableEq, Repr

/-- What the engine holds for one generation (R240 to R244, R252): the runs of its rows (262,144 + b for the implicit row of bus b),
the branches out of service by their last status, the branch states that a change is judged against, and the factor in
force. -/
structure EstRun where
  rows    : NMap EstRowRun := []
  open_   : List Nat := []
  refOpen : List Nat := []
  factor  : Option Factor := none
  /-- COLD (R251): no slot since the first install has reached SOLVED or FLAGGED. -/
  cold    : Bool := false
  deriving DecidableEq, Repr

/-- State of the EST block. -/
structure Est where
  run       : EstRun := {}         -- rows, branches and factor of the current generation; 08 R240 to R244; reset none
  oldRun    : EstRun := {}         -- those of the old generation until retirement; 08 R252; reset none
  ready     : Option Factor := none -- a ready factor, installed at the next commit notice; 08 R244; reset none
  prepared  : Option Factor := none -- the factor prepared for the pending generation; 08 R252; reset none
  prepOff   : List Nat := []       -- rows disabled at the last preparation; 08 R253; reset none
  running   : Option Factoring := none -- factorisation in progress; 08 R243; reset none
  pending   : Bool := false        -- 1 bit, one merged refactorisation pending; 08 R243; reset 0
  abandoned : Bool := false        -- 1 bit, a refactorisation was abandoned for the preparation; 08 R252; reset 0
  failed    : List W16 := []       -- generations whose preparation failed or had no row, for EST_STATUS; 08 R252; reset none
  fseq      : W16 := 0             -- 16 bits; 08 EST_STAT.FSEQ; reset 0
  notices   : List Record := []    -- commit notices not yet started; 06 R175; reset empty
  working   : Option Record := none -- the slot being solved; 08 R246; reset none
  slotNo    : Nat := 0             -- commit notices received, for HOLD_SLOTS; 08 R247; reset 0
  last      : BitVec 3 := 0        -- 3 bits; 08 EST_STAT.LAST; reset 0
  flags     : BitVec 8 := 0        -- 8 bits RW1C; 08 EST_FLAGS; reset 0
  chi       : AlarmCount := {}     -- consecutive slots of EST_CHI; 08 R256; reset 0
  unsolved  : AlarmCount := {}     -- consecutive slots of EST_UNSOLVED; 08 R256; reset 0
  suspects  : NMap Nat := []       -- consecutive slots per removed row; 08 R256; reset none
  suspect   : AlarmCount := {}     -- consecutive slots with and without EST_SUSPECT; 08 R256; reset 0
  rowLog    : W48 × List Nat := (0, []) -- rows whose changes were logged in the present second; 08 R259; reset none
  loads     : List LoadRun := []   -- EST_LOAD commands in progress; 08 R258; reset empty
  deriving DecidableEq, Repr

end Sys2Proof.Machine
end

