-- ==== Sys2Proof/Machine/State/Gbl.lean ====
section
/-!
DEFINITION. The host interfaces: GBL registers, PCIe, MSI-X, the local bus and the multi-word shadows (chapter 19, R13).
-/
namespace Sys2Proof.Machine

/-- The shadow of one access path (R13): its 8-bit SEQ per group of words, and the latched words by register address. -/
structure Shadow where
  seq   : NMap Byte := []  -- 8 bits per multi-word value, by the address of its low word; 00 R13; reset 0
  words : NMap W32 := []   -- latched words by register address, unlisted 0; 00 R13; reset 0
  deriving DecidableEq, Repr

/-- One PCIe function (R500 to R504). -/
structure Func where
  d3hot    : Bool := false          -- 1 bit; 19 R504; DESIGN CHOICE D0 (log entry 3)
  intEn    : BitVec 26 := 0         -- 26 bits, the path's GBL_INT_EN; 19 R516; reset 0
  summary  : Bool := false          -- 1 bit, the path's summary value was non-zero; 19 R516; reset 0
  vecMask  : BitVec 64 := BitVec.allOnes 64 -- 64 bits, MSI-X vector masks; 19 R515; PRESUMED all masked (PCIe; log entry 5)
  funcMask : Bool := false          -- 1 bit, MSI-X function mask; 19 R515; PRESUMED 0 (PCIe; log entry 5)
  pba      : BitVec 64 := 0         -- 64 bits; 19 R515; PRESUMED 0 (PCIe; log entry 5)
  table    : NMap W32 := []         -- message address and data words of the MSI-X table by word, unlisted 0; 19 Table 19-2, R504; PRESUMED 0 (PCIe; log entry 5)
  aer      : List (Nat × Bool) := [] -- AER reports: kind and whether fatal, newest first; 19 R503; reset empty
  shadow   : Shadow := {}           -- R13 shadow of the path; 00 R13; reset 0
  deriving DecidableEq, Repr

/-- One local-bus window's registers (R507, GBL_LB_SRC, GBL_LB_EN). -/
structure LbWin where
  intEn   : BitVec 26 := 0  -- 26 bits, the window's GBL_INT_EN; 19 R516; reset 0
  lbEn    : BitVec 7 := 0   -- 7 bits; 19 GBL_LB_EN; reset 0
  almChg  : Bool := false   -- 1 bit RW1C; 19 GBL_LB_SRC.ALM_CHG; reset 0
  summary : Bool := false   -- 1 bit, the window's summary value was non-zero; 19 R516; reset 0
  deriving DecidableEq, Repr

/-- State of the GBL block and of the two host interfaces. -/
structure Gbl where
  eui      : W64 := 0          -- 64 bits, fused; 19 GBL_ID; fixed part of the device, DESIGN CHOICE 0 (log entry 3)
  err      : BitVec 9 := 0     -- 9 bits RW1C; 19 GBL_ERR; reset 0
  linkUp   : Bool := false     -- 1 bit; 19 GBL_PCIE.UP; reset 0
  speed    : BitVec 4 := 0     -- 4 bits; 19 GBL_PCIE.SPEED; reset 0
  width    : BitVec 6 := 0     -- 6 bits; 19 GBL_PCIE.WIDTH; reset 0
  mps      : BitVec 3 := 0     -- 3 bits; 19 GBL_PCIE.MPS; reset 0
  pf0      : Func := {}        -- function PF0; 19 R500; reset as its fields
  pf1      : Func := {}        -- function PF1; 19 R500; reset as its fields
  win      : LbWin := {}       -- non-secure local-bus window; 19 R507; reset as its fields
  winS     : LbWin := {}       -- secure local-bus window; 19 R507; reset as its fields
  lbShadow : Shadow := {}      -- one R13 shadow set for both local-bus windows; 19 R507; reset 0
  fwShadow : Shadow := {}      -- R13 shadow of the firmware path; 00 R13; reset 0
  lbHeld   : Option W16 := none -- 16 bits, the held low half; 19 R510; reset none
  lbHalfRd : W16 := 0          -- 16 bits, the half-word read shadow; 19 R510; DESIGN CHOICE 0 (log entry 3)
  lbErrN   : Bool := true      -- 1 bit, LB_ERR_N level of the last access's final cycle; 19 R512; inactive (high)
  intN     : Bool := true      -- 1 bit, INT_N level; 19 R517; released (high)
  lastRead : W32 := 0          -- 32 bits, the data the last register read returned; 00 R11; DESIGN CHOICE 0 (log entry 3)
  lbRunning : Bool := false    -- 1 bit, LB_CLK is present; 01 CLK_LOCK; reset 0
  deriving DecidableEq, Repr

end Sys2Proof.Machine
end

