-- ==== Sys2Proof/Machine/State/Osc.lean ====
section
/-!
DEFINITION. The mode engine: model, conditioned inputs, mode slots and forced-oscillation slots (chapter 9).
-/
namespace Sys2Proof.Machine

/-- Mode engine parameters (Tables 9-2 and 9-14); reals are binary32 words. -/
structure OscConfig where
  enable     : Bool
  fm         : Nat
  ostream    : Nat
  modeStream : Nat
  foStream   : Nat
  fLo        : W32
  fHi        : W32
  w          : Nat
  rProj      : Nat
  hb         : Nat
  order      : Nat
  modesMax   : Nat
  trackHold  : Nat
  update     : Nat
  gapMax     : Nat
  rejoinN    : Nat
  efMin      : W32
  trackDf    : W32
  trackDz    : W32
  outFrac    : W32
  foSeg      : Nat
  foW        : Nat
  foN        : Nat
  cohMin     : W32
  peakRatio  : W32
  cvMax      : W32
  foBw       : W32
  dampLim    : W32
  dampHyst   : W32
  dampN      : Nat
  insuffN    : Nat
  dampAmpMin : W32
  deriving DecidableEq, Repr

/-- An input entry (Tables 9-3 and 9-11). -/
structure OscInput where
  kind : Nat
  a    : Nat
  b    : Nat
  norm : W32
  lim  : W32
  deriving DecidableEq, Repr

/-- A branch entry (Table 9-11). -/
structure OscBranch where
  v : Nat
  i : Nat
  deriving DecidableEq, Repr

/-- What preparation disabled for a generation (R281, R300): entries, branches and channels, and the whole engine. -/
structure EnginePrep where
  inputsOff   : List Nat := []
  branchesOff : List Nat := []
  chansOff    : List Nat := []
  off         : Bool := false
  deriving DecidableEq, Repr

/-- The mode-engine model of one generation (R280). -/
structure OscModel where
  config   : Option OscConfig := none
  inputs   : NMap OscInput := []
  branches : NMap OscBranch := []
  prep     : EnginePrep := {}
  deriving DecidableEq, Repr

/-- The running state of one input or branch (R264, R265, R272, R273): its last valid signals, the words of its filters, one
list per signal, its conditioned values of the last internal instant (as they are, then as they would be with the signals
absent in that slot, R278), the last FO_SEG conditioned samples of an input, newest first, and its presence counts in slots. -/
structure OscInRun where
  last    : List W64 := []
  filt    : List (List W64) := []
  y       : List W64 := []
  hist    : List W64 := []
  out     : Bool := false
  absentN : Nat := 0
  validN  : Nat := 0
  deriving DecidableEq, Repr

/-- A candidate of an update (R267). -/
structure OscCand where
  f     : W64
  zeta  : W64
  amp   : W64
  e     : W64
  ref   : Nat
  shape : NMap W64
  deriving DecidableEq, Repr

/-- An occupied mode slot (R268). -/
structure OscMode where
  cand  : OscCand
  age   : Nat := 0
  stale : Nat := 0
  fresh : Bool := true
  deriving DecidableEq, Repr

/-- A spectral peak of an evaluation (R271). -/
structure OscPeak where
  bin : Nat
  f   : W64
  eta : W64
  cv  : W64
  deriving DecidableEq, Repr

/-- A peak not yet declared (R271): its consecutive evaluations, and those in which an input was at its limit (Table 9-8). -/
structure OscPend where
  peak : OscPeak
  n    : Nat
  amp  : AlarmCount := {}
  deriving DecidableEq, Repr

/-- A declared forced oscillation (R271 to R274): its peak, when it was declared, the evaluations in which it was missing,
its source branch and share, the tone amplitude of each input and the slope of each branch. -/
structure OscFo where
  peak    : OscPeak
  sec     : W48
  tick    : Nat
  missing : Nat := 0
  source  : Option Nat := none
  share   : W64 := 0
  amps    : NMap W64 := []
  slopes  : NMap W64 := []
  deriving DecidableEq, Repr

/-- State of the OSC block. -/
structure Osc where
  force     : Option OscModel := none -- configuration in force; 09 R280; reset none
  forceGen  : W16 := 0              -- 16 bits, generation of the configuration in force; 09 R280; reset 0
  seenGen   : W16 := 0              -- 16 bits, newest generation of a commit notice taken; 09 R280; reset 0
  notices   : List Record := []     -- commit notices not yet started; 06 R175; reset empty
  lost      : List Record := []     -- slots shed before their shared stages, assimilated as absent; 09 R278; reset empty
  inputs    : NMap OscInRun := []   -- running state of 16,384 inputs; 09 R264, R265; reset none
  branches  : NMap OscInRun := []   -- running state of 4,096 branches; 09 R273; reset none
  inputsAbs : NMap OscInRun := []   -- the inputs as they are if the slot in work is shed by unit 1; 09 R278; reset none
  branchesAbs : NMap OscInRun := [] -- the branches as they are if the slot in work is shed by unit 2; 09 R278; reset none
  energy    : NMap (List W64 × W64) := [] -- words of the accumulation of W and its slope, by forced slot × 4,096 + branch; 09 R273; reset none
  tracker   : List W64 := []        -- words of U, z and R_j; 09 R266; reset empty
  recent    : List (List W64) := [] -- conditioned vectors of the last FO_SEG internal instants, newest first; 09 R270; reset empty
  spectra   : List (List W64) := [] -- the K most recent segments, newest first: r components of two words at each bin of the band; 09 R270; reset empty
  samples   : Nat := 0              -- internal samples assimilated since the restart; 09 R279; reset 0
  samples2  : Nat := 0              -- internal samples since unit 2's restart; 09 R279; reset 0
  updated   : Bool := false         -- 1 bit, an update has completed since the restart; 09 R279; reset 0
  segments  : Nat := 0              -- segments completed since the restart; 09 R279; reset 0
  restartDue : Bool := false        -- 1 bit, OSC_RESTART applies at the next notice; 09 R280; reset 0
  update1   : Option Record := none -- the update unit 1 is working on; 09 R269; reset none
  eval2     : Option Record := none -- the evaluation unit 2 is working on; 09 R270; reset none
  update2   : Option Record := none -- the update unit 2 is working on; 09 R269; reset none
  modes     : NMap OscMode := []    -- 32 mode slots; 09 R268; reset free
  peaks     : List OscPend := []    -- peaks not declared; 09 R271; reset none
  fos       : NMap OscFo := []      -- 8 forced-oscillation slots; 09 R271; reset free
  damp      : NMap AlarmCount := [] -- OSC_DAMP counts per mode slot; 09 Table 9-8; reset 0
  foAmp     : NMap AlarmCount := [] -- OSC_FO_AMP counts per forced slot; 09 Table 9-8; reset 0
  insuff    : AlarmCount := {}      -- OSC_INSUFF counts; 09 Table 9-8; reset 0
  stMode    : Nat := 3              -- 4 bits; 09 OSC_STAT.ST_MODE; reset 3
  stFo      : Nat := 3              -- 4 bits; 09 OSC_STAT.ST_FO; reset 3
  warm1     : Bool := false         -- 1 bit, unit 1's first VALID result was logged since its restart; 09 R279; reset 0
  warm2     : Bool := false         -- 1 bit, unit 2's first VALID result was logged since its restart; 09 R279; reset 0
  late1     : Bool := false         -- 1 bit, unit 1 shed an internal instant not yet assimilated; 09 R278; reset 0
  late2     : Bool := false         -- 1 bit, unit 2 shed an internal instant not yet assimilated; 09 R278; reset 0
  shed1     : Bool := false         -- 1 bit, SHED_SINCE of unit 1; 09 R278; reset 0
  shed2     : Bool := false         -- 1 bit, SHED_SINCE of unit 2; 09 R278; reset 0
  change1   : Bool := false         -- 1 bit, CHANGE of unit 1's next record; 09 Table 9-6; reset 0
  change2   : Bool := false         -- 1 bit, CHANGE of unit 2's next record; 09 Table 9-6; reset 0
  flags     : BitVec 7 := 0         -- 7 bits RW1C; 09 OSC_FLAGS; reset 0
  outLog    : W48 × Nat := (0, 0)   -- OSC_INPUT_OUT records in the present second; 09 R265; reset 0
  loads     : List LoadRun := []    -- OSC_LOAD commands in progress; 09 R284; reset empty
  deriving DecidableEq, Repr

end Sys2Proof.Machine
end

