-- ==== Sys2Proof/Machine/State/Isl.lean ====
section
/-!
DEFINITION. The island engine: graph, components, clusters and island slots (chapter 10).
-/
namespace Sys2Proof.Machine

/-- Island engine parameters (Tables 10-2 and 10-15); reals are binary32 words. -/
structure IslConfig where
  enable     : Bool
  islN       : Nat
  ostream    : Nat
  topoStream : Nat
  cohStream  : Nat
  nodes      : Nat
  refNodes   : List Nat
  refIns     : List Nat
  minCoh     : Nat
  coldMax    : Nat
  islDf      : W32
  cohDf      : W32
  cohDa      : W32
  cohT       : W32
  cohTau     : W32
  minMembers : Nat
  deriving DecidableEq, Repr

/-- A graph branch (ISL_LOAD table 0); `status` is the status channel, bit index and open level. -/
structure IslBranch where
  a      : Nat
  b      : Nat
  status : Option (Nat × Nat × Bool)
  closed : Bool
  deriving DecidableEq, Repr

/-- A coherency input (ISL_LOAD table 1). -/
structure IslInput where
  freq   : Nat
  phasor : Option Nat
  node   : Nat
  deriving DecidableEq, Repr

/-- The island-engine model of one generation (R300). -/
structure IslModel where
  config   : Option IslConfig := none
  branches : NMap IslBranch := []
  inputs   : NMap IslInput := []
  prep     : EnginePrep := {}
  deriving DecidableEq, Repr

/-- A component: its ID and its nodes, the lowest of which is its anchor unless it is the main component (R290). -/
structure IslComp where
  id    : Nat
  nodes : List Nat
  deriving DecidableEq, Repr

/-- A coherency input's running state (R292): features (none before the first valid frequency), the unwrapped angle of each slot of
the drift interval, newest first, and presence counts. -/
structure IslInRun where
  slip    : Option W64 := none
  drift   : W64 := 0
  hist    : List (Option W64) := []
  absentN : Nat := 0
  validN  : Nat := 0
  out     : Bool := false
  deriving DecidableEq, Repr

/-- A declared island in its slot (R294). -/
structure Island where
  comp  : Nat
  sec   : W48
  tick  : Nat
  fc    : W64
  diff  : W64
  nodes : Nat
  valid : Nat
  dead  : Nat := 0
  deriving DecidableEq, Repr

/-- State of the ISL block. -/
structure Isl where
  force     : Option IslModel := none -- configuration in force; 10 R300; reset none
  forceGen  : W16 := 0              -- 16 bits, generation of the configuration in force; 10 R300; reset 0
  seenGen   : W16 := 0              -- 16 bits, newest generation of a commit notice taken; 10 R300; reset 0
  notices   : List Record := []     -- commit notices not yet started; 06 R175; reset empty
  lost      : List Record := []     -- slots shed before they started, whose breaker states count; 10 R299; reset empty
  missed4   : Nat := 0              -- slots shed by unit 4, absent for R292; 10 R299; reset 0
  topo      : Option Record := none -- the slot unit 3 is working on; 10 R290; reset none
  coh       : Option Record := none -- the slot unit 4 is working on; 10 R292; reset none
  states    : NMap Bool := []       -- last read state of branches with a status channel, true CLOSED; 10 R289; reset DEFAULT
  readOnce  : List Nat := []        -- branches whose status bit was readable since the restart; 10 R301; reset none
  applied   : NMap Bool := []       -- branch states as applied at the last delivered slot; 10 R290; reset none
  comps     : List IslComp := []    -- components; 10 R290; reset none
  freed     : List Nat := []        -- component IDs freed by a merge in the present slot; 10 R290; reset none
  inputs    : NMap IslInRun := []   -- running state of 65,536 coherency inputs; 10 R292; reset none
  clusters  : NMap (List Nat) := [] -- members by cluster ID at the last delivered slot; 10 R293; reset none
  islands   : NMap Island := []     -- 32 island slots; 10 R294; reset free
  judgeN    : NMap Nat := []        -- consecutive slots of the island condition per component; 10 R294; reset 0
  splitN    : NMap Nat := []        -- consecutive slots of the SPLIT condition per component; 10 R295; reset 0
  incohN    : NMap Nat := []        -- consecutive slots of the INCOHERENT condition per cluster; 10 R295; reset 0
  splitOff  : Nat := 0              -- consecutive slots without SPLIT; 10 R295; reset 0
  incohOff  : Nat := 0              -- consecutive slots without INCOHERENT; 10 R295; reset 0
  ended     : NMap Nat := []        -- island slots whose component is gone, with the cause, until R294 is next evaluated; 10 R294; reset none
  noRef3    : AlarmCount := {}      -- ISL_NO_REF counts of unit 3; 10 Table 10-7; reset 0
  noRef4    : AlarmCount := {}      -- ISL_NO_REF counts of unit 4; 10 Table 10-7; reset 0
  coldSlots : Nat := 0              -- slots of unit 3 since its restart; 10 R301; reset 0
  warm3     : Bool := false         -- 1 bit, unit 3 has left COLD since its restart; 10 R301; reset 0
  cohSlots  : Nat := 0              -- slots of unit 4 since its restart; 10 R301; reset 0
  restartDue : Bool := false        -- 1 bit, ISL_RESTART applies at the next notice; 10 R301; reset 0
  recompute : Bool := true          -- 1 bit, unit 3 recomputes in full at its next delivery; 10 R300, R301; reset 1
  stTopo    : Nat := 3              -- 4 bits; 10 ISL_STAT.ST_TOPO; reset 3
  stCoh     : Nat := 3              -- 4 bits; 10 ISL_STAT.ST_COH; reset 3
  nComps    : Nat := 0              -- 21 bits; 10 ISL_COUNTS; reset 0
  nClusters : Nat := 0              -- 17 bits; 10 ISL_CLUSTERS; reset 0
  shed3     : Bool := false         -- 1 bit, SHED_SINCE of unit 3; 10 R299; reset 0
  shed4     : Bool := false         -- 1 bit, SHED_SINCE of unit 4; 10 R299; reset 0
  flags     : BitVec 6 := 0         -- 6 bits RW1C; 10 ISL_FLAGS; reset 0
  loads     : List LoadRun := []    -- ISL_LOAD commands in progress; 10 Table 10-13; reset empty
  deriving DecidableEq, Repr

end Sys2Proof.Machine
end

