-- ==== Sys2Proof/Machine/State/Gen.lean ====
section
/-!
DEFINITION. What a generation carries (Table 1-4): stream definitions, the directory, memberships, O-streams, output
formats, templates, limit classes, engine models and the plans made for them.
-/
namespace Sys2Proof.Machine

/-- One planned history group (R229): its stream and rate, its channels, and its ring's first block and depth. -/
structure HistGroup where
  stream : Nat
  rate   : Nat
  chans  : List Nat
  base   : Nat
  depth  : Nat
  deriving DecidableEq, Repr

/-- The history plan of a generation (R230): T_h in ms, and its groups in number order. -/
structure HistPlan where
  tH     : Nat
  groups : List HistGroup
  deriving DecidableEq, Repr

/-- One generation. -/
structure Gen where
  streams  : NMap StreamDef := []   -- 262,144 stream definitions; 04 R101; reset none
  keys     : NMap StreamKey := []   -- classification keys; 04 R106; reset none
  dir      : NMap DirEntry := []    -- 33,554,432 directory entries, unlisted UNUSED; 05 R143; reset UNUSED
  scale    : NMap ScaleEntry := []  -- 65,536 scaling entries; 05 R147; reset none
  os       : NMap OstreamDef := []  -- 4,096 O-streams; 06 R167; reset none
  membs    : NMap Memb := []        -- 1,048,576 memberships; 06 R168; reset none
  next     : NMap Nat := []         -- NEXT_V and NEXT of the memberships, unlisted NEXT_V 0: the next one of the same stream; 06 Table 6-2; reset none
  land     : NMap LandPlan := []    -- landing plan per stream; 06 R172; reset none
  landed   : Bool := false          -- 1 bit, ALN_LAND_PLAN made the plan; 06 R172; reset 0
  fmts     : NMap OstreamFmtP := [] -- output formats; 07 R196; reset none
  tpls     : NMap TemplateP := []   -- 16,384 templates; 07 R208; reset none
  images   : NMap Bytes := []       -- CFG and header images by O-stream, kind and shard; 07 R202; reset none
  hist     : Option HistPlan := none -- history plan; 07 R230; reset none
  limits   : NMap LimitClass := []  -- 65,535 limit classes; 10 R302; reset none
  est      : EstModel := {}         -- estimator model; 08 R252; reset disabled
  osc      : OscModel := {}         -- mode-engine model; 09 R280; reset none
  isl      : IslModel := {}         -- island-engine model; 10 R300; reset none
  deriving DecidableEq, Repr

end Sys2Proof.Machine
end

