-- ==== Sys2Proof/Machine/State/Hrd.lean ====
section
/-!
DEFINITION. Paired operation: role, heartbeat, mirroring, forwarded commands and switch-over (chapter 18).
-/
namespace Sys2Proof.Machine

/-- Roles of Table 18-1. -/
inductive Role where
  | unpaired | pairing | active | standby | fenced
  deriving DecidableEq, Repr

/-- State of the Herd lane (HRD_STAT.LANE). -/
inductive Lane where
  | down | training | up
  deriving DecidableEq, Repr

/-- Output levels a heartbeat carries (R480). -/
structure Levels where
  alarms : BitVec 16 := 0
  events : BitVec 8 := 0
  pulses : BitVec 8 := 0
  deriving DecidableEq, Repr

/-- A scheduled switch-over (R490, R491): T, whether AUTO scheduled it, and whether the standby acknowledged it. -/
structure SwitchOver where
  sec   : W48
  tick  : Nat
  auto  : Bool
  acked : Bool := false
  /-- this unit is the standby that will become active. -/
  taker : Bool := false
  deriving DecidableEq, Repr

/-- A command forwarded to the peer and not yet answered (R483). -/
structure Forwarded where
  hdr    : Hdr
  op     : W16
  params : Bytes
  /-- local status and reply where TARGET is 2 and the local unit has completed it. -/
  here   : Option (Status × Bytes)
  /-- the peer's completion comes before the local one (R484). -/
  peerFirst : Bool
  /-- status code, ORDER and reply of the peer where they came before the local unit had completed. -/
  there  : Option (W16 × Bytes) := none
  order  : W32
  /-- operating time in ns at which it was sent. -/
  sentOp : Nat := 0
  deriving DecidableEq, Repr

/-- The record of a commit kept for the cross-check (R487). -/
structure XRecord where
  ostream  : Nat
  sec      : W48
  tick     : Nat
  amend    : Nat
  complete : Bool
  absent   : List Nat
  crc      : W32
  deriving DecidableEq, Repr

/-- State of the HRD block. -/
structure Hrd where
  enabled    : Bool := false        -- 1 bit, pairing enabled; 18 HRD_CONFIG, R476; kept in the configuration store, reset 0
  pairId     : W16 := 0             -- 16 bits; 18 HRD_STAT.PAIR_ID; reset 0
  witnessMask : BitVec 12 := 0      -- 12 bits, at most 4 set; 18 R489; DESIGN CHOICE 0 (log entry 3)
  pairWaitOp : Option Nat := none   -- operating time in ns at which PAIR_WAIT ends, until it has; 18 R478; reset none
  sentAt     : List Nat := []       -- transmit timestamps of the last two heartbeat cells, 2^-16 ns from the PTP epoch, newest first; 18 R480; reset none
  cellRx     : Option CellTime := none -- receive timestamp of the peer's last heartbeat cell; 18 R480; reset none
  pairWait   : Nat := 10            -- 8 bits, s; 18 Table 18-8; reset 10 (default)
  timeOutStandby : Bool := false    -- 1 bit; 18 R477; DESIGN CHOICE 0 (log entry 3)
  auto       : BitVec 4 := 5        -- 4 bits; 18 R492; reset 0101b (default bits 0 and 2)
  asym       : Int := 0             -- signed 48 bits, 2^-16 ns; 18 HRD_CONFIG HERD_ASYM; DESIGN CHOICE 0 (log entry 3)
  role       : Role := .unpaired    -- 4 bits; 18 R476 HRD_STAT.ROLE; reset 0
  lane       : Lane := .down        -- 2 bits; 18 HRD_STAT.LANE; reset 0
  hb         : Bool := false        -- 1 bit; 18 R481 HRD_STAT.HB; reset 0
  isolated   : Bool := false        -- 1 bit; 18 R494 HRD_STAT.ISOLATED; reset 0
  witnessDue : Option Nat := none   -- tick ordinal of the decision of the witness check that runs (HRD_STAT.WITNESS); 18 R494; reset none
  actIn      : Bool := false        -- 1 bit, HERD_ACT_N is low; 18 HRD_STAT.ACT_IN; reset 0
  switch     : Option SwitchOver := none -- SW_PEND and T; 18 R491 HRD_SWITCH; reset none
  flags      : BitVec 8 := 0        -- 8 bits RW1C; 18 HRD_FLAGS; reset 0
  health     : W32 := 0             -- 32 bits; 18 R486 HRD_HEALTH; reset 0
  peerHealth : W32 := 0             -- 32 bits; 18 HRD_PEER_HEALTH; reset 0
  offset     : W32 := 0             -- 32 bits signed; 18 R481 HRD_OFFSET; reset 0
  peerU      : Nat := 0             -- the peer's U in ns; 18 R481; DESIGN CHOICE 0 (log entry 3)
  digest     : W32 := 0             -- 32 bits; 18 R485; reset 0
  peerDigest : W32 := 0             -- 32 bits; 18 R485; reset 0
  mirrorOk   : Bool := false        -- 1 bit, MIRROR_OK as last evaluated; 18 R485; reset 0
  mirrorHeld : Bool := false        -- 1 bit, a TARGET 0 setting command holds MIRROR_OK clear; 18 R485; reset 0
  hbAt       : Option Nat := none   -- ordinal of the newest tick with a heartbeat; 18 R481; reset none
  hbRun      : Nat := 0             -- consecutive ticks with a heartbeat; 18 R478, R495; reset 0
  outage     : Option Nat := none   -- ticks without a heartbeat since HB_LOST, until it is restored; 18 R495, R499; reset none
  sentFit    : List (Nat × Bool) := [] -- FIT in the heartbeat cells sent in the last 10 ticks, by tick ordinal, newest first; 18 R494; reset none
  peerFit    : List (Nat × Bool) := [] -- FIT in the peer cells of the last 10 ticks, by tick ordinal, newest first; 18 R494; reset none
  lostSent   : List Bool := []      -- FIT in the cells sent in the 8 ticks before HB_LOST; 18 R494; reset none
  lostPeer   : List Bool := []      -- FIT in the peer cells received in the 8 ticks before HB_LOST; 18 R494; reset none
  peerRole   : Role := .unpaired    -- 4 bits, role in the peer's last heartbeat; 18 R480; reset 0
  peerEui    : Option W64 := none   -- the peer's EUI-64 as its beacons give it; 18 R489, R494; reset none
  peerPriority : Bool := false      -- 1 bit, the peer's PRIORITY; 18 R478; reset 0
  roleDue    : Option (Role × Nat) := none -- a role that waits for alignment-ready, with its cause code; 18 R478; reset none
  yieldAt    : Option Nat := none   -- tick ordinal at which the peer takes over from this departed active unit; 20 R530; reset none
  fenceDue   : Bool := false        -- 1 bit, the unit enters FENCED at the next tick start; 18 R495; reset 0
  peerHeard  : Bool := false        -- 1 bit, a peer heartbeat was heard since PAIRING was entered; 18 R478; reset 0
  peerSeen   : Bool := false        -- 1 bit, the witness check has seen the peer; 18 R494; reset 0
  peerSeenOn : Nat := 0             -- witness port on which it was seen, 0xF for HERD_ACT_N; 18 R499; reset 0
  beaconAt   : NMap (BitVec 40) := [] -- per witness port, OPT of the peer's last beacon; 18 Table 18-3 WITNESS_OK; reset none
  cellBadAt  : Option (BitVec 40) := none -- OPT of the last missing or failing cell (LINK_DEGRADED for 1 s); 18 Table 18-3; reset none
  xchkAt     : Option (BitVec 40) := none -- OPT of the last mismatch (XCHK_FAIL for 10 s); 18 Table 18-3; reset none
  timeBadAt  : Option (BitVec 40) := none -- OPT since TIME_OK has been 0; 18 R492; reset none
  memFail    : Bool := false        -- 1 bit, an uncorrectable error since reset; 18 Table 18-3 MEM_FAIL; reset 0
  departed   : Bool := false        -- 1 bit, GOING_DOWN announced; 18 R482; reset 0
  departCause : BitVec 3 := 0       -- 3 bits, CAUSE of the health word; 18 Table 18-3; reset 0
  peerLevels : Levels := {}         -- 32 bits, levels of the last heartbeat received; 18 R480; reset 0
  frozen     : Option Levels := none -- the levels frozen at T - 1; 18 R490; reset none
  driveMirror : Option (Levels × Nat) := none -- levels the new active drives, and the ordinal of the tick that ends with; 18 R490; reset none
  timeOutsDue : Bool := false       -- 1 bit, the time outputs change hands at the next second start; 18 R490; reset 0
  timeOutsOurs : Bool := false      -- 1 bit, this unit drives the time outputs; 18 R477, R490; reset 0
  takeAt     : Option (W48 × Nat) := none -- tick at which a takeover after GOING_DOWN falls; 18 R493; reset none
  mirror     : NMap (W32 × W32) := [] -- per template, the peer's stNum and sqNum; 18 R480; reset none
  forwarded  : List Forwarded := [] -- commands forwarded and not answered; 18 R483; reset empty
  arrived    : List (Nat × Bytes) := [] -- packets of the peer that wait on the internal channels 25 to 28, oldest first: channel and 64 bytes; 18 R483; reset empty
  peerStatus : NMap (W16 × W32) := [] -- per channel, the peer's status and ORDER of the last forwarded command; 18 R483; reset none
  xrecords   : List XRecord := []   -- the unit's own recent commits for the cross-check; 18 R487; reset empty
  deriving DecidableEq, Repr

end Sys2Proof.Machine
end

