-- ==== Sys2Proof/Machine/State/Key.lean ====
section
/-!
DEFINITION. The key vault, the life cycle and tamper (chapter 15).
-/
namespace Sys2Proof.Machine

/-- Slot states (R404). -/
inductive SlotState4 where
  | empty | valid | orphaned | failed
  deriving DecidableEq, Repr

/-- A slot record (R404). -/
structure KeySlot where
  state  : SlotState4
  attr   : Nat
  parent : W16
  origin : Nat
  label  : Bytes
  wrap   : W64
  /-- the key itself, which nothing outside the vault reads. -/
  key    : Bytes
  /-- of the Acorn and the Hazels: the random share; the other is its exclusive-or with the key (R408). -/
  share  : Bytes := []
  deriving DecidableEq, Repr

/-- Vault states (KEY_STAT.VAULT). -/
inductive Vault where
  | empty | restoring | ready | zeroized
  deriving DecidableEq, Repr

/-- Life-cycle states of Table 15-8. -/
inductive LifeCycle where
  | blank | provisioned | field | decommissioned
  deriving DecidableEq, Repr

/-- An accepted update message before its commit (R415). -/
structure KeyUpdate where
  chan  : Nat
  seq   : W32
  msg   : Bytes
  /-- the key it installs, where it carries one. -/
  key   : Option Bytes
  deriving DecidableEq, Repr

/-- State of the KEY block. -/
structure Key where
  slots    : NMap KeySlot := []   -- the tree in the vault, by slot reference; 15 R404; reset zeroized
  stored   : NMap KeySlot := []   -- the key-tree area of MRAM; 15 R407; kept by reset, factory content empty (DESIGN CHOICE, log entry 3)
  storedKs : Option W64 := none   -- which KS wraps the stored tree; 15 R407; kept by reset, DESIGN CHOICE none (log entry 3)
  storedKe : Bytes := []          -- KE in the key-tree area; 15 R407, R412; kept by reset, none
  ks       : Option W64 := some 0 -- storage key register of the always-on domain, by an identity of its value, none where cleared; 15 R407; kept by reset, DESIGN CHOICE valid (log entry 3)
  ksNext   : W64 := 1             -- identity of the next generated KS; 15 R427; the model's own, DESIGN CHOICE 1 (log entry 3)
  ke       : Bytes := []          -- private key-establishment key in the vault; 15 R412; reset zeroized
  identity : Bool := false        -- 1 bit, the derived identity private key is present; 15 R418; reset 0
  vault    : Vault := .empty      -- 2 bits; 15 KEY_STAT.VAULT; reset 0
  lc       : LifeCycle := .blank  -- 2 bits, life-cycle record of MRAM; 15 R425; kept by reset, DESIGN CHOICE BLANK (log entry 3)
  lcRead   : Bool := false        -- 1 bit, start-up has read the record; 15 KEY_STAT.LC; reset 0
  changing : Option LifeCycle := none -- CHANGING mark; 15 R427; kept by reset, none
  owner    : Bytes := []          -- owner public key; 15 R425; kept by reset, none in BLANK
  newOwner : Bytes := []          -- owner key of a change in progress; 15 R427; none
  ownerCtr : W64 := 0             -- 64 bits; 15 R412; kept by reset, 0 at manufacture
  update   : Option KeyUpdate := none -- a KEY_UPDATE in progress; 15 R415; reset none
  debug    : Bool := false        -- 1 bit; 15 KEY_STAT.DEBUG R429; reset 0
  drbgDead : Bool := false        -- 1 bit, the DRBG has stopped; 15 R409; reset 0
  drbgReqs : Nat := 0             -- requests since the last reseed; 15 R409; reset 0
  flags    : BitVec 6 := 0        -- 6 bits RW1C; 15 KEY_FLAGS; reset 0
  rejects  : W48 × Nat := (0, 0)  -- KEY_UPDATE_REJECTED records in the present second; 15 R431; reset 0
  deriving DecidableEq, Repr

/-- State of the TMP block (always-on domain). -/
structure Tmp where
  enabled  : Byte := 0            -- 8 bits, sources enabled; 15 TMP_STAT.ENABLED; kept by reset, register reset 0
  filters  : List (BitVec 2) := [0, 0, 0, 0] -- 2 bits per loop; 15 R420; kept by reset, DESIGN CHOICE 0 (log entry 3)
  open_    : BitVec 4 := 0        -- 4 bits; 15 TMP_STAT.LOOP_OPEN; reset 0
  active   : Byte := 0            -- 8 bits, sources active since the last reset began; 15 R421; input, 0
  latch    : Byte := 0            -- 8 bits; 15 TMP_STAT.LATCH; kept by reset, register reset 0
  context  : Nat := 0             -- 2 bits, latched context; 15 Table 15-7; kept by reset, DESIGN CHOICE 0 (log entry 3)
  pending  : Option (Byte × W32) := none -- a tamper with main power off, to be logged at the next start-up; 15 Table 15-7; none
  count    : W16 := 0             -- 16 bits saturating; 15 TMP_COUNT; kept by reset, 0
  last     : W32 := 0             -- 32 bits; 15 TMP_LAST; kept by reset, 0
  presPin  : Bool := false        -- 1 bit; 15 TMP_STAT.PRES_PIN; input, 0
  presence : Bool := false        -- 1 bit; 15 TMP_STAT.PRESENCE R428; reset 0
  aonSec   : W32 := 0             -- 32 bits, AON second count; 15 TMP_LAST; kept by reset, first value 0
  aonSub   : Nat := 0             -- ns of the AON second; 15 TMP_LAST; the model's own, DESIGN CHOICE 0 (log entry 3)
  deriving DecidableEq, Repr

end Sys2Proof.Machine
end

