-- ==== Sys2Proof/Machine/State/Lch.lean ====
section
/-!
DEFINITION. The launch table and the EVENT pins (chapter 11).
-/
namespace Sys2Proof.Machine

/-- Status codes of Table 11-3. -/
inductive LchStatus where
  | none | pending | armed | done | delayed | lateDone | missed | notSync | failed | cancelled | suppressed
  deriving DecidableEq, Repr

/-- A launch entry (Table 11-1) with its next instant and its status (Table 11-3). -/
structure LchEntry where
  sec     : W48
  tick    : Nat
  offset  : Nat
  action  : Nat
  syncReq : Bool
  lateRun : Bool
  report  : Bool
  count   : Nat
  period  : Nat
  params  : Bytes
  status  : LchStatus := .pending
  cause   : Nat := 0
  runs    : Nat := 0
  last    : W48 × W32 := (0, 0)
  /-- cancelled while ARMED: the armed occurrence runs and no later one (R329). -/
  ending  : Bool := false
  /-- its last occurrence has executed and the frame is held: no instant is due, the status is still open (R325). -/
  held    : Bool := false
  deriving DecidableEq, Repr

/-- A completion (R332). -/
structure LchDone where
  entry  : Nat
  cause  : Nat
  status : LchStatus
  sec    : W48
  ns     : W32
  deriving DecidableEq, Repr

/-- A launched frame that a PAUSE or an earlier launch holds (R325). -/
structure LchHeld where
  entry  : Nat
  port   : Nat
  frame  : Bytes
  late   : Bool
  report : Bool
  /-- the entry has not been written anew since. -/
  own    : Bool := true
  deriving DecidableEq, Repr

/-- Modes of an EVENT pin (R333). -/
inductive EventMode where
  | off | output | input
  deriving DecidableEq, Repr

/-- An edge timestamp of an EVENT input (R333). -/
structure EventEdge where
  rise : Bool
  ts   : Stamp
  deriving DecidableEq, Repr

/-- One EVENT pin (R323, R333). -/
structure EventPin where
  mode      : EventMode := .off
  openDrain : Bool := false
  high      : Bool := true
  edges     : BitVec 2 := 0
  /-- the level an output drives, or the level at the ball of an input. -/
  level     : Bool := false
  /-- the instant in ns at which a running pulse ends. -/
  pulseEnd  : Option Nat := none
  /-- the instant of the last action on the pin. -/
  acted     : Option Nat := none
  queue     : List EventEdge := []
  deriving DecidableEq, Repr

/-- State of the LCH block. -/
structure Lch where
  entries  : NMap LchEntry := []   -- 16,384 entries; 11 R320; reset empty
  buffers  : NMap Bytes := []      -- 1,024 frame buffers of 2,048 bytes; 11 R326; reset empty
  done     : List LchDone := []    -- up to 256 completions, oldest first; 11 R332; reset empty
  delayed  : List LchHeld := []    -- launched frames held, oldest first; 11 R325; reset empty
  pins     : NMap EventPin := []   -- EVENT_0 to EVENT_7; 11 R333; reset off
  acts     : NMap Nat := []        -- the instant of the last launch action on each alarm pin (coincidences); 11 R322; reset none
  wire     : NMap Nat := []        -- per port, the operating time in ns at which a launched frame ends with its gap; 11 R325; reset none
  flags    : BitVec 8 := 0         -- 8 bits RW1C; 11 LCH_FLAGS; reset 0
  frozen   : Bool := false         -- 1 bit, output pins hold during a switch-over gap; 18 R490; reset 0
  deriving DecidableEq, Repr

end Sys2Proof.Machine
end

