-- ==== Sys2Proof/Machine/State/Lmf.lean ====
section
/-!
DEFINITION. The local measurement front end and the auxiliary converters (chapter 13).
-/
namespace Sys2Proof.Machine

/-- One modulator channel (R360 to R368). -/
structure LmfChan where
  enabled  : Bool := false
  median   : Bool := false
  pd       : Int := 0
  fs       : W32 := 0
  fault    : Bool := false
  settling : Bool := false
  faultAt  : Option Stamp := none
  /-- the operating time, ns, at which SETTLING ends (R367). -/
  settleOp : Nat := 0
  deriving DecidableEq, Repr

/-- The local PMU of one circuit (R369). -/
structure LmfPmu where
  enabled : Bool := false
  rate    : Nat := 0
  mClass  : Bool := false
  f60     : Bool := false
  stream  : Nat := 0
  deriving DecidableEq, Repr

/-- A local PMU's settings for its report instants from one tick up to another (R369); `next` is the least ordinal tick that its next report
may have. -/
structure PmuRun where
  set  : LmfPmu
  next : Nat
  stop : Option Nat := none
  deriving DecidableEq, Repr

/-- One sample instant of a circuit as its PMU keeps it (R370, R371): ordinal from the epoch, six values, and which of the six channels
gave none (FAULT, SETTLING or disabled) or were OVER. -/
structure LmfPoint where
  ord  : Nat
  vals : List (BitVec 32)
  fs   : List W32
  bad  : List Bool
  ovr  : List Bool
  /-- CLK_QUAL's word at the sample (R58). -/
  qual : W32 := 0
  deriving DecidableEq, Repr

/-- State of the LMF block. -/
structure Lmf where
  d        : Nat := 0            -- 8 bits; 13 LMF_STAT.D R358; reset 0
  clkOn    : Byte := 0           -- 8 bits; 13 LMF_STAT.CLK_ON; reset 0
  edges    : Byte := 0           -- 8 bits; 13 R359; DESIGN CHOICE 0 (log entry 3)
  r        : NMap Nat := []      -- decimation ratio per circuit, unlisted not set; 13 R360; reset not set
  chans    : NMap LmfChan := []  -- 48 channels; 13 R360; reset disabled, FS_PRIMARY 0 (DESIGN CHOICE, log entry 3)
  pmus     : NMap LmfPmu := []   -- 8 local PMUs; 13 R369; reset disabled
  changed  : NMap (BitVec 40) := [] -- OPT of the last LMF_PMU or LMF_CHAN command per circuit; 13 R371; reset none
  windows  : NMap (List LmfPoint) := [] -- per circuit, the samples its PMU may still need, newest first; 13 R370; reset none
  pmuRuns  : NMap (List PmuRun) := [] -- per circuit, the settings its reports to come fall under, oldest first; 13 R369; reset none
  sample   : Option Nat := none  -- ordinal of the last sample instant, from the epoch; 13 R5, R363; reset none
  flags    : BitVec 4 := 0       -- 4 bits RW1C; 13 LMF_FLAGS; reset 0
  deriving DecidableEq, Repr

/-- A sequence entry of a converter lane (R374). -/
structure AuxEntry where
  input  : Nat
  gain   : Nat
  buffer : Nat
  deriving DecidableEq, Repr

/-- What a converter lane is doing (R375, R376). -/
inductive AuxWork where
  | regular (i : Nat) | injected (i : Nat) | calibrating
  deriving DecidableEq, Repr

/-- One logical lane (R373 to R376). -/
structure AuxLane where
  run      : Bool := false
  odr      : Nat := 10
  entries  : List AuxEntry := []
  injected : List AuxEntry := []
  trigger  : Nat := 0
  work     : AuxWork := .regular 0
  /-- the regular entry that resumes. -/
  next     : Nat := 0
  /-- pending injected group (false) and calibration (true), in order of arrival. -/
  pend     : List Bool := []
  /-- a takeover waits for the entry boundary. -/
  takeover : Bool := false
  /-- the next result is the first of a new slice. -/
  swap     : Bool := false
  /-- the operating time, ns, at which the conversion or calibration in progress ends (R373, R376). -/
  doneOp   : Nat := 0
  /-- the operating time, ns, of the last regular result. -/
  gaveOp   : Option Nat := none
  deriving DecidableEq, Repr

/-- One result buffer (R377, R378). -/
structure AuxBuf where
  first     : Nat := 0
  len       : Nat := 0
  watermark : Nat := 0
  wr        : Nat := 0
  rd        : Nat := 0
  deriving DecidableEq, Repr

/-- State of the AUX block. -/
structure Aux where
  lanes    : NMap AuxLane := []  -- 8 lanes; 13 R373; reset stopped, no sequence, ODR 10 (DESIGN CHOICE, log entry 3)
  map      : List Nat := [0, 1, 2, 3, 4, 5, 6, 7] -- 8 slices of 4 bits; 13 AUX_MAP; reset slice L serves lane L
  spare    : Nat := 8            -- 4 bits; 13 AUX_STAT.SPARE; reset 8
  spareOk  : Bool := false       -- 1 bit, the spare's background calibration has completed; 13 R376; reset 0
  calPeriod : Nat := 60          -- s; 13 R376; reset 60 (default)
  rotateOp : Nat := 60000000000  -- operating time of the next takeover, ns; 13 R376; reset one CAL_PERIOD after power-on
  nextLane : Nat := 0            -- lane of the next takeover; 13 R376; DESIGN CHOICE 0 (log entry 3)
  coefs    : NMap (List W32) := [] -- offset and gain coefficients per slice; 13 R376; reset none
  bufs     : NMap AuxBuf := []   -- 16 buffers; 13 R377; reset length 0, WR 0, RD 0
  store    : NMap W64 := []      -- 8,192 results of 8 bytes by word; 13 R377; reads 0 where not written (DESIGN CHOICE, log entry 4)
  running  : Byte := 0           -- 8 bits, lanes that were running at entry into DORMANT; 13 R379; reset 0
  flags    : BitVec 5 := 0       -- 5 bits RW1C; 13 AUX_FLAGS; reset 0
  deriving DecidableEq, Repr

end Sys2Proof.Machine
end

