-- ==== Sys2Proof/Machine/State/Log.lean ====
section
/-!
DEFINITION. The event log's state: records, the SRAM buffer, the MRAM area and the LOG registers (chapter 17).
-/
namespace Sys2Proof.Machine

/-- Record severities of Table 17-1. -/
inductive Sev where
  | trace | info | notice | warning | error | critical
  deriving DecidableEq, Repr

/-- One event-log record, Table 17-1. The CRC field is computed when the record is laid out (R463); a stored record
whose stored CRC no longer matches is marked by `crcOk` false. -/
structure LogRec where
  code      : W16
  sev       : Sev
  timeValid : Bool
  pfw       : Bool
  summary   : Bool
  source    : Byte
  pcc       : BitVec 24
  opt       : BitVec 40
  seq       : BitVec 24
  p1        : W32
  p2        : W32
  p3        : W32
  crcOk     : Bool
  deriving DecidableEq, Repr

/-- State of the LOG block. -/
structure Log where
  hostMin    : Nat := 0            -- 3 bits; 17_event_log R467; reset 0 (default of R467)
  mramMin    : Nat := 1            -- 2 bits; 17_event_log R467; reset 1 (default of R467)
  buffer     : List LogRec := []   -- up to 4,096 records of 32 B, oldest first; 17_event_log R467; reset empty
  mram       : List LogRec := []   -- up to 131,072 records of 32 B in storing order; 17_event_log R463, R469; kept by reset, factory content empty (DESIGN CHOICE, log entry 3)
  endMark    : Option (BitVec 24) := none -- the END mark with the last SEQ written; 17_event_log R470; kept by reset, factory content absent (DESIGN CHOICE, log entry 3)
  flushFault : Bool := false       -- 1 bit, a record of severity ERROR or CRITICAL waits for its flush; 17_event_log R468; reset 0
  flushHalf  : Bool := false       -- 1 bit, a buffer of 2,048 records waits for its flush; 17_event_log R468; reset 0
  flags      : BitVec 5 := 0       -- 5 bits RW1C; 17_event_log LOG_FLAGS; reset 0
  seq        : BitVec 24 := 0      -- 24 bits, SEQ of the next record; 17_event_log R465 LOG_SEQ; reset 0
  pcc        : BitVec 24 := 0      -- 24 bits, always-on domain; 17_event_log R464 LOG_PCC; kept by reset, first value 0 (register reset 0)
  opt        : BitVec 40 := 0      -- 40 bits, ms, always-on domain; 17_event_log R464 LOG_OPT; kept by reset, first value 0 (register reset 0)
  optSub     : Nat := 0            -- sub-millisecond part of OPT in ns; 17_event_log R464; DESIGN CHOICE 0 (log entry 3)
  pccCopy    : BitVec 24 := 0      -- 24 bits, MRAM copy; 17_event_log R464; kept by reset, DESIGN CHOICE 0 (log entry 3)
  optCopy    : BitVec 40 := 0      -- 40 bits, MRAM copy; 17_event_log R464; kept by reset, DESIGN CHOICE 0 (log entry 3)
  dropsSince : Nat := 0            -- records not stored since the last LOG_DROPPED; 17_event_log R469; reset 0
  dropLowest : Option Sev := none  -- lowest severity dropped since the last LOG_DROPPED; 17_event_log R474 Table 17-5; reset none
  droppedAt  : Option (BitVec 40) := none -- OPT of the last LOG_DROPPED; 17_event_log R469; reset none
  anchorAt   : Option (BitVec 40) := none -- OPT of the last LOG_TIME_ANCHOR of this run; 17_event_log R466; reset none
  anchorDue  : Bool := false       -- 1 bit, a TIME_SET asks for an anchor at the next second start; 17_event_log R466; reset 0
  deriving DecidableEq, Repr

end Sys2Proof.Machine
end

