-- ==== Sys2Proof/Machine/State/Tod.lean ====
section
/-!
DEFINITION. The timebase: counter, steering, references, quality, PTP and time outputs (chapter 2).
-/
namespace Sys2Proof.Machine

/-- Time states of Table 2-2. -/
inductive TimeState where
  | unset | freerun | acquiring | locked | holdover
  deriving DecidableEq, Repr

/-- A phase adjustment in progress (R47): S in 2^-16 ns, N cycles, and the cycles done. -/
structure Adjust where
  s    : Int
  n    : Nat
  done : Nat
  deriving DecidableEq, Repr

/-- Quality parameters of Table 2-4. -/
structure QualParams where
  uLock    : Nat := 40
  fRef10   : Nat := 200
  aRef10   : Nat := 1000
  fRef100  : Nat := 5000000
  aRef100  : Nat := 100000
  holdSpec : Nat := 1000
  degraded : Nat := 52
  deriving DecidableEq, Repr

/-- A TIME_SET waiting for a PPS_IN_0 edge (R551). -/
structure Deferred where
  sec : W48
  ns  : W32
  uH  : W32
  deriving DecidableEq, Repr

/-- One leap-second table entry (R67): effective second T and the TAI - UTC offset from T. -/
structure LeapEntry where
  t   : W48
  off : Nat
  deriving DecidableEq, Repr

/-- The captured time of the last edge of one PPS input (TOD_SNAP). -/
structure Snap where
  frac    : W16 := 0
  ns      : W32 := 0
  sec     : W48 := 0
  edges   : Byte := 0
  untaken : Bool := false
  valid   : Bool := false
  deriving DecidableEq, Repr

/-- A transmit-timestamp entry (Table 2-9). -/
structure TxStamp where
  seqId  : W16
  mtype  : BitVec 4
  domain : Byte
  sec    : W48
  ns     : W32
  frac   : W16
  deriving DecidableEq, Repr

/-- One transmit-timestamp queue (R61, R62). -/
structure TxQueue where
  entries : List TxStamp := []
  ovf     : Bool := false
  drops   : W16 := 0
  deriving DecidableEq, Repr

/-- PTP port states the device uses (R59). -/
inductive PtpState where
  | disabled | master | passive | slave
  deriving DecidableEq, Repr

/-- The grandmaster dataset a PTP Announce carries, in the order it is compared. -/
structure GmData where
  priority1 : Byte
  clockClass : Byte
  accuracy  : Byte
  variance  : W16
  priority2 : Byte
  identity  : W64
  steps     : W16
  utcOffset : Nat
  tti       : Option Nat
  timeSource : Byte
  deriving DecidableEq, Repr

/-- The PTP instance of one port (Table 2-8) and its running state. -/
structure PtpPort where
  enable    : Bool := false
  profile   : Byte := 0
  domain    : Byte := 0
  priority1 : Byte := 128
  priority2 : Byte := 128
  slaveOnly : Bool := false
  localPeer : Bool := false
  vid       : W16 := 0
  pcp       : Byte := 4
  gmId      : Byte := 3
  variance  : W16 := 0xFFFF
  state     : PtpState := .disabled
  parent    : Option GmData := none
  txSeq     : W16 := 0
  /-- intervals since the last Announce of the parent (announceReceiptTimeout). -/
  quiet     : Nat := 0
  /-- requests answered whose Follow_Up is to come: sequenceId, clock identity and port of the requester. -/
  asked     : List (W16 × W64 × W16) := []
  meanDelay : Int := 0
  deriving DecidableEq, Repr

/-- Configuration of one PPS output (R63). -/
structure PpsOut where
  en     : Bool := false
  offset : Int := 0
  width  : Nat := 100000
  utc    : Bool := false
  high   : Bool := false
  /-- the instant at which the pulse ends, in ns from the PTP epoch. -/
  fallAt : Nat := 0
  deriving DecidableEq, Repr

/-- State of the TOD block. -/
structure Tod where
  sec        : W48 := 0          -- 48 bits; 02 R42, R44; reset 0
  ns         : W32 := 0          -- 32 bits; 02 R42; reset 0
  frac       : BitVec 40 := 0    -- 16 visible and 24 hidden bits; 02 R42; reset 0
  inc        : W48 := 0x020000000000 -- 48 bits; 02 R43 TOD_INC; reset 0x0200_0000_0000 (R44)
  adj        : Option Adjust := none -- phase adjustment in progress; 02 R47; reset none
  state      : TimeState := .unset -- 3 bits; 02 Table 2-2 TOD_STAT.STATE; reset UNSET
  lockedEver : Bool := false     -- 1 bit, LOCKED reached since reset; 02 Table 2-2; reset 0
  acqHold    : Bool := false     -- 1 bit, ACQUIRING was entered from HOLDOVER; 02 Table 2-6; reset 0
  ref        : BitVec 3 := 0     -- 3 bits; 02 TOD_STAT.REF; reset 0
  refList    : List Nat := []    -- up to 4 reference codes in rank order; 02 R52; reset empty
  polarity   : BitVec 2 := 0     -- 2 bits; 02 R50; reset 0 (rising)
  serInBaud  : Nat := 1          -- 3 bits code; 02 R51; reset 1 (9,600)
  serOutBaud : Nat := 1          -- 3 bits code; 02 R51; reset 1 (9,600)
  inLock     : Nat := 0          -- consecutive reference events within U_LOCK, to 60; 02 Table 2-2; reset 0
  present    : NMap (BitVec 40) := [] -- per reference code, OPT since which it has been present; 02 R52; reset none
  lastOffset : Int := 0          -- signed ns, the last measured offset; 02 R54; DESIGN CHOICE 0 (log entry 3)
  offsets    : NMap Int := []    -- signed ns, the last measured offset of each reference code, reference minus counter; 02 R52; reset none
  lastEvent  : W48 × W32 := (0, 0) -- instant of the last good reference event; 02 Table 2-2; DESIGN CHOICE 0 (log entry 3)
  baseAt     : W48 × W32 := (0, 0) -- instant from which t of the schedule counts; 02 R54; DESIGN CHOICE 0 (log entry 3)
  uH         : Nat := 0          -- ns, U_h of the schedule; 02 R54; DESIGN CHOICE 0 (log entry 3)
  u          : Option Nat := none -- ns, U at the last second start (none in UNSET); 02 R54; reset none
  timeSrc    : Byte := 0         -- 8 bits, PTP timeSource at the last second start; 02 R56; DESIGN CHOICE 0 (log entry 3)
  rebase     : Bool := false     -- 1 bit, the schedule re-bases at the next second start; 02 R57; reset 0
  oscUsed    : Bool := false     -- 1 bit, the oscillator whose parameters the schedule uses; 02 R57; reset 0
  holdFlagged : Bool := false    -- 1 bit, HOLD_SPEC was exceeded in this holdover; 02 R57; reset 0
  qualU      : W32 := 0xFFFFFFFF -- 32 bits; 02 TOD_QUAL_U; reset 0xFFFF_FFFF
  qualCode   : W32 := 0xFEF803FF -- 32 bits; 02 TOD_QUAL_CODE; reset 0xFEF8_03FF
  hoSec      : W32 := 0          -- 32 bits; 02 TOD_HO_SEC; reset 0
  flags      : BitVec 9 := 0     -- 9 bits RW1C; 02 TOD_FLAGS; reset 0
  osc        : Bool := false     -- 1 bit; 02 TOD_STAT.OSC; reset 0
  slavePort  : BitVec 4 := 15    -- 4 bits; 02 TOD_STAT.SLAVE_PORT; reset 0xF
  params     : QualParams := {}  -- quality parameters; 02 R55; reset the defaults of Table 2-4
  newParams  : Option QualParams := none -- parameters that apply at the next second start; 02 R57; reset none
  deferred   : Option Deferred := none -- a deferred TIME_SET; 02 R551; reset none
  leap       : Option (List LeapEntry) := none -- leap-second table set by TIME_LEAP_SET (none: the image's default); 02 R67; reset none
  leapNew    : Option (List LeapEntry) := none -- a table that applies at the next second start; 02 R67; reset none
  leapSeen   : Option W48 := none -- T of the entry last applied; 02 R67; reset none
  snap0      : Snap := {}        -- TOD_SNAP registers of PPS_IN_0; 02 R50; reset 0
  snap1      : Snap := {}        -- TOD_SNAP registers of PPS_IN_1; 02 R50; reset 0
  txq        : NMap TxQueue := [] -- 12 queues of 16 entries; 02 R61; reset empty
  ptp        : NMap PtpPort := [] -- PTP instance per port index 0 to 11; 02 R59; reset disabled
  pps0       : PpsOut := {}      -- PPS_OUT_0; 02 R63; reset disabled, width 100 ms, offset 0
  pps1       : PpsOut := {}      -- PPS_OUT_1; 02 R63; reset disabled, width 100 ms, offset 0
  ref10En    : Bool := false     -- 1 bit, REF10_OUT enabled; 02 R63; DESIGN CHOICE 0 (log entry 3)
  ref10Off   : Int := 0          -- signed ns; 02 R63; reset 0
  irigEn     : Bool := false     -- 1 bit, IRIG_OUT enabled; 02 R63; DESIGN CHOICE 0 (log entry 3)
  irigB005   : Bool := false     -- 1 bit, B005 instead of B004; 02 R65; DESIGN CHOICE 0 (log entry 3)
  irigLocal  : Int := 0          -- half hours, signed; 02 R65; DESIGN CHOICE 0 (log entry 3)
  irigOff    : Int := 0          -- signed ns; 02 R63; reset 0
  serOutEn   : Bool := false     -- 1 bit, TOD_SER_OUT enabled; 02 R66; DESIGN CHOICE 0 (log entry 3)
  driving    : Bool := false     -- 1 bit, the time outputs drive; 02 R63; reset 0 (three-stated)
  secDone    : Option W48 := none -- the TAI second whose second start was last evaluated; 02 R54; reset none
  deriving DecidableEq, Repr

end Sys2Proof.Machine
end

