-- ==== Sys2Proof/Machine/State/Mtr.lean ====
section
/-!
DEFINITION. Tie-line metering: energy registers, intervals, pulses and saves (chapter 14).
-/
namespace Sys2Proof.Machine

/-- Metering parameters of one circuit (Table 14-2). -/
structure MtrConfig where
  enable    : Bool := false
  threeWire : Bool := false
  f60       : Bool := false
  iN        : W32 := 0
  uN        : W32 := 0
  creep     : W32 := 0
  deriving DecidableEq, Repr

/-- The demand scheme of one circuit (R392). -/
structure MtrDemand where
  launchOnly : Bool := false
  len        : Nat := 900
  utcAlign   : Bool := false
  deriving DecidableEq, Repr

/-- The powers of one sample (R384 to R386), binary64 words. -/
structure MtrPowers where
  p  : W64 := 0
  q  : W64 := 0
  p1 : W64 := 0
  q1 : W64 := 0
  s  : W64 := 0
  deriving DecidableEq, Repr

/-- An interval in progress (R394). -/
structure MtrInterval where
  start  : Stamp := {}
  flags  : BitVec 9 := 0
  gaps   : Nat := 0
  noload : Nat := 0
  /-- energies in units of 2^-32 of a register unit. -/
  energy : NMap Nat := []
  deriving DecidableEq, Repr

/-- One sample instant of a circuit as its contributions still need it (R384): ordinal from the epoch, six values, FS_PRIMARY of the six
channels and the parameters that hold for it (R383), whether its contribution has been formed, and whether the counter was set after it. -/
structure MtrSample where
  ord  : Nat
  vals : List (BitVec 32)
  fs   : List W32
  cfg  : MtrConfig
  done : Bool := false
  old  : Bool := false
  deriving DecidableEq, Repr

/-- One circuit's running state: registers in units of 2^-32 of a register unit (R382). -/
structure MtrCircuit where
  config  : MtrConfig := {}
  demand  : MtrDemand := {}
  regs    : NMap Nat := []
  /-- the samples that contributions may still need, newest first. -/
  samples : List MtrSample := []
  latest  : MtrPowers := {}
  ft      : W64 := 0
  noload  : Bool := false
  quad    : Nat := 0
  open_   : Option MtrInterval := none
  closing : List (MtrInterval × Stamp) := []
  /-- the interval in progress ends at the next sample instant, with this flag bit (R383, R393), or 16 for none. -/
  endDue  : Option Nat := none
  /-- the interval in progress was restored from a save (R394). -/
  gapDue  : Bool := false
  deriving DecidableEq, Repr

/-- One pulse output (R395, R396). -/
structure MtrPulse where
  enabled   : Bool := false
  circuit   : Nat := 0
  reg       : Nat := 0
  kp        : Nat := 1
  width     : Nat := 1
  openDrain : Bool := false
  high      : Bool := true
  residue   : Nat := 0
  owed      : Nat := 0
  active    : Bool := false
  /-- the operating times, ns, at which the pulse in progress ends, and at which the output last became inactive. -/
  endOp     : Nat := 0
  idleOp    : Option Nat := none
  deriving DecidableEq, Repr

/-- A save record (R397). -/
structure MtrSave where
  seq      : W32
  cause    : Nat
  ts       : Stamp
  state    : TimeState
  pcc      : BitVec 24
  opt      : BitVec 40
  regs     : NMap (NMap Nat)
  opens    : NMap MtrInterval
  pulses   : NMap (Nat × Nat)
  crcOk    : Bool
  deriving DecidableEq, Repr

/-- A running start-up test (R391): its circuit, the channel of its command, and the operating time, ns, at which it ends. -/
structure MtrTest where
  circuit : Nat
  chan    : Nat
  endOp   : Nat
  deriving DecidableEq, Repr

/-- State of the MTR block. -/
structure Mtr where
  circuits : NMap MtrCircuit := [] -- 8 circuits, 13 registers of 64 bits with a 32-bit fraction each; 14 R382, R383; kept through the save area, 0 without one
  pulses   : NMap MtrPulse := []   -- 8 outputs; 14 R395; reset disabled
  savePeriod : Nat := 60           -- s; 14 R397; reset 60 (default)
  saveOp   : Nat := 60000000000    -- operating time of the next periodic save, ns; 14 R397; reset one SAVE_PERIOD on
  saves    : NMap MtrSave := []    -- 64 positions of 32 KiB of MRAM; 14 R397; kept by reset, factory content empty (DESIGN CHOICE, log entry 3)
  seq      : W32 := 0              -- 32 bits, save sequence; 14 R397; restored, DESIGN CHOICE 0 (log entry 3)
  saving   : Option (Nat × MtrSave) := none -- a save in progress and its position; 14 R397; reset none
  last     : Option (Nat × Nat × W32 × W32) := none -- position, cause, SEQ and second of the last completed save (MTR_SAVE, MTR_SAVE_SEC); 14 R397; reset none (registers 0)
  restored : Option (W32 × W32) := none -- snapshot second and SEQ awaiting METER_GAP; 14 R399; reset none
  test     : Option MtrTest := none -- the running start-up test; 14 R391; reset none
  snap     : NMap W64 := []        -- snapshot of 104 energy registers by 16 × circuit + register; 14 R401; reset 0
  flags    : BitVec 7 := 0         -- 7 bits RW1C; 14 MTR_FLAGS; reset 0
  frozen   : Bool := false         -- 1 bit, outputs hold during a switch-over gap; 14 R396, 18 R490; reset 0
  deriving DecidableEq, Repr

end Sys2Proof.Machine
end

