-- ==== Sys2Proof/Machine/State/Pwr.lean ====
section
/-!
DEFINITION. Power states, straps, reset, the power-fail sequence and the always-on supply (chapter 20).
-/
namespace Sys2Proof.Machine

/-- The device's run state: PWR_STAT.STATE, with the two conditions before reset release. -/
inductive Run where
  | starting | ready | loader | tampered | dormant | entering | waking
  deriving DecidableEq, Repr

/-- Straps of Table 20-2. -/
structure Straps where
  priority : Bool := false
  bootSrc  : BitVec 2 := 0
  lbWidth  : Bool := false
  deriving DecidableEq, Repr

/-- State of the PWR block. -/
structure Pwr where
  held     : Bool := true       -- 1 bit, the device is held in reset; 20 R519, R522; reset 1
  supplies : Bool := false      -- 1 bit, every main supply has been good for 2 ms; 20 R519; reset 0
  run      : Run := .starting   -- 3 bits; 20 PWR_STAT.STATE, 19 GBL_STATE.RUN; reset 0
  cause    : BitVec 3 := 0      -- 3 bits; 20 Table 20-3 PWR_STAT.CAUSE; the cause of the reset, POWER_ON first
  straps   : Straps := {}       -- 4 bits; 20 R521, 19 GBL_STATE; loaded at reset release
  pfw      : Bool := false      -- 1 bit; 20 PWR_STAT.PFW; reset 0
  seqRun   : Bool := false      -- 1 bit; 20 PWR_STAT.SEQ; reset 0
  glitch   : Bool := false      -- 1 bit; 20 PWR_STAT.GLITCH_ARMED R520; reset 0
  readyMs  : W16 := 0           -- 16 bits; 20 PWR_STAT.READY_MS; reset 0
  flags    : BitVec 5 := 0      -- 5 bits RW1C; 20 PWR_FLAGS; reset 0
  flushUs  : W16 := 0           -- 16 bits; 20 PWR_PFW.FLUSH_US; reset 0
  saveUs   : W16 := 0           -- 16 bits; 20 PWR_PFW.SAVE_US; reset 0
  trailerUs : W16 := 0          -- 16 bits; 20 PWR_PFW_1.TRAILER_US; reset 0
  pfwAt    : BitVec 40 := 0     -- 40 bits, OPT at which PFW_N was recognised; 20 R530, R532; DESIGN CHOICE 0 (log entry 3)
  releasedAt : BitVec 40 := 0   -- 40 bits, OPT at reset release; 20 R524; DESIGN CHOICE 0 (log entry 3)
  dormAt   : Option (W48 × Nat) := none -- tick start at which DORMANT is entered; 20 R525; reset none
  exitCause : Option (BitVec 2) := none -- exit cause of DORMANT waiting: 0 command, 1 GOING_DOWN, 2 HB_LOST; 20 R526, R532; reset none
  dormSlots : Nat := 0          -- slots discarded at the last entry; 20 R525; reset 0
  resetDelay : Option Nat := none -- operating time in ns at which a SYS_RESET takes place; 16 Table 16-6; reset none
  aonVdd   : Bool := true       -- 1 bit, the always-on domain runs from VDD_AON (else VBAT); 21 R536; DESIGN CHOICE VDD_AON (log entry 3)
  aonLost  : Bool := false      -- 1 bit, VDD_AON and VBAT have both been lost since the last start-up; 17 R464, 15 R422; DESIGN CHOICE 0 (log entry 3)
  wokeTick : Option (W48 × Nat) := none -- first tick start at which DORMANT exit may reach alignment-ready; 20 R526; reset none
  deriving DecidableEq, Repr

end Sys2Proof.Machine
end

