-- ==== Sys2Proof/Machine/State/Dev.lean ====
section
/-!
DEFINITION. The whole device: one field per block of Table 1-1, the generations, the counters, and what it has sent out.
-/
namespace Sys2Proof.Machine

/-- Everything the spec gives the device, except the queue of commands that wait. -/
structure Dev where
  log    : Log := {}
  cmd    : Cmd := {}
  clk    : Clk := {}
  hrd    : Hrd := {}
  gbl    : Gbl := {}
  pwr    : Pwr := {}
  tod    : Tod := {}
  ports  : NMap Port := []        -- the twelve ports by index of R71, unlisted at reset values; 03 R71; reset each at its fields' reset
  pub    : Pub := {}
  ing    : Ing := {}
  dir    : Dir := {}
  aln    : Aln := {}
  est    : Est := {}
  osc    : Osc := {}
  isl    : Isl := {}
  alm    : Alm := {}
  lch    : Lch := {}
  cap    : Cap := {}
  lmf    : Lmf := {}
  aux    : Aux := {}
  mtr    : Mtr := {}
  key    : Key := {}
  tmp    : Tmp := {}
  cur    : Gen := {}              -- the current generation; 01 R21; reset generation 0x0000, nothing defined
  staged : Gen := {}              -- the staged generation; 01 R20; reset as the current one
  old    : Option Gen := none     -- the old generation until it retires; 01 R24; reset none
  cnt    : NMap W48 := []         -- 48-bit event counters by block code × 65,536 + port × 256 + i, unlisted 0; 00 R12; reset 0
  snap   : NMap W48 := []         -- their snapshots, by the same key, unlisted 0; 00 R12; reset 0
  out    : List Output := []      -- what the device has sent out since reset, newest first: the model's own record of its outputs; reset empty
  draws  : Nat := 0               -- the model's own count of free values drawn; DESIGN CHOICE 0 (log entry 1)
  deriving DecidableEq, Repr

end Sys2Proof.Machine
end

