-- ==== Sys2Proof/Machine/State.lean ====
section
/-!
DEFINITION. The state of the machine: the device and the queue of commands that wait, the fault and refusal names, and the
state right after reset.
-/
namespace Sys2Proof.Machine

/-- Faults. No meaning of this model raises one: every command has an effect, or none, in every state (log entry 2). -/
inductive Fault where
  /-- A command the device could not have met. Raised by no meaning; safe, since a fault ends a run. -/
  | unreachable
  deriving DecidableEq, Repr

/-- Refusals. -/
inductive Refusal where
  /-- The command has no meaning in this model yet. Raised by the dispatch only; safe, since a refusal ends a run. -/
  | notModelled (mnemonic : String)
  deriving DecidableEq, Repr

/-- The machine: the device, and the commands that wait, first in, first out. -/
structure State where
  dev     : Dev
  pending : List Instr
  deriving DecidableEq, Repr

/-- The machine right after reset: held in reset, every register at its reset value, every store wiped (R519, R523), and no
command waiting. -/
def State.reset : State := { dev := {}, pending := [] }

end Sys2Proof.Machine
end

