-- ==== Sys2Proof/Machine/Bits.lean ====
section
/-!
DEFINITION. Bytes, words, sparse tables and check codes: the helpers every block's meanings share.
-/
namespace Sys2Proof.Machine

/-! ### Sparse tables -/

/-- The entry of a sparse table at a key. -/
def mfind {α : Type} : NMap α → Nat → Option α
  | [], _ => none
  | (k, v) :: t, n => if k = n then some v else mfind t n

/-- The entry at a key, or the table's default. -/
def mget {α : Type} (d : α) (m : NMap α) (n : Nat) : α := (mfind m n).getD d

/-- Removes the entry at a key. -/
def mdel {α : Type} : NMap α → Nat → NMap α
  | [], _ => []
  | (k, v) :: t, n => if k = n then mdel t n else (k, v) :: mdel t n

/-- Writes an entry at its place, so that keys stay strictly rising. -/
def mset {α : Type} : NMap α → Nat → α → NMap α
  | [], n, x => [(n, x)]
  | (k, v) :: t, n, x =>
    if n < k then (n, x) :: (k, v) :: t
    else if n = k then (n, x) :: t
    else (k, v) :: mset t n x

/-- Writes an entry; writing the default removes it, so that equal tables are equal data. -/
def mput {α : Type} [DecidableEq α] (d : α) (m : NMap α) (n : Nat) (x : α) : NMap α :=
  if x = d then mdel m n else mset m n x

/-- Changes the entry at a key by a function. -/
def mmod {α : Type} [DecidableEq α] (d : α) (m : NMap α) (n : Nat) (f : α → α) : NMap α := mput d m n (f (mget d m n))

/-- The keys of a table from `lo`, `cnt` of them, removed. -/
def mclear {α : Type} (m : NMap α) (lo cnt : Nat) : NMap α := m.filter fun e => ! (lo ≤ e.1 && e.1 < lo + cnt)

/-- The number of listed keys from `lo` that lie in a range of `cnt`. -/
def mcount {α : Type} (m : NMap α) (lo cnt : Nat) : Nat :=
  (m.filter fun e => lo ≤ e.1 && e.1 < lo + cnt).length

/-- Keys strictly rising. -/
def mrising {α : Type} : NMap α → Bool
  | [] => true
  | [_] => true
  | (a, _) :: (b, w) :: t => a < b && mrising ((b, w) :: t)

/-- The canonical form of a table with a default: keys strictly rising, and no entry at the default. -/
def mwf {α : Type} [DecidableEq α] (d : α) (m : NMap α) : Bool := mrising m && m.all fun e => ! decide (e.2 = d)

/-! ### Lists -/

/-- The element of a list at an index, or a default. -/
def lget {α : Type} (d : α) : List α → Nat → α
  | [], _ => d
  | x :: _, 0 => x
  | _ :: t, n + 1 => lget d t n

/-- A list with one element replaced. -/
def lset {α : Type} : List α → Nat → α → List α
  | [], _, _ => []
  | _ :: t, 0, y => y :: t
  | x :: t, n + 1, y => x :: lset t n y

/-- `a` to `a + n - 1`. -/
def rangeFrom (a n : Nat) : List Nat := (List.range n).map (a + ·)

/-! ### Bytes -/

/-- The `n` bytes of a number, least significant first. -/
def leBytes : Nat → Nat → Bytes
  | 0, _ => []
  | n + 1, v => BitVec.ofNat 8 v :: leBytes n (v / 256)

/-- The number whose bytes are given least significant first. -/
def fromLe : Bytes → Nat
  | [] => 0
  | b :: t => b.toNat + 256 * fromLe t

/-- The `n` bytes of a number, most significant first. -/
def beBytes (n v : Nat) : Bytes := (leBytes n v).reverse

/-- The number whose bytes are given most significant first. -/
def fromBe (b : Bytes) : Nat := fromLe b.reverse

/-- `n` bytes of a string from an offset, padded with 0. -/
def cut (b : Bytes) (off n : Nat) : Bytes := let x := (b.drop off).take n; x ++ List.replicate (n - x.length) 0

/-- The little-endian number in `n` bytes at an offset. -/
def leAt (b : Bytes) (off n : Nat) : Nat := fromLe ((b.drop off).take n)

/-- The big-endian number in `n` bytes at an offset. -/
def beAt (b : Bytes) (off n : Nat) : Nat := fromBe ((b.drop off).take n)

/-- A string padded with 0 to `n` bytes. -/
def padTo (n : Nat) (b : Bytes) : Bytes := b ++ List.replicate (n - b.length) 0

/-- Every byte is 0. -/
def allZero (b : Bytes) : Bool := b.all (· == 0)

/-- A string cut into pieces of `k` bytes, the last padded with 0; `fuel` bounds the pieces. -/
def chunksOf (k : Nat) : Nat → Bytes → List Bytes
  | 0, _ => []
  | _ + 1, [] => []
  | f + 1, b => padTo k (b.take k) :: chunksOf k f (b.drop k)

/-! ### Bits -/

/-- The bits `lo` to `lo + n - 1` of a number. -/
def bits (v lo n : Nat) : Nat := v / 2 ^ lo % 2 ^ n

/-- Bit `i` of a number. -/
def bit (v i : Nat) : Bool := v / 2 ^ i % 2 == 1

/-- 1 or 0. -/
def b2n (b : Bool) : Nat := if b then 1 else 0

/-- A word with bit `i` set. -/
def setBit {w : Nat} (v : BitVec w) (i : Nat) : BitVec w := v ||| BitVec.ofNat w (2 ^ i)

/-- A word with bit `i` cleared. -/
def clrBit {w : Nat} (v : BitVec w) (i : Nat) : BitVec w := v &&& ~~~ (BitVec.ofNat w (2 ^ i))

/-- A word with bit `i` as given. -/
def putBit {w : Nat} (v : BitVec w) (i : Nat) (b : Bool) : BitVec w := if b then setBit v i else clrBit v i

/-- Write of a RW1C field: a 1 clears the bit (R11). -/
def rw1c {w : Nat} (old : BitVec w) (v : Nat) : BitVec w := old &&& ~~~ (BitVec.ofNat w v)

/-- A signed number from `w` bits. -/
def signed (w v : Nat) : Int := if v % 2 ^ w < 2 ^ (w - 1) then (v % 2 ^ w : Nat) else (v % 2 ^ w : Nat) - (2 ^ w : Nat)

/-- A signed number laid into `w` bits. -/
def unsigned (w : Nat) (v : Int) : Nat := (v % (2 ^ w : Nat)).toNat

/-- The quotient rounded up. -/
def ceilDiv (a b : Nat) : Nat := (a + b - 1) / b

/-- The number of set bits among the lowest `n`. -/
def popCount : Nat → Nat → Nat
  | 0, _ => 0
  | n + 1, v => v % 2 + popCount n (v / 2)

/-! ### Check codes -/

/-- One bit of the reflected CRC-32 of IEEE 802.3. -/
def crc32Bit (c : Nat) : Nat := if c % 2 = 1 then (c / 2) ^^^ 0xEDB88320 else c / 2

/-- One byte of the CRC-32. -/
def crc32Byte (c : Nat) (b : Byte) : Nat :=
  crc32Bit (crc32Bit (crc32Bit (crc32Bit (crc32Bit (crc32Bit (crc32Bit (crc32Bit (c ^^^ b.toNat))))))))

/-- The CRC-32 of IEEE 802.3 over a string (R165, R463, Table 3-2 step on the FCS). -/
def crc32 (b : Bytes) : Nat := (b.foldl crc32Byte 0xFFFFFFFF) ^^^ 0xFFFFFFFF

/-- One bit of CRC-CCITT, polynomial 0x1021. -/
def ccittBit (c : Nat) : Nat := if c / 32768 % 2 = 1 then ((c * 2) ^^^ 0x1021) % 65536 else c * 2 % 65536

/-- One byte of CRC-CCITT. -/
def ccittByte (c : Nat) (b : Byte) : Nat :=
  ccittBit (ccittBit (ccittBit (ccittBit (ccittBit (ccittBit (ccittBit (ccittBit (c ^^^ (b.toNat * 256)))))))))

/-- CRC-CCITT of IEEE C37.118.2, initial value 0xFFFF (R118, R200). -/
def ccitt (b : Bytes) : Nat := b.foldl ccittByte 0xFFFF

/-- The ones' complement sum of 16-bit words, big-endian, an odd last byte padded. -/
def onesSum : Bytes → Nat
  | [] => 0
  | [a] => a.toNat * 256
  | a :: b :: t => let s := a.toNat * 256 + b.toNat + onesSum t; s % 65536 + s / 65536

/-- The Internet checksum of a string. -/
def inetSum (b : Bytes) : Nat := 65535 - onesSum b % 65536

end Sys2Proof.Machine
end

