-- ==== Sys2Proof/Machine/Float.lean ====
section
/-!
DEFINITION. Binary32 and binary64 of IEEE 754 on words, by exact rationals rounded to nearest with ties to even.
-/
namespace Sys2Proof.Machine

/-- The binary exponent e for which 2^e ≤ n / d < 2^(e+1), for positive n and d. -/
def ilog (n d : Nat) : Int :=
  let e : Int := (Nat.log2 n : Int) - (Nat.log2 d : Int)
  -- n / d lies between 2^(e-1) and 2^(e+1)
  if e ≥ 0 then (if n < d * 2 ^ e.toNat then e - 1 else e)
  else (if n * 2 ^ (-e).toNat < d then e - 1 else e)

/-- n / d scaled by 2^k, as a fraction. -/
def scaled (n d : Nat) (k : Int) : Nat × Nat := if k ≥ 0 then (n * 2 ^ k.toNat, d) else (n, d * 2 ^ (-k).toNat)

/-- A fraction rounded to nearest, ties to even. -/
def roundEven (n d : Nat) : Nat :=
  let q := n / d
  let r := n % d
  if 2 * r < d then q else if 2 * r > d then q + 1 else if q % 2 = 0 then q else q + 1

/-- The word of a format of `p` significand bits and `w` exponent bits nearest to ± n / d. -/
def packFloat (p w : Nat) (neg : Bool) (n d : Nat) : Nat :=
  let s := b2n neg * 2 ^ (w + p - 1)
  let bias : Int := 2 ^ (w - 1) - 1
  if n = 0 ∨ d = 0 then s else
  let e := max (ilog n d) (1 - bias)
  let f := scaled n d (((p : Int) - 1) - e)
  let m := roundEven f.1 f.2
  -- a significand that rounds up to 2^p carries into the exponent by the addition below
  let biased := (e + bias).toNat
  let word := if m < 2 ^ (p - 1) then m else (biased - 1) * 2 ^ (p - 1) + m
  if word ≥ (2 ^ w - 1) * 2 ^ (p - 1) then s + (2 ^ w - 1) * 2 ^ (p - 1) else s + word

/-- A finite value as sign, numerator and denominator. -/
def unpackFloat (p w : Nat) (v : Nat) : Bool × Nat × Nat :=
  let neg := bit v (w + p - 1)
  let e := bits v (p - 1) w
  let m := bits v 0 (p - 1)
  let bias : Int := 2 ^ (w - 1) - 1
  let sig := if e = 0 then m else m + 2 ^ (p - 1)
  let ex : Int := (if e = 0 then 1 else (e : Int)) - bias - ((p : Int) - 1)
  let f := scaled sig 1 ex
  (neg, f.1, f.2)

/-- The word is finite. -/
def f64Fin (v : W64) : Bool := bits v.toNat 52 11 != 2047
/-- The binary32 word is finite. -/
def f32Fin (v : W32) : Bool := bits v.toNat 23 8 != 255
/-- The word is a NaN. -/
def f64Nan (v : W64) : Bool := bits v.toNat 52 11 == 2047 && bits v.toNat 0 52 != 0

/-- The default NaN. -/
def nan64 : W64 := 0x7FF8000000000000

/-- A finite binary64 word as an exact fraction: signed numerator and positive denominator. -/
def f64Q (v : W64) : Int × Nat :=
  let u := unpackFloat 53 11 v.toNat
  (if u.1 then -(u.2.1 : Int) else u.2.1, u.2.2)

/-- A finite binary32 word as an exact fraction. -/
def f32Q (v : W32) : Int × Nat :=
  let u := unpackFloat 24 8 v.toNat
  (if u.1 then -(u.2.1 : Int) else u.2.1, u.2.2)

/-- The binary64 word nearest to a fraction. -/
def ofQ64 (n : Int) (d : Nat) : W64 := BitVec.ofNat 64 (packFloat 53 11 (decide (n < 0)) n.natAbs d)
/-- The binary32 word nearest to a fraction. -/
def ofQ32 (n : Int) (d : Nat) : W32 := BitVec.ofNat 32 (packFloat 24 8 (decide (n < 0)) n.natAbs d)

/-- A binary64 word whose value is an integer's, rounded. -/
def f64Int (n : Int) : W64 := ofQ64 n 1

/-- Widening of binary32. -/
def f32To64 (v : W32) : W64 :=
  if f32Fin v then
    let q := f32Q v
    if q.1 = 0 then BitVec.ofNat 64 (b2n (bit v.toNat 31) * 2 ^ 63) else ofQ64 q.1 q.2
  else if bits v.toNat 0 23 = 0 then BitVec.ofNat 64 (b2n (bit v.toNat 31) * 2 ^ 63 + 2047 * 2 ^ 52) else nan64

/-- Rounding to binary32. -/
def f64To32 (v : W64) : W32 :=
  if f64Fin v then
    let q := f64Q v
    if q.1 = 0 then BitVec.ofNat 32 (b2n (bit v.toNat 63) * 2 ^ 31) else ofQ32 q.1 q.2
  else if f64Nan v then 0x7FC00000 else BitVec.ofNat 32 (b2n (bit v.toNat 63) * 2 ^ 31 + 255 * 2 ^ 23)

/-- Negation. -/
def f64Neg (v : W64) : W64 := v ^^^ BitVec.ofNat 64 (2 ^ 63)
/-- Absolute value. -/
def f64Abs (v : W64) : W64 := v &&& ~~~ (BitVec.ofNat 64 (2 ^ 63))

/-- Addition of finite words; a sum with a word that is not finite is a NaN. -/
def f64Add (a b : W64) : W64 :=
  if f64Fin a && f64Fin b then let p := f64Q a; let q := f64Q b; ofQ64 (p.1 * q.2 + q.1 * p.2) (p.2 * q.2) else nan64
/-- Subtraction. -/
def f64Sub (a b : W64) : W64 := f64Add a (f64Neg b)
/-- Multiplication. -/
def f64Mul (a b : W64) : W64 :=
  if f64Fin a && f64Fin b then let p := f64Q a; let q := f64Q b; ofQ64 (p.1 * q.1) (p.2 * q.2) else nan64
/-- Division: a non-zero word by 0 and an infinity by a finite word are infinities, 0 by 0 a NaN. -/
def f64Div (a b : W64) : W64 :=
  if f64Fin a && f64Fin b then
    let p := f64Q a
    let q := f64Q b
    if q.1 = 0 then
      (if p.1 = 0 then nan64 else BitVec.ofNat 64 (b2n (bit a.toNat 63 != bit b.toNat 63) * 2 ^ 63 + 2047 * 2 ^ 52))
    else if q.1 > 0 then ofQ64 (p.1 * q.2) (p.2 * q.1.natAbs) else ofQ64 (-(p.1 * q.2)) (p.2 * q.1.natAbs)
  else if !f64Nan a && f64Fin b then a ^^^ (b &&& BitVec.ofNat 64 (2 ^ 63))
  else nan64

/-- The integer square root below 2^k above `a`, by bits. -/
def rootBits : Nat → Nat → Nat → Nat
  | 0, _, a => a
  | k + 1, n, a => rootBits k n (if (a + 2 ^ k) * (a + 2 ^ k) ≤ n then a + 2 ^ k else a)
/-- The square root, correctly rounded; a zero is its own root, and that of a negative word is a NaN. -/
def f64Sqrt (v : W64) : W64 :=
  if bits v.toNat 0 63 = 0 then v
  else if f64Nan v || bit v.toNat 63 then nan64
  else if !f64Fin v then v
  else
    let q := f64Q v
    let n := q.1.natAbs
    let t : Int := 60 - Int.fdiv (ilog n q.2) 2
    let f := scaled n q.2 (2 * t)
    let r := rootBits 64 (f.1 / f.2) 0
    -- a root that is not exact lies strictly between r and r + 1, below the last bit kept
    let m := 2 * r + b2n (decide (r * r * f.2 ≠ f.1))
    if t ≥ 0 then ofQ64 m (2 ^ (t.toNat + 1)) else ofQ64 (m * 2 ^ (-t).toNat : Nat) 2

/-- A word as a fraction, with denominator 0 for an infinity. -/
def f64Ext (v : W64) : Int × Nat := if f64Fin v then f64Q v else (if bit v.toNat 63 then -1 else 1, 0)
/-- a < b, false when either is a NaN. -/
def f64Lt (a b : W64) : Bool :=
  !f64Nan a && !f64Nan b &&
    (if f64Fin a || f64Fin b then decide ((f64Ext a).1 * (f64Ext b).2 < (f64Ext b).1 * (f64Ext a).2)
      else decide ((f64Ext a).1 < (f64Ext b).1))
/-- a ≤ b, false when either is a NaN. -/
def f64Le (a b : W64) : Bool := !f64Nan a && !f64Nan b && !f64Lt b a

/-- Comparison of binary32 words through their values. -/
def f32Lt (a b : W32) : Bool := f64Lt (f32To64 a) (f32To64 b)
/-- See `f32Lt`. -/
def f32Le (a b : W32) : Bool := f64Le (f32To64 a) (f32To64 b)
/-- A finite binary32 word in a closed range of fractions. -/
def f32In (v : W32) (lo : Int × Nat) (hi : Int × Nat) : Bool :=
  f32Fin v && (let q := f32Q v; decide (lo.1 * q.2 ≤ q.1 * lo.2) && decide (q.1 * hi.2 ≤ hi.1 * q.2))

/-- A finite binary32 word between two others. -/
def f32Between (v lo hi : W32) : Bool := f32Fin v && f32Le lo v && f32Le v hi

/-- The largest integer at most a finite value. -/
def f64Floor (a : W64) : Int := let p := f64Q a; Int.fdiv p.1 p.2

/-- The sum of a list. -/
def f64Sum (l : List W64) : W64 := l.foldl f64Add 0

/-- Insertion into a list sorted by value. -/
def f64Insert (x : W64) : List W64 → List W64
  | [] => [x]
  | y :: t => if f64Le x y then x :: y :: t else y :: f64Insert x t

/-- The median: the middle value, or the mean of the two middle ones (R291). -/
def f64Median (l : List W64) : Option W64 :=
  let s := l.foldr f64Insert []
  let n := s.length
  if n = 0 then none
  else if n % 2 = 1 then some (lget 0 s (n / 2))
  else some (f64Mul (f64Add (lget 0 s (n / 2 - 1)) (lget 0 s (n / 2))) 0x3FE0000000000000)

/-- A canonical phasor (Table 4-5) from real and imaginary parts: two binary32 words, real in bits [63:32]. -/
def phasor (re im : W64) : W64 := BitVec.ofNat 64 ((f64To32 re).toNat * 2 ^ 32 + (f64To32 im).toNat)
/-- The real part of a canonical phasor. -/
def phRe (v : W64) : W64 := f32To64 (BitVec.ofNat 32 (v.toNat / 2 ^ 32))
/-- The imaginary part of a canonical phasor. -/
def phIm (v : W64) : W64 := f32To64 (BitVec.ofNat 32 v.toNat)
/-- The magnitude of a canonical phasor. -/
def phMag (v : W64) : W64 := f64Sqrt (f64Add (f64Mul (phRe v) (phRe v)) (f64Mul (phIm v) (phIm v)))

/-- A canonical value with no valid content and a reason (Table 4-5, R114): 0x7FF8_00cc in the upper word, 0 below. -/
def invalidVal (reason : Nat) : W64 := BitVec.ofNat 64 (0x7FF800 * 2 ^ 40 + reason % 256 * 2 ^ 32)
/-- The canonical value is invalid (R111). -/
def isInvalid (v : W64) : Bool := v.toNat / 2 ^ 40 == 0x7FF800
/-- The reason of an invalid canonical value. -/
def reasonOf (v : W64) : Nat := bits v.toNat 32 8

end Sys2Proof.Machine
end

