-- ==== Sys2Proof/Machine/Time.lean ====
section
/-!
DEFINITION. Instants and ticks: the arithmetic of R2, R4 and R42, and moving the device's time forward.
-/
namespace Sys2Proof.Machine

/-- Nanoseconds in one second. -/
def secNs : Nat := 1000000000

/-- The start of tick `k` after the start of its second, in ns (R2). -/
def tickStartNs (k : Nat) : Nat := k * 2500000 / 9

/-- The tick that holds a nanosecond of a second (R2). -/
def tickOfNs (ns : Nat) : Nat := (9 * ns + 8) / 2500000

/-- The ordinal of a tick counted from the PTP epoch. -/
def tickOrd (sec : W48) (tick : Nat) : Nat := sec.toNat * 3600 + tick

/-- An instant in ns from the PTP epoch. -/
def instNs (sec : W48) (ns : Nat) : Nat := sec.toNat * secNs + ns

/-- The start of a tick in ns from the PTP epoch. -/
def tickInst (sec : W48) (tick : Nat) : Nat := instNs sec (tickStartNs tick)

/-- Ticks of a reporting period at rate F (R3). -/
def periodTicks (f : Nat) : Nat := if f = 0 then 3600 else 3600 / f

/-- The reporting rates of Table 0-3. -/
def rates : List Nat := [1, 2, 5, 10, 12, 15, 20, 25, 30, 50, 60, 100, 120, 150, 200, 240]

/-- The counter in ns from the PTP epoch. -/
def nowNs (d : Dev) : Nat := instNs d.tod.sec d.tod.ns.toNat

/-- The counter in the format of R42. -/
def nowStamp (d : Dev) : Stamp :=
  { sec := d.tod.sec, ns := d.tod.ns, frac := BitVec.ofNat 16 (d.tod.frac.toNat / 2 ^ 24) }

/-- A stamp in ns. -/
def Stamp.toNs (t : Stamp) : Nat := instNs t.sec t.ns.toNat

/-- A stamp as a number of 2^-16 ns. -/
def Stamp.toFine (t : Stamp) : Nat := t.toNs * 65536 + t.frac.toNat

/-- The stamp at a number of 2^-16 ns. -/
def stampOfFine (n : Nat) : Stamp :=
  { sec := BitVec.ofNat 48 (n / 65536 / secNs), ns := BitVec.ofNat 32 (n / 65536 % secNs), frac := BitVec.ofNat 16 n }

/-- The stamp at an instant in ns. -/
def stampOfNs (n : Nat) : Stamp := stampOfFine (n * 65536)

/-- A stamp moved by a signed number of 2^-16 ns; below the epoch it stays at the epoch. -/
def Stamp.shift (t : Stamp) (by_ : Int) : Stamp := stampOfFine ((t.toFine : Int) + by_).toNat

/-- The 12 bytes of a time in the format of R42, fraction first, little-endian. -/
def Stamp.bytes (t : Stamp) : Bytes := leBytes 2 t.frac.toNat ++ leBytes 4 t.ns.toNat ++ leBytes 6 t.sec.toNat

/-- Operating time (R464) and the AON second count run on by `n` ns. -/
def addOpt (d : Dev) (n : Nat) : Dev :=
  let s := d.log.optSub + n
  let a := d.tmp.aonSub + n
  { d with
    log := { d.log with opt := d.log.opt + BitVec.ofNat 40 (s / 1000000), optSub := s % 1000000 }
    tmp := { d.tmp with aonSec := d.tmp.aonSec + BitVec.ofNat 32 (a / 1000000000), aonSub := a % 1000000000 } }

/-- The counter at an instant, fraction 0. -/
def setCounter (d : Dev) (ns : Nat) : Dev :=
  { d with tod := { d.tod with sec := BitVec.ofNat 48 (ns / secNs), ns := BitVec.ofNat 32 (ns % secNs), frac := 0 } }

/-- The counter in units of 2^-40 ns. -/
def fineCount (t : Tod) : Nat := (instNs t.sec t.ns.toNat) * 2 ^ 40 + t.frac.toNat

/-- The counter set from units of 2^-40 ns. -/
def setFine (t : Tod) (n : Nat) : Tod :=
  { t with sec := BitVec.ofNat 48 (n / 2 ^ 40 / secNs), ns := BitVec.ofNat 32 (n / 2 ^ 40 % secNs), frac := BitVec.ofNat 40 n }

/-- What an adjustment has applied after `k` of its cycles, in units of 2^-40 ns: each cycle S / N truncated, the last one
the remainder (R47). -/
def adjApplied (a : Adjust) (k : Nat) : Int :=
  if k ≥ a.n then a.s * 2 ^ 24 else (Int.tdiv (a.s * 2 ^ 24) a.n) * k

/-- The part applied so far, in units of 2^-16 ns. -/
def adjPart (a : Adjust) : Int := Int.tdiv (adjApplied a a.done) (2 ^ 24)

/-- `k` cycles of the counter under the increment and the adjustment in force. -/
def countCycles (t : Tod) (k : Nat) : Tod :=
  match t.adj with
  | none => setFine t (fineCount t + k * t.inc.toNat)
  | some a =>
    let share := adjApplied a (a.done + k) - adjApplied a a.done
    let t1 := setFine t (((fineCount t + k * t.inc.toNat : Nat) : Int) + share).toNat
    { t1 with adj := if a.done + k ≥ a.n then none else some { a with done := a.done + k } }

/-- The cycles of CLK_TOD until the counter reaches or passes a value in units of 2^-40 ns (R43, R45, R47). -/
def cyclesTo (t : Tod) (fine : Nat) : Nat :=
  let need := fine - fineCount t
  match t.adj with
  | none => ceilDiv need t.inc.toNat
  | some a =>
    let left := a.n - a.done
    let per := ((t.inc.toNat : Int) + Int.tdiv (a.s * 2 ^ 24) a.n).toNat
    let whole := ceilDiv need per
    if 0 < per && whole < left then whole
    else
      let got := ((left * t.inc.toNat : Nat) : Int) + (adjApplied a a.n - adjApplied a a.done)
      left + ceilDiv ((need : Int) - got).toNat t.inc.toNat

/-- Time runs on to an instant that an event names, by the cycles that the counter needs to reach it: they count in the operating time,
and an adjustment in progress takes its share of each. The counter then stands at the instant (R45); one already past it stays
(log entry 6). -/
def bringTo (d : Dev) (ns : Nat) : Dev :=
  if nowNs d < ns then
    let k := cyclesTo d.tod (ns * 2 ^ 40)
    let e := addOpt d (2 * k)
    setCounter { e with tod := countCycles e.tod k } ns
  else d

/-- Operating time in ns. -/
def opNs (d : Dev) : Nat := d.log.opt.toNat * 1000000 + d.log.optSub

/-- Time runs on until the operating time reaches a value in ns. -/
def waitUntil (d : Dev) (op : Nat) : Dev := bringTo d (nowNs d + (op - opNs d))

/-- Operating time in µs. -/
def optUs (d : Dev) : Nat := d.log.opt.toNat * 1000 + d.log.optSub / 1000

/-- Operating time in ms that has passed since a recorded one, modulo 2^40. -/
def optSince (d : Dev) (since : BitVec 40) : Nat := (d.log.opt - since).toNat

/-- The time state is UNSET. -/
def unsetTime (d : Dev) : Bool := decide (d.tod.state = .unset)

/-- A "TAI second" parameter of a log record: all ones in UNSET (R466). -/
def logSec (d : Dev) (sec : W48) : Nat := if unsetTime d then 0xFFFFFFFF else sec.toNat % 2 ^ 32

end Sys2Proof.Machine
end

