-- ==== Sys2Proof/Machine/Ops.lean ====
section
/-!
DEFINITION. The shared operations of the device: counters, free values, outputs, notices, host writes, the Husk queues,
records for the host, the event log, and once-per-second summaries.
-/
namespace Sys2Proof.Machine

/-! ### Gating -/

/-- An effect on the device; the queue of commands is left as it is. -/
def onDev (f : Dev → Dev) (s : State) : Host.Outcome State Fault Refusal := .next { s with dev := f s.dev }

/-- The device is out of reset. -/
def isLive (d : Dev) : Bool := !d.pwr.held

/-- A domain has lost its lock and must relock within 10 ms (R527). -/
def stalledIn (d : Dev) (domain : Nat) : Bool := d.clk.stalled.any fun e => e.1 == domain

/-- The data path is powered (R34, R459, R523, R525): the device is out of reset, neither in loader mode, TAMPERED nor DORMANT. -/
def corePowered (d : Dev) : Bool :=
  !d.pwr.held && (decide (d.pwr.run = .starting) || decide (d.pwr.run = .ready) || decide (d.pwr.run = .entering))

/-- The blocks of CLK_CORE run (R527): powered, and neither CLK_CORE nor CLK_MEM is stopped. -/
def coreRuns (d : Dev) : Bool := corePowered d && !stalledIn d 0 && !stalledIn d 2

/-- The blocks of CLK_ENG run as well. -/
def engRuns (d : Dev) : Bool := coreRuns d && !stalledIn d 1

/-- The effect only where a condition holds; else no effect. -/
def whenDo (c : Bool) (f : Dev → Dev) (d : Dev) : Dev := if c then f d else d

/-! ### Counters and free values -/

/-- The key of counter `i` of a block and port (R12). -/
def cntKey (block port i : Nat) : Nat := block * 65536 + port * 256 + i

/-- Adds to a 48-bit event counter, which wraps (R12). -/
def bumpAt (d : Dev) (block port i n : Nat) : Dev :=
  { d with cnt := mmod 0 d.cnt (cntKey block port i) (· + BitVec.ofNat 48 n) }

/-- Adds to a counter of a block with one set of counters. -/
def bumpN (d : Dev) (block i n : Nat) : Dev := bumpAt d block 0 i n

/-- Counts one event. -/
def bump (d : Dev) (block i : Nat) : Dev := bumpN d block i 1

/-- A free value (log entry 1): an opaque word by the count of values drawn, and the count advances. -/
def drawWord (d : Dev) : W64 × Dev := (Config.freeWord d.draws, { d with draws := d.draws + 1 })

/-! ### Block flags -/

/-- Sets bit `i` of the FLAGS register of a block, by its source-block code (Table 1-1). -/
def setFlag (block i : Nat) (d : Dev) : Dev :=
  match block with
  | 0x00 => { d with gbl := { d.gbl with err := setBit d.gbl.err i } }
  | 0x01 => { d with tod := { d.tod with flags := setBit d.tod.flags i } }
  | 0x02 => { d with alm := { d.alm with flags := setBit d.alm.flags i } }
  | 0x07 => { d with ing := { d.ing with flags := setBit d.ing.flags i } }
  | 0x09 => { d with aln := { d.aln with flags := setBit d.aln.flags i } }
  | 0x0A => { d with pub := { d.pub with flags := setBit d.pub.flags i } }
  | 0x0B => { d with est := { d.est with flags := setBit d.est.flags i } }
  | 0x0C => { d with osc := { d.osc with flags := setBit d.osc.flags i } }
  | 0x0D => { d with isl := { d.isl with flags := setBit d.isl.flags i } }
  | 0x0E => { d with lmf := { d.lmf with flags := setBit d.lmf.flags i } }
  | 0x0F => { d with aux := { d.aux with flags := setBit d.aux.flags i } }
  | 0x10 => { d with mtr := { d.mtr with flags := setBit d.mtr.flags i } }
  | 0x11 => { d with lch := { d.lch with flags := setBit d.lch.flags i } }
  | 0x12 => { d with cap := { d.cap with flags := setBit d.cap.flags i } }
  | 0x13 => { d with log := { d.log with flags := setBit d.log.flags i } }
  | 0x14 => { d with hrd := { d.hrd with flags := setBit d.hrd.flags i } }
  | 0x16 => { d with pwr := { d.pwr with flags := setBit d.pwr.flags i } }
  | 0x17 => { d with key := { d.key with flags := setBit d.key.flags i } }
  | _ => d

/-! ### What the device sends out -/

/-- Records an output. -/
def emit (o : Output) (d : Dev) : Dev := { d with out := o :: d.out }

/-- What a driven pin shows of a level: an open drain leaves the high level to the board. -/
def padLevel (openDrain level : Bool) : Option Bool := if openDrain && level then none else some level

/-- A PCIe function. -/
def funcOf (d : Dev) (pf1 : Bool) : Func := if pf1 then d.gbl.pf1 else d.gbl.pf0

/-- A PCIe function replaced. -/
def setFunc (d : Dev) (pf1 : Bool) (f : Func) : Dev :=
  { d with gbl := if pf1 then { d.gbl with pf1 := f } else { d.gbl with pf0 := f } }

/-- The PBA of a function replaced. -/
def withPba (pf1 : Bool) (p : BitVec 64) (d : Dev) : Dev := setFunc d pf1 { funcOf d pf1 with pba := p }

/-- An MSI-X vector (R515): sent, or its PBA bit set where it is masked. -/
def sendMsix (pf1 : Bool) (v : Nat) (d : Dev) : Dev :=
  let f := funcOf d pf1
  if f.funcMask || bit f.vecMask.toNat v then withPba pf1 (setBit f.pba v) d
  else if d.gbl.linkUp && !f.d3hot then emit (.msix pf1 v) d
  else d

/-- A write to host memory; no write is sent with the link down. -/
def hostWrite (addr : W64) (data : Bytes) (d : Dev) : Dev :=
  if d.gbl.linkUp then emit (.hostWrite addr data) d else d

/-! ### Once-per-second summaries (R549) -/

/-- Keys of the summaries: kind × 65,536 + instance. -/
def tallyKey (kind inst : Nat) : Nat := kind * 65536 + inst

/-- Counts events for the summary record of the second the counter lies in; the argument is kept from the first one, and a count
of an earlier second is closed. -/
def tally (kind inst n arg : Nat) (d : Dev) : Dev :=
  let k := tallyKey kind inst
  let fresh : Tally := { sec := d.tod.sec, count := n, arg := arg }
  match mfind d.clk.tallies k with
  | some t =>
    if t.sec = d.tod.sec then { d with clk := { d.clk with tallies := mset d.clk.tallies k { t with count := t.count + n } } }
    else { d with clk := { d.clk with tallies := mset d.clk.tallies k fresh, closed := d.clk.closed ++ [(k, t)] } }
  | none => { d with clk := { d.clk with tallies := mset d.clk.tallies k fresh } }

/-- Summary kinds. -/
def tallyShed : Nat := 0
/-- See `tallyShed`. -/
def tallyOverflow : Nat := 1
/-- See `tallyShed`. -/
def tallyBp : Nat := 2
/-- See `tallyShed`. -/
def tallySkip : Nat := 3
/-- See `tallyShed`. -/
def tallyFuture : Nat := 4
/-- See `tallyShed`. -/
def tallyEarly : Nat := 5
/-- See `tallyShed`. -/
def tallyStaging : Nat := 6
/-- See `tallyShed`. -/
def tallyEgress : Nat := 7
/-- See `tallyShed`. -/
def tallyRing : Nat := 8
/-- See `tallyShed`. -/
def tallyExcl : Nat := 9
/-- See `tallyShed`. -/
def tallyInsuff : Nat := 10
/-- See `tallyShed`. -/
def tallyGzLate : Nat := 11
/-- Launch summaries: instance 0 MISSED, 1 FAILED, 2 NOT_SYNC, 3 completions lost. -/
def tallyLch : Nat := 12
/-- See `tallyShed`. -/
def tallyCap : Nat := 13
/-- See `tallyShed`. -/
def tallyAux : Nat := 14
/-- See `tallyShed`. -/
def tallyPulse : Nat := 15
/-- See `tallyShed`. -/
def tallyXchk : Nat := 16

/-! ### Husk queues (R213 to R217) -/

/-- Parameters of a queue: feeder queue d is ID d, egress queue p is ID 32 + p. -/
def qParams (d : Dev) (q : Nat) : QParams := mget {} d.pub.qparams q

/-- The queue ID that the model gives the firmware's work queue. -/
def fwQueueId : Nat := 76
/-- The parameters and stale state of a queue replaced. -/
def setQParams (q : Nat) (x : QParams) (d : Dev) : Dev := { d with pub := { d.pub with qparams := mput {} d.pub.qparams q x } }
/-- A queue has grown from a depth by an item (R218): its stale timer starts where it was empty, and a depth that reaches WATERMARK raises a
notice. -/
def queueGrew (q depth : Nat) (d : Dev) : Dev :=
  let x := qParams d q
  let d := if depth = 0 then setQParams q { x with since := opNs d } d else d
  if depth + 1 = x.watermark then emit (.queueNotice q) d else d
/-- A queue has been read (R215, R218): the stale timer starts again. -/
def queueRead (q : Nat) (d : Dev) : Dev := setQParams q { qParams d q with stale := false, since := opNs d } d

/-- Cells of the shared part in use. -/
def sharedUsed (d : Dev) : Nat :=
  (d.pub.feeders.map fun e => e.2.length - 4096).sum + (d.pub.egress.map fun e => e.2.length - 8192).sum

/-- A cell is to be had for one more item at a depth, by reserve and LIMIT. -/
def cellFree (d : Dev) (q depth reserve : Nat) : Bool :=
  depth < reserve || (depth < (qParams d q).limit && sharedUsed d < 438272)

/-- The lowest priority held below `p`. -/
def lowestBelow {α : Type} (prio : α → Nat) (p : Nat) (l : List α) : Option Nat :=
  (List.range p).find? fun k => l.any fun x => prio x == k

/-- Removes the last element that satisfies a test; gives it and the rest. -/
def removeLast {α : Type} (t : α → Bool) (l : List α) : Option (α × List α) :=
  match l.reverse.span (fun x => !t x) with
  | (a, x :: b) => some (x, b.reverse ++ a.reverse)
  | (_, []) => none

/-- Enqueues an item under R217: the new queue, and what was discarded, if anything. -/
def enqueue {α : Type} (prio : α → Nat) (free : Bool) (l : List α) (x : α) : List α × Option α :=
  if free then (l ++ [x], none)
  else match lowestBelow prio (prio x) l with
    | none => (l, some x)
    | some p => match removeLast (fun y => prio y == p) l with
      | some (y, rest) => (rest ++ [x], some y)
      | none => (l, some x)

/-- The oldest item of the highest priority, and the rest (R215). -/
def dequeue {α : Type} (prio : α → Nat) (l : List α) : Option (α × List α) :=
  let top := l.foldl (fun m x => max m (prio x)) 0
  match l.span (fun x => prio x != top) with
  | (a, x :: b) => some (x, a ++ b)
  | (_, []) => none

/-! ### Records for the host (R219 to R228) -/

/-- The priority of a record TYPE (Table 7-8). -/
def typePrio (t : Nat) : Nat := [0, 0, 3, 2, 7, 1, 4, 5, 3, 6].getD t 0

/-- A ring's state. -/
def ringOf (d : Dev) (r : Nat) : Ring := mget {} d.pub.rings r

/-- A ring's state replaced. -/
def setRing (d : Dev) (r : Nat) (x : Ring) : Dev := { d with pub := { d.pub with rings := mput {} d.pub.rings r x } }

/-- A record discarded for a ring (R223). -/
def ringDrop (r type : Nat) (d : Dev) : Dev :=
  let g := ringOf d r
  let g := { g with
    drops := lset g.drops (type - 2) (lget 0 g.drops (type - 2) + 1)
    firstDrop := if g.drops.all (· == 0) then nowStamp d else g.firstDrop
    lastDrop := nowStamp d }
  let d := bump (setRing d r g) 0x0A 16
  tally tallyRing r 1 0 (setFlag 0x0A 8 d)

/-- A capture session's state. -/
def sessOf (d : Dev) (s : Nat) : CapSession := mget {} d.cap.sessions s
/-- A capture session's state replaced. -/
def setSess (s : Nat) (x : CapSession) (d : Dev) : Dev := { d with cap := { d.cap with sessions := mput {} d.cap.sessions s x } }
/-- A session's buffers start empty (R344). -/
def CapSession.emptied (x : CapSession) (st : CapState) : CapSession :=
  { x with state := st, lanes := [], before := [], locals := none, wides := none, cap := none, flight := 0, held := [] }
/-- The release of a capture (R351, Table 12-4): back to ARMED with CONTINUOUS, else to IDLE. -/
def capFree (s : Nat) (d : Dev) : Dev :=
  let x := sessOf d s
  if decide (x.state = .rearm) then setSess s (x.emptied (if x.defn.any CapDef.contin then .armed else .idle)) d else d
/-- A CAPTURE record that will not be written (R351): a chunk is lost and free; a lost summary releases the capture. -/
def capLost (head : Bytes) (d : Dev) : Dev :=
  let s := leAt head 0 1
  let x := sessOf d s
  if leAt head 1 1 = 0 then (if x.defn.any CapDef.hold then d else capFree s d)
  else setFlag 0x12 6 (bump (setSess s { x with flight := x.flight - 1, cap := x.cap.map fun c => { c with lost := true } } d) 0x12 12)
/-- A CAPTURE record that is done with: a chunk's store is free; a summary releases the capture unless it is held (R351). -/
def capDone (head : Bytes) (d : Dev) : Dev :=
  let s := leAt head 0 1
  let x := sessOf d s
  if leAt head 1 1 = 0 then (if x.defn.any CapDef.hold then d else capFree s d)
  else setSess s { x with flight := x.flight - 1 } d
/-- A CAPTURE record that has been written: a chunk counts as delivered. -/
def capWritten (head : Bytes) (d : Dev) : Dev :=
  if leAt head 1 1 = 0 then capDone head d else bump (capDone head d) 0x12 11
/-- What the discard of a record means to the block that posted it. -/
def recDropped (x : HostRec) (d : Dev) : Dev := if x.type = 5 then capLost x.head d else d

/-- A record enqueued on the feeder queue of a ring (R217, R221); a ring number of 32 or more produces none. -/
def feed (r : Nat) (x : HostRec) (d : Dev) : Dev :=
  if r < 32 then
    let l := mget [] d.pub.feeders r
    let e := enqueue HostRec.prio (cellFree d r l.length 4096) l x
    let d1 := { d with pub := { d.pub with feeders := mput [] d.pub.feeders r e.1 } }
    match e.2 with
    | none => queueGrew r l.length d1
    | some y => recDropped y (ringDrop r y.type (if sharedUsed d ≥ 438272 then bump d1 0x0A 19 else d1))
  else if x.type = 5 then capDone x.head d
  else d

/-- A record of a routed TYPE: `head` is bytes 8 to 63 of its header entry. -/
def postRecord (type : Nat) (head : Bytes) (more : List Bytes) (d : Dev) : Dev :=
  feed (mget 255 d.pub.routes type) { type := type, prio := typePrio type, head := padTo 56 head, more := more } d

/-! ### The event log (chapter 17) -/

/-- The code of a severity (Table 17-1). -/
def sevNum : Sev → Nat
  | .trace => 0 | .info => 1 | .notice => 2 | .warning => 3 | .error => 4 | .critical => 5

/-- The severity of a code. -/
def sevOf (n : Nat) : Sev := [Sev.trace, .info, .notice, .warning, .error, .critical].getD n .critical

/-- The severity each block's table gives an event code: NOTICE unless listed. -/
def codeSev (code : Nat) : Sev :=
  if [0x1503, 0x1504, 0x0102, 0x0105, 0x0108, 0x0501, 0x0601, 0x0707, 0x0801, 0x0903, 0x0907, 0x0B01, 0x0B04, 0x0C01, 0x0C03,
      0x0C05, 0x0D02, 0x0D06, 0x0205, 0x0E02, 0x1001, 0x1007, 0x1701, 0x1705, 0x1901, 0x1904, 0x1907, 0x1403, 0x1601,
      0x1602].contains code then .info
  else if [0x0101, 0x0103, 0x0104, 0x0107, 0x010A, 0x010C, 0x0502, 0x0503, 0x0505, 0x0602, 0x0603, 0x0605, 0x0701, 0x0704,
      0x0802, 0x0901, 0x0905, 0x0906, 0x0908, 0x0A02, 0x0A04, 0x0A08, 0x0B05, 0x0B07, 0x0C02, 0x0C07, 0x0D01, 0x0D05, 0x0D07,
      0x0201, 0x0203, 0x1101, 0x1103, 0x1104, 0x1105, 0x1201, 0x1205, 0x0F02, 0x1002, 0x1006, 0x1702, 0x0301, 0x1302,
      0x1303, 0x1305, 0x1402, 0x1404, 0x1406, 0x1407, 0x1408, 0x1409, 0x140A, 0x1603, 0x1606, 0x1607].contains code
    then .warning
  else if [0x1502, 0x0109, 0x0504, 0x0604, 0x0703, 0x0705, 0x0A01, 0x0A03, 0x0A06, 0x0B02, 0x0204, 0x1102, 0x1204, 0x0E01,
      0x0F01, 0x1003, 0x1704, 0x0401, 0x1906, 0x1908, 0x1909, 0x1304, 0x140B, 0x0001].contains code then .error
  else if [0x1505, 0x1706, 0x1708, 0x1709, 0x170A, 0x1801, 0x1903, 0x1405, 0x140C].contains code then .critical
  else .notice

/-- Bytes 0 to 27 of a log record (Table 17-1). -/
def LogRec.head (r : LogRec) : Bytes :=
  leBytes 2 r.code.toNat ++
  [BitVec.ofNat 8 (sevNum r.sev + 8 * b2n r.timeValid + 16 * b2n r.pfw + 32 * b2n r.summary), r.source] ++
  leBytes 3 r.pcc.toNat ++ [0] ++ leBytes 5 r.opt.toNat ++ leBytes 3 r.seq.toNat ++ leBytes 4 r.p1.toNat ++
  leBytes 4 r.p2.toNat ++ leBytes 4 r.p3.toNat

/-- The 32 bytes of a log record, with its CRC-32 (R463). -/
def LogRec.bytes (r : LogRec) : Bytes := r.head ++ leBytes 4 (crc32 r.head)

/-- `a` comes before `b` in record order (R465). -/
def LogRec.before (a b : LogRec) : Bool :=
  a.opt < b.opt || (a.opt == b.opt && (a.seq != b.seq && (b.seq - a.seq).toNat < 2 ^ 23))

/-- The index of the record that a full store gives up for one of severity `s`: the oldest of the lowest severity at or
below `s` (R467, R469). -/
def victim (s : Sev) (l : List LogRec) : Option Nat :=
  match (List.range (sevNum s + 1)).find? fun k => l.any fun r => sevNum r.sev == k with
  | none => none
  | some k =>
    let c := (l.zipIdx).filter fun e => sevNum e.1.sev == k
    (c.foldl (fun (m : Option (LogRec × Nat)) e => match m with
      | none => some e
      | some y => if e.1.before y.1 then some e else some y) none).map Prod.snd

/-- A record enters the SRAM buffer (R467), clears the END mark (R470), and may be the cause of a flush (R468). -/
def bufferRec (r : LogRec) (d : Dev) : Dev :=
  let lossy (d : Dev) := setFlag 0x13 1 (bump d 0x13 4)
  let add (d : Dev) (l : List LogRec) :=
    let l := l ++ [r]
    { d with log := { d.log with
      buffer := l
      endMark := none
      flushFault := d.log.flushFault || sevNum r.sev ≥ 4
      flushHalf := d.log.flushHalf || l.length ≥ 2048 } }
  if d.log.buffer.length < 4096 then add d d.log.buffer
  else match victim r.sev d.log.buffer with
    | some i => add (lossy d) (d.log.buffer.eraseIdx i)
    | none => lossy d

/-- The power-cycle count; while the always-on domain has lost its supplies it is a free value (R464; log entry 1). -/
def aonPcc (d : Dev) : BitVec 24 := if d.pwr.aonLost then BitVec.ofNat 24 (Config.freeWord d.draws).toNat else d.log.pcc
/-- The operating time; while the always-on domain has lost its supplies it is a free value (R464; log entry 1). -/
def aonOpt (d : Dev) : BitVec 40 := if d.pwr.aonLost then BitVec.ofNat 40 (Config.freeWord d.draws).toNat else d.log.opt
/-- Creates a record from a source block (R463 to R467). -/
def logFull (src : Nat) (code : Nat) (sev : Sev) (p1 p2 p3 : Nat) (summary : Bool) (d : Dev) : Dev :=
  let r : LogRec :=
    { code := BitVec.ofNat 16 code, sev := sev, timeValid := !unsetTime d, pfw := d.pwr.pfw, summary := summary,
      source := BitVec.ofNat 8 src, pcc := aonPcc d, opt := aonOpt d, seq := d.log.seq,
      p1 := BitVec.ofNat 32 p1, p2 := BitVec.ofNat 32 p2, p3 := BitVec.ofNat 32 p3, crcOk := true }
  let d := bump { d with log := { d.log with seq := d.log.seq + 1 } } 0x13 0
  let d := if sevNum sev ≥ d.log.hostMin then postRecord 6 r.bytes [] (bump d 0x13 9) else bump d 0x13 10
  if sevNum sev ≥ d.log.mramMin then bufferRec r d else d

/-- Creates the record of an event code with its parameters (R14, R463 to R467). -/
def logEv (code p1 p2 p3 : Nat) (d : Dev) : Dev := logFull (code / 256) code (codeSev code) p1 p2 p3 false d

/-- Creates a summary record. -/
def logSum (code p1 p2 p3 : Nat) (d : Dev) : Dev := logFull (code / 256) code (codeSev code) p1 p2 p3 true d

/-! ### Access paths -/

/-- The number of a path in MBX_STAT.PATH. -/
def pathNum : Path → Nat
  | .pf0 => 0 | .pf1 => 1 | .lb => 2 | .lbs => 2

/-- The path is a local-bus window. -/
def isLb (p : Path) : Bool := decide (p = .lb) || decide (p = .lbs)

/-- The path is PF1 or the secure local-bus window. -/
def isSecure (p : Path) : Bool := decide (p = .pf1) || decide (p = .lbs)

/-- Commands of the secure channels (R437): queues 8 to 15, mailboxes 20 to 23 and forwarded commands of those classes. -/
def secureChan (c : Nat) : Bool := (8 ≤ c && c < 16) || (20 ≤ c && c < 25) || c == 25 || c == 26

end Sys2Proof.Machine
end

