-- ==== Sys2Proof/Machine/Flags.lean ====
section
/-!
DEFINITION. The flags of the device: the summary bits of Table 19-9, the interrupt summaries of the four paths (R516), the
sources of the local bus (GBL_LB_SRC) and INT_N (R517).
-/
namespace Sys2Proof.Machine

/-- A mailbox's state. -/
def mboxOf (d : Dev) (m : Nat) : Mailbox := mget {} d.cmd.mailboxes m
/-- A mailbox's state replaced. -/
def setMbox (d : Dev) (m : Nat) (x : Mailbox) : Dev := { d with cmd := { d.cmd with mailboxes := mput {} d.cmd.mailboxes m x } }
/-- A queue pair's state. -/
def pairOf (d : Dev) (q : Nat) : QPair := mget {} d.cmd.queues q
/-- A queue pair's state replaced. -/
def setPair (d : Dev) (q : Nat) (x : QPair) : Dev := { d with cmd := { d.cmd with queues := mput {} d.cmd.queues q x } }
/-- A port's state. -/
def portOf (d : Dev) (p : Nat) : Port := mget {} d.ports p
/-- A port's state replaced. -/
def setPort (d : Dev) (p : Nat) (x : Port) : Dev := { d with ports := mput {} d.ports p x }
/-- The rate of a port mode in Gb/s (Table 3-1). -/
def modeRate (mode : Nat) : Nat := [0, 100, 100, 50, 25, 10, 0, 0, 10, 1, 1].getD mode 0
/-- The mode has FEC on (Table 3-1). -/
def hasFec (x : Port) : Bool := x.mode = 1 || x.mode = 2 || x.mode = 3 || (x.mode = 4 && x.fec)
/-- What remains of a pause, in quanta of 512 bit times, rounded up (R85, TRK_PAUSE). -/
def pauseLeft (d : Dev) (x : Port) : Nat := x.pause - (opNs d - x.pauseAt) * modeRate x.mode / 512

/-- Unread results of a buffer (R378). -/
def AuxBuf.unread (b : AuxBuf) : Nat := if b.len = 0 then 0 else (b.wr + b.len - b.rd) % b.len

/-- The condition of Table 19-9 for a source-block code, as a path sees it. -/
def intCond (d : Dev) (path : Path) (b : Nat) : Bool :=
  match b with
  | 0x00 => d.gbl.err != 0
  | 0x01 => d.tod.flags != 0
  | 0x02 => d.alm.flags != 0
  | 0x03 => d.cmd.mailboxes.any fun e =>
      decide ((8 ≤ e.1) = (isSecure path = true)) && (e.2.reject || e.2.stall || e.2.discarded)
  | 0x04 =>
      (match path with
        | .pf0 => d.cmd.queues.any (fun e => e.1 < 8 && (e.2.err || e.2.cfgErr)) ||
            d.pub.rings.any (fun e => e.2.err) || d.ing.hostRings.any (fun e => e.2.err)
        | .pf1 => d.cmd.queues.any fun e => 8 ≤ e.1 && (e.2.err || e.2.cfgErr)
        | _ => false)
  | 0x05 => d.ports.any fun e => e.1 < 8 && e.2.flags != 0
  | 0x06 => d.ports.any fun e => 8 ≤ e.1 && e.2.flags != 0
  | 0x07 => d.ing.flags != 0
  | 0x09 => d.aln.flags != 0
  | 0x0A => d.pub.flags != 0
  | 0x0B => d.est.flags != 0
  | 0x0C => d.osc.flags != 0
  | 0x0D => d.isl.flags != 0
  | 0x0E => d.lmf.flags != 0
  | 0x0F => d.aux.flags != 0
  | 0x10 => d.mtr.flags != 0
  | 0x11 => d.lch.flags != 0
  | 0x12 => d.cap.flags != 0
  | 0x13 => d.log.flags != 0
  | 0x14 => d.hrd.flags != 0
  | 0x15 => d.clk.xovr != 0
  | 0x16 => d.pwr.flags != 0
  | 0x17 => isSecure path && d.key.flags != 0
  | 0x18 => isSecure path && d.tmp.latch != 0
  | 0x19 => isSecure path && d.cmd.loader
  | _ => false

/-- GBL_INT_STAT as a path reads it (R516). -/
def intStat (d : Dev) (path : Path) : Nat :=
  (List.range 26).foldl (fun n b => n + b2n (intCond d path b) * 2 ^ b) 0

/-- The GBL_INT_EN copy of a path. -/
def intEn (d : Dev) : Path → BitVec 26
  | .pf0 => d.gbl.pf0.intEn | .pf1 => d.gbl.pf1.intEn | .lb => d.gbl.win.intEn | .lbs => d.gbl.winS.intEn

/-- GBL_INT_STAT AND GBL_INT_EN of a path is not 0. -/
def summaryOn (d : Dev) (path : Path) : Bool := (intStat d path).land (intEn d path).toNat != 0

/-- A local-bus window's registers. -/
def winOf (d : Dev) (secure : Bool) : LbWin := if secure then d.gbl.winS else d.gbl.win

/-- GBL_LB_SRC of a window. -/
def lbSrc (d : Dev) (secure : Bool) : Nat :=
  let base := if secure then 8 else 0
  let mb (m : Nat) : Bool := let x := mboxOf d m; isLb x.window && (x.emptyEv || x.msgEv || x.stall || x.discarded)
  b2n (summaryOn d (if secure then .lbs else .lb)) +
  (List.range 4).foldl (fun n p => n + b2n (mb (base + p) || mb (base + p + 4)) * 2 ^ (1 + p)) 0 +
  (if secure then 0 else
    b2n (d.aux.bufs.any fun e => e.2.len != 0 && e.2.watermark ≤ e.2.unread) * 32 + b2n (winOf d false).almChg * 64)

/-- Some enabled source of either local-bus window is set (R517). -/
def lbIrq (d : Dev) : Bool :=
  (lbSrc d false).land d.gbl.win.lbEn.toNat != 0 || (lbSrc d true).land d.gbl.winS.lbEn.toNat != 0

/-- INT_N driven. -/
def withIntN (on : Bool) (d : Dev) : Dev := { d with gbl := { d.gbl with intN := on } }
/-- The summary of a PCIe function kept. -/
def withSummary (pf1 : Bool) (on : Bool) (d : Dev) : Dev := setFunc d pf1 { funcOf d pf1 with summary := on }
/-- The summaries of the two local-bus windows kept. -/
def withWindows (on onS : Bool) (d : Dev) : Dev :=
  { d with gbl := { d.gbl with win := { d.gbl.win with summary := on }, winS := { d.gbl.winS with summary := onS } } }

/-- The summary of a PCIe function: kept, and sent on a change from 0 to non-zero (R516). -/
def settleFunc (pf1 : Bool) (d : Dev) : Dev :=
  let on := summaryOn d (if pf1 then .pf1 else .pf0)
  let e := withSummary pf1 on d
  if on && !(funcOf d pf1).summary then sendMsix pf1 0 e else e

/-- INT_N follows its sources while LB_CLK runs; three-stated in reset and in FENCED (R513, R517). -/
def settleIntN (d : Dev) : Dev :=
  if d.pwr.held || decide (d.hrd.role = .fenced) then withIntN true d
  else if d.gbl.lbRunning then withIntN (!lbIrq d) d
  else d

/-- The interrupt outputs follow the state after each command. -/
def settle (d : Dev) : Dev :=
  let d := if d.pwr.held then d else settleFunc true (settleFunc false d)
  settleIntN (withWindows (summaryOn d .lb) (summaryOn d .lbs) d)

/-- The effect of a command: on the device alone, after which the interrupt outputs follow. -/
def run (f : Dev → Dev) (s : State) : Host.Outcome State Fault Refusal := onDev (fun d => settle (f d)) s

/-- An effect the device has only out of reset. -/
def runLive (f : Dev → Dev) : State → Host.Outcome State Fault Refusal := run fun d => whenDo (isLive d) f d

/-- An effect the device has only while its data path runs. -/
def runCore (f : Dev → Dev) : State → Host.Outcome State Fault Refusal := run fun d => whenDo (coreRuns d) f d

/-- An effect the device has only while its engines run. -/
def runEng (f : Dev → Dev) : State → Host.Outcome State Fault Refusal := run fun d => whenDo (engRuns d) f d

end Sys2Proof.Machine
end

