-- ==== Sys2Proof/Machine/Store.lean ====
section
/-!
DEFINITION. Gahaver batches as the configuration store keeps them (R165, R166, R445): the header, the packets, the payload sections, and
the checks.
-/
namespace Sys2Proof.Machine

/-- The running image; every field 0 where none runs. -/
def runningImage (d : Dev) : ImageHdr := d.cmd.running.getD {}

/-! ### The parts of a batch (Table 5-11) -/

/-- SCHEMA_VER. -/
def StoredBatch.schema (b : StoredBatch) : W16 := BitVec.ofNat 16 (leAt b.image 6 2)
/-- BASE_GEN. -/
def StoredBatch.baseGen (b : StoredBatch) : W16 := BitVec.ofNat 16 (leAt b.image 8 2)
/-- TARGET_GEN. -/
def StoredBatch.targetGen (b : StoredBatch) : W16 := BitVec.ofNat 16 (leAt b.image 10 2)
/-- The command packets in their order. -/
def StoredBatch.packets (b : StoredBatch) : List Bytes := (List.range (leAt b.image 12 4)).map fun i => cut b.image (64 + 64 * i) 64
/-- The offset and length of a payload section. -/
def StoredBatch.sectionAt (b : StoredBatch) (i : Nat) : Nat × Nat :=
  let t := leAt b.image 20 8 + 16 * i
  (leAt b.image t 8, leAt b.image (t + 8) 8)
/-- A payload section, where the batch has it. -/
def StoredBatch.payload (b : StoredBatch) (i : Nat) : Option Bytes :=
  if i < leAt b.image 16 4 then some (cut b.image (b.sectionAt i).1 (b.sectionAt i).2) else none
/-- The CRC of the header. -/
def StoredBatch.crc (b : StoredBatch) : Nat := leAt b.image 60 4

/-- The CRC-32 over a batch with the CRC field taken as 0. -/
def batchCrc (b : Bytes) : Nat := crc32 (b.take 60 ++ [0, 0, 0, 0] ++ b.drop 64)
/-- An opcode that a batch never contains (R165). -/
def batchBars (op : Nat) : Bool := op = 0x0110 || op = 0x0111 || op / 256 = 9
/-- A section lies in the batch, after the packets, on 64 bytes. -/
def sectionBad (b : StoredBatch) (i : Nat) : Bool :=
  let x := b.sectionAt i
  x.1 % 64 != 0 || x.1 < 64 + 64 * leAt b.image 12 4 || b.image.length < x.1 + x.2
/-- The batch fails its CRC, or is not laid out as R165 says, but for SCHEMA_VER and BASE_GEN, which are compared apart. That a packet of
a barred opcode or a section out of place fails the batch is log entry 33. -/
def batchBad (x : StoredBatch) : Bool :=
  let b := x.image
  b.length < 64 || leAt b 0 4 != 0x42484147 || leAt b 4 2 != 1 || leAt b 10 2 != (leAt b 8 2 + 1) % 65536 ||
  b.length < 64 + 64 * leAt b 12 4 || (leAt b 16 4 != 0 && b.length < leAt b 20 8 + 16 * leAt b 16 4) || 1 < leAt b 28 4 ||
  !allZero ((b.drop 32).take 28) || leAt b 60 4 != batchCrc b || (List.range (leAt b 16 4)).any (sectionBad x) ||
  x.packets.any fun p => batchBars (leAt p 0 2)

/-- A batch converted to a schema (R460): its header names the schema, under a new CRC (log entry 30). -/
def migrateBatch (schema : W16) (x : StoredBatch) : StoredBatch :=
  let b := x.image.take 6 ++ leBytes 2 schema.toNat ++ x.image.drop 8
  { image := b.take 60 ++ leBytes 4 (batchCrc b) ++ b.drop 64 }

/-! ### The replay (R166, R446) -/

/-- The batch that the replay is at. -/
def replayBatch (d : Dev) : Option StoredBatch := if d.cmd.replay.running then d.cmd.store[d.cmd.replay.next]? else none
/-- A batch that the replay does not reject (R166). -/
def replayTakes (d : Dev) (b : StoredBatch) : Bool := !batchBad b && b.schema = (runningImage d).schema && b.baseGen = d.clk.gen
/-- The payload section that a packet of the replay names, where its batch has it. -/
def replaySection (d : Dev) (i : Nat) : Option Bytes := (replayBatch d).bind fun b => b.payload i

end Sys2Proof.Machine
end

