-- ==== Sys2Proof/Machine/Packet.lean ====
section
/-!
DEFINITION. Command packets (chapter 16): acceptance, the checks of Table 16-2, execution, completion and replies, and the
forwarding of R436 and R483.
-/
namespace Sys2Proof.Machine

/-- The code of a status (Table 16-14). -/
def statusCode : Status → Nat
  | .ok => 0x0000 | .accepted => 0x0001 | .badParam => 0x0010 | .badOpcode => 0x0011 | .badLength => 0x0012
  | .wrongChannel => 0x0013 | .notPermitted => 0x0020 | .presenceRequired => 0x0021 | .busy => 0x0030
  | .noResource => 0x0031 | .generationConflict => 0x0032 | .nothingToAbort => 0x0040 | .aborted => 0x0041
  | .authFail => 0x0050 | .counterStale => 0x0051 | .keyOrphaned => 0x0052 | .internalFault => 0x00F0

/-- The status is OK or ACCEPTED. -/
def statusGood (s : Status) : Bool := decide (s = .ok) || decide (s = .accepted)

/-- What an opcode's own checks and effect give: the device, and the status and reply bytes of its completion, or nothing
while the command goes on executing. -/
abbrev Answer := Dev × Option (Status × Bytes)

/-- Completes OK. -/
def okay (d : Dev) : Answer := (d, some (.ok, []))
/-- Completes OK with reply bytes. -/
def okayWith (b : Bytes) (d : Dev) : Answer := (d, some (.ok, b))
/-- Completes ACCEPTED: the effect waits for an instant (R439). -/
def accepted (d : Dev) : Answer := (d, some (.accepted, []))
/-- Completes with a status and no effect. -/
def reject (s : Status) (d : Dev) : Answer := (d, some (s, []))
/-- Goes on executing. -/
def goesOn (d : Dev) : Answer := (d, none)

/-- The first failed check, in order, gives the status; else the effect. -/
def checks (l : List (Bool × Status)) (eff : Dev → Answer) (d : Dev) : Answer :=
  match l.find? Prod.fst with
  | some c => reject c.2 d
  | none => eff d

/-! ### The checks of Table 16-2 -/

/-- The opcodes the device defines. -/
def opcodes : List Nat :=
  rangeFrom 0x0101 8 ++ rangeFrom 0x0110 4 ++ [0x0120] ++ rangeFrom 0x0130 3 ++ rangeFrom 0x0201 9 ++ rangeFrom 0x0301 6 ++
  rangeFrom 0x0310 3 ++ rangeFrom 0x0401 8 ++ rangeFrom 0x0410 7 ++ [0x0420] ++ rangeFrom 0x0501 8 ++ rangeFrom 0x0510 10 ++
  [0x0520] ++ rangeFrom 0x0601 7 ++ rangeFrom 0x0610 7 ++ rangeFrom 0x0620 6 ++ rangeFrom 0x0630 7 ++ rangeFrom 0x0701 4 ++
  rangeFrom 0x0710 6 ++ rangeFrom 0x0720 8 ++ rangeFrom 0x0801 5 ++ rangeFrom 0x0810 9 ++ rangeFrom 0x0901 6 ++
  rangeFrom 0x0910 3 ++ rangeFrom 0x0A01 4 ++ rangeFrom 0x0B01 6 ++ rangeFrom 0x0C01 7

/-- Opcodes accepted only on secure channels (Table 16-3); HRD_UNFENCE only with mode 1. -/
def secureOnly (op : Nat) (params : Bytes) : Bool :=
  op == 0x0104 || op == 0x0108 || (0x0310 ≤ op && op ≤ 0x031F) || op == 0x0420 || op == 0x0520 || op == 0x0635 ||
  op == 0x0727 || op / 256 == 0x09 || op / 256 == 0x0A || op == 0x0B01 || op == 0x0B04 || op == 0x0C06 ||
  (op == 0x0C05 && leAt params 0 1 == 1)

/-- The loader set (R459). -/
def loaderSet (op : Nat) : Bool :=
  op == 0x0101 || op == 0x0103 || op == 0x0104 || op / 256 == 0x0A || op == 0x0B02 || op == 0x0B03

/-- What TAMPERED serves (R423): KEY_STATUS, TMP_STATUS, KEY_IDENTITY, the 0x01xx status commands and the event-log reads. -/
def tamperedSet (op : Nat) : Bool := [0x0901, 0x0912, 0x0905, 0x0101, 0x0107, 0x0113, 0x0132, 0x0B02, 0x0B03].contains op

/-- Opcodes of groups 0x02 to 0x08 that only report (R485). -/
def reportOnly (op : Nat) : Bool :=
  [0x0201, 0x0306, 0x0404, 0x0413, 0x0415, 0x0416, 0x0506, 0x0507, 0x0518, 0x0519, 0x0604, 0x0607, 0x0613, 0x0615, 0x0616,
    0x0623, 0x0625, 0x0636, 0x0704, 0x0715, 0x0725, 0x0803, 0x0816, 0x0818].contains op

/-- The opcode may run on the channel in the device's state (step 4). -/
def permitted (d : Dev) (h : Hdr) (op : Nat) (params : Bytes) : Bool :=
  (secureChan h.chan || !secureOnly op params) && (!d.cmd.loader || loaderSet op) &&
  (!decide (d.pwr.run = .tampered) || tamperedSet op)

/-- The command came through a mailbox posted from the local bus. -/
def viaLocalBus (h : Hdr) : Bool := isLb h.path && 16 ≤ h.chan && h.chan < 24

/-- Step 1 of Table 16-2 fails. -/
def headerBad (h : Hdr) : Bool := h.flags.toNat / 2 != 0 || h.status != 0 || h.order != 0

/-- The command executes on this unit alone: TARGET 0, or the peer forwarded it here (R436, R483). -/
def isLocal (h : Hdr) : Bool := h.target == 0 || decide (25 ≤ h.chan)

/-- The checks of Table 16-2 from step 1 to step 7 but the SEQ check of step 2; none where all pass. -/
def acceptFault (d : Dev) (h : Hdr) (op : Nat) (params : Bytes) (hostBuf : Bool) : Option Status :=
  if headerBad h then some .badParam
  else if !permitted d h op params then some .notPermitted
  else if hostBuf && viaLocalBus h then some .wrongChannel
  else if h.plen.toNat != params.length || !h.pad then some .badLength
  else if isLocal h then none
  else if 2 < h.target.toNat then some .badParam
  else if op == 0x0102 || op / 256 == 0x09 || op / 256 == 0x0A || !decide (d.hrd.lane = .up) then some .notPermitted
  else none

/-! ### Replies and completion -/

/-- The 64 bytes of one reply entry (Table 16-1, R435): entry `i` of `n`, of a reply of `total` bytes. -/
def replyEntry (op : Nat) (target : Byte) (seq : W32) (st : Nat) (order : W32) (i n total : Nat) (piece : Bytes) : Bytes :=
  let len := if i = 0 then total else min 48 (total - 48 * i)
  leBytes 2 op ++ [BitVec.ofNat 8 (64 * b2n (i != 0) + 128 * b2n (i + 1 < n)), target] ++ leBytes 4 seq.toNat ++
  leBytes 2 len ++ leBytes 2 st ++ leBytes 4 order.toNat ++ padTo 48 piece

/-- The entries of a reply (R435): one, or up to 15. -/
def replyEntries (op : Nat) (target : Byte) (seq : W32) (st : Nat) (order : W32) (reply : Bytes) : List Bytes :=
  let pieces := if reply.length ≤ 48 then [reply] else chunksOf 48 15 reply
  pieces.zipIdx.map fun e => replyEntry op target seq st order e.2 pieces.length reply.length e.1

/-- Free entries of a completion ring. -/
def cqFree (q : QPair) : Nat := 2 ^ q.cqLog2 - 1 - (q.cqTail + 2 ^ q.cqLog2 - q.cqHead) % 2 ^ q.cqLog2

/-- Writes one entry at the completion tail (R440). -/
def cqWrite (n : Nat) (d : Dev) (e : Bytes) : Dev :=
  let q := pairOf d n
  let d := hostWrite (q.cqBase + BitVec.ofNat 64 (64 * q.cqTail)) e d
  setPair d n { q with cqTail := (q.cqTail + 1) % 2 ^ q.cqLog2 }

/-- A completion on a queue pair: the entries, the write-back, and the notice (R440). -/
def queueReply (n : Nat) (entries : List Bytes) (d : Dev) : Dev :=
  let d := entries.foldl (cqWrite n) d
  let q := pairOf d n
  let d := hostWrite q.cqWb (leBytes 4 q.cqTail) d
  if q.noticeEn && !q.noticed then sendMsix (8 ≤ n) (1 + n % 8) (setPair d n { q with noticed := true }) else d

/-- The outbound mailbox of a mailbox channel (Table 16-7). -/
def outMbox (chan : Nat) : Nat := if chan < 20 then chan - 12 else chan - 8
/-- The inbound mailbox of a mailbox channel (Table 16-7). -/
def inMbox (chan : Nat) : Nat := if chan < 20 then chan - 16 else chan - 12

/-- Sends a reply by its channel: a queue's completion ring, an outbound mailbox, or the peer. -/
def sendReply (h : Hdr) (op : Nat) (st : Nat) (order : W32) (reply : Bytes) (d : Dev) : Dev :=
  let entries := replyEntries op h.target h.seq st order reply
  if h.chan < 16 then queueReply h.chan entries d
  else if h.chan < 24 then
    let m := outMbox h.chan
    let x := mboxOf d m
    let i := inMbox h.chan
    setMbox (setMbox d i { mboxOf d i with taken := none }) m { x with replies := x.replies ++ entries, window := h.path }
  else if h.chan = 24 then d
  else emit (.forwardReply h.chan h.seq (BitVec.ofNat 16 st) order) d

/-- The digest after a command (R485): the CRC-32 of the digest and the packet with SEQ and ORDER 0. -/
def digestAfter (dig : W32) (h : Hdr) (op : Nat) (params : Bytes) : W32 :=
  BitVec.ofNat 32 (crc32 (leBytes 4 dig.toNat ++ leBytes 2 op ++ [h.flags, h.target] ++ leBytes 4 0 ++ leBytes 2 h.plen.toNat ++
    leBytes 2 0 ++ leBytes 4 0 ++ padTo 48 params))

/-- A setting command completed: the digest follows, and one with TARGET 0 clears MIRROR_OK (R485). -/
def digestStep (h : Hdr) (op : Nat) (params : Bytes) (st : Status) (d : Dev) : Dev :=
  if statusGood st && 2 ≤ op / 256 && op / 256 ≤ 8 && !reportOnly op then
    { d with hrd := { d.hrd with
      digest := digestAfter d.hrd.digest h op params
      mirrorHeld := d.hrd.mirrorHeld || (h.target == 0 && h.chan < 24) } }
  else d

/-- The command that executes on a channel. -/
def executingOn (d : Dev) (chan : Nat) : Option Executing := d.cmd.executing.find? fun e => e.hdr.chan == chan

/-- A packet of the start-up replay has completed (R446): the next one follows, or any other status than OK and ACCEPTED stops the replay. -/
def replayStep (st : Status) (d : Dev) : Dev :=
  let r := d.cmd.replay
  if statusGood st then { d with cmd := { d.cmd with replay := { r with packet := r.packet + 1 } } }
  else logEv 0x1908 r.next r.packet (statusCode st) { d with cmd := { d.cmd with replay := { r with running := false, result := 2 } } }

/-- One command ends: ORDER advances, the counters and the digest follow, and the reply goes out (R437, R461); a completion that is lost is
not written (R443). -/
def finishOne (h : Hdr) (op : Nat) (params : Bytes) (st : Status) (reply : Bytes) (d : Dev) : Dev :=
  let lost := (executingOn d h.chan).any Executing.lost
  let order := d.cmd.order + 1
  let ex := d.cmd.executing.filter fun e => e.hdr.chan != h.chan
  let d := { d with cmd := { d.cmd with
    order := order
    executing := ex
    fence := ex.any fun e => bit e.hdr.flags.toNat 0 } }
  let d := bump d 0x04 (match st with
    | .ok => 1
    | .accepted => 1
    | .aborted => 3
    | _ => 2)
  let d := if isLocal h then digestStep h op params st d else d
  let d := if h.chan = 24 then replayStep st d else d
  if lost then d else sendReply h op (statusCode st) order reply d

/-- The aborts that waited for a command complete after it (Table 16-4). -/
def endAborts (chan : Nat) (seq : W32) (d : Dev) : Dev :=
  let due (w : AbortWait) : Bool := w.target == chan && w.seq == seq
  let l := d.cmd.aborts.filter due
  l.foldl (fun d w => match executingOn d w.chan with
    | some e => finishOne e.hdr e.op.toNat e.params .nothingToAbort [] d
    | none => d) { d with cmd := { d.cmd with aborts := d.cmd.aborts.filter fun w => !due w } }

/-- Commands that CMD_ABORT reaches while they execute (Table 16-5). -/
def abortable (op : Nat) : Bool :=
  [0x0411, 0x0602, 0x0611, 0x0621, 0x0415, 0x0518, 0x0816, 0x0105, 0x0A02, 0x0902].contains op

/-- The classes in the arbiter's order (R437): secure mailboxes, secure queues, non-secure mailboxes, non-secure queues; a command of the peer
has the class of its origin. -/
def classOf (chan : Nat) : Nat :=
  if chan = 25 || (20 ≤ chan && chan < 24) then 0
  else if chan = 26 || (8 ≤ chan && chan < 16) then 1
  else if chan = 27 || (16 ≤ chan && chan < 20) then 2
  else 3

/-- The command starts: ORDER advances, the channel is occupied, and the next one of its class has the turn (R437). -/
def startCmd (h : Hdr) (op : Nat) (params : Bytes) (d : Dev) : Dev :=
  let order := d.cmd.order + 1
  bump { d with cmd := { d.cmd with
    order := order
    turns := if h.chan = 24 then d.cmd.turns else lset d.cmd.turns (classOf h.chan) h.chan
    fence := d.cmd.fence || bit h.flags.toNat 0
    executing := d.cmd.executing ++ [{ hdr := h, op := BitVec.ofNat 16 op, params := params, abortable := abortable op, order := order }] } }
    0x04 0

/-- The software can accept a command on a channel (R437, R439, R452): the channel is idle, fewer than four commands execute, and no fence
holds it. Fawn serves channels 8 and 20, one command at a time (R459). -/
def roomFor (d : Dev) (chan : Nat) (fenced : Bool) : Bool :=
  isLive d && (if d.cmd.loader then (chan == 8 || chan == 20) && d.cmd.executing.isEmpty else d.cmd.fwUp) && !d.cmd.fwRestarting &&
  !stalledIn d 4 && (executingOn d chan).isNone && d.cmd.executing.length < 4 && !d.cmd.fence && (!fenced || d.cmd.executing.isEmpty)

/-- A queue runs, and its completion ring has room (R440). -/
def queueReady (q : QPair) : Bool := q.en && !q.stopped && 15 ≤ cqFree q

/-- The channel of an inbound mailbox (Table 16-7). -/
def mboxChan (m : Nat) : Nat := if m < 8 then m + 16 else m + 12

/-! ### The packets that wait -/

/-- OPCODE of a packet. -/
def packetOp (p : Bytes) : Nat := leAt p 0 2
/-- SEQ of a packet. -/
def packetSeq (p : Bytes) : W32 := BitVec.ofNat 32 (leAt p 4 4)
/-- The header of a packet (Table 16-1), as a channel and a path give it. -/
def packetHdr (chan : Nat) (path : Path) (p : Bytes) : Hdr :=
  { chan := chan, path := path, flags := p.getD 2 0, target := p.getD 3 0, seq := packetSeq p, plen := BitVec.ofNat 16 (leAt p 8 2),
    status := BitVec.ofNat 16 (leAt p 10 2), order := BitVec.ofNat 32 (leAt p 12 4), pad := allZero (p.drop (16 + leAt p 8 2)) }

/-- The next packet of the start-up replay (R166, R446): of a batch that is not rejected, once the generation before it has retired. -/
def replayPacket (d : Dev) : Option Bytes :=
  if d.clk.pending.isNone && d.clk.retiring.isNone then
    (replayBatch d).bind fun b => if replayTakes d b then b.packets[d.cmd.replay.packet]? else none
  else none

/-- The packet that a channel has next, and its path: the head of a running queue with room for the completion, the message the firmware has
taken from a mailbox, the next packet of the replay, or a command the peer sent. -/
def nextOn (d : Dev) (chan : Nat) : Option (Path × Bytes) :=
  if chan < 16 then
    let q := pairOf d chan
    if queueReady q then q.fetched.head?.map fun f => (if chan < 8 then .pf0 else .pf1, f.packet) else none
  else if chan < 24 then (mboxOf d (inMbox chan)).taken.map fun t => (t.path, t.packet)
  else if chan = 24 then (replayPacket d).map fun p => (.pf0, p)
  else (d.hrd.arrived.find? fun e => e.1 == chan).map fun e => (.pf0, e.2)

/-- A channel's next packet may be accepted now. -/
def readyOn (d : Dev) (chan : Nat) : Bool := (nextOn d chan).any fun x => roomFor d chan (bit (x.2.getD 2 0).toNat 0)
/-- The channels whose next packet may be accepted now. -/
def readyChans (d : Dev) : List Nat :=
  (d.cmd.queues.map Prod.fst ++ (d.cmd.mailboxes.filter fun e => decide (e.1 % 8 < 4)).map (fun e => mboxChan e.1) ++
    d.hrd.arrived.map Prod.fst).filter (readyOn d)
/-- How far a channel is behind the one last accepted in its class, in the round. -/
def roundOf (d : Dev) (chan : Nat) : Nat := (chan + 31 - d.cmd.turns.getD (classOf chan) 31) % 32
/-- The arbiter takes this channel next (R437): by class, and round-robin within it. The replay's internal channel stands outside. -/
def turnOf (d : Dev) (chan : Nat) : Bool :=
  chan == 24 || (readyChans d).all fun c =>
    decide (classOf chan < classOf c) || (classOf chan == classOf c && decide (roundOf d chan ≤ roundOf d c))

/-- A channel whose next packet has an opcode that the device does not define, and whose turn has come. -/
def nextUndefined (d : Dev) : Option (Hdr × Nat) :=
  ((24 :: readyChans d).find? fun c => readyOn d c && turnOf d c && (nextOn d c).any fun x => !opcodes.contains (packetOp x.2)).bind fun c =>
    (nextOn d c).map fun x => (packetHdr c x.1 x.2, packetOp x.2)

/-- What the queue said of the packet when it was fetched. -/
def fetchedHead (d : Dev) (h : Hdr) : Option Fetched := if h.chan < 16 then (pairOf d h.chan).fetched.head? else none
/-- The SEQ expected in place of the packet's (R441), on a queue. -/
def seqBad (d : Dev) (h : Hdr) : Option W32 := (fetchedHead d h).bind Fetched.bad
/-- CMD_ABORT has named the packet (Table 16-4). -/
def abortNamed (d : Dev) (h : Hdr) : Bool :=
  (fetchedHead d h).any Fetched.abort || (decide (16 ≤ h.chan) && decide (h.chan < 24) && (mboxOf d (inMbox h.chan)).taken.any Taken.abort)

/-- The packet at the head of a channel is taken off it. -/
def takePacket (h : Hdr) (d : Dev) : Dev :=
  if h.chan < 16 then let q := pairOf d h.chan; setPair d h.chan { q with fetched := q.fetched.drop 1 }
  else if h.chan < 25 then d
  else { d with hrd := { d.hrd with arrived := d.hrd.arrived.eraseP fun e => e.1 == h.chan } }

/-- The reply of a failed sequence check (R441). -/
def seqReply (expected : W32) : Bytes := [1, 0, 0, 0] ++ leBytes 4 expected.toNat

/-- Packets with undefined opcodes complete in their turn: ABORTED where CMD_ABORT named them, else by steps 1 to 3 of Table 16-2. The number
bounds how many. -/
def refuseUndefined : Nat → Dev → Dev
  | 0, d => d
  | n + 1, d =>
    match nextUndefined d with
    | none => d
    | some (h, op) =>
      let e := startCmd h op [] (takePacket h d)
      refuseUndefined n (
        if abortNamed d h then finishOne h op [] .aborted [] e
        else if headerBad h then finishOne h op [] .badParam [] e
        else match seqBad d h with
          | some x => finishOne h op [] .badParam (seqReply x) e
          | none => finishOne h op [] .badOpcode [] e)

/-- How many packets the queues, the mailboxes and the peer's channels hold at most, and one of the replay. -/
def waiting (d : Dev) : Nat := d.cmd.queues.foldl (fun n e => n + e.2.fetched.length) (1 + d.cmd.mailboxes.length + d.hrd.arrived.length)

/-- Every packet with an undefined opcode whose turn has come. -/
def refuseWaiting (d : Dev) : Dev := refuseUndefined (waiting d) d

/-- A command ends; the aborts that waited for it, and undefined packets whose turn has come, follow. -/
def finish (h : Hdr) (op : Nat) (params : Bytes) (st : Status) (reply : Bytes) (d : Dev) : Dev :=
  refuseWaiting (endAborts h.chan h.seq (finishOne h op params st reply d))

/-- The status of a code; a code outside Table 16-14 is INTERNAL_FAULT. -/
def statusOf (n : Nat) : Status :=
  (([.ok, .accepted, .badParam, .badOpcode, .badLength, .wrongChannel, .notPermitted, .presenceRequired, .busy, .noResource,
    .generationConflict, .nothingToAbort, .aborted, .authFail, .counterStale, .keyOrphaned] : List Status).find? fun s => statusCode s == n).getD
    .internalFault

/-- A forwarded command ends (R483). -/
def endForward (f : Forwarded) (st : Status) (reply : Bytes) (d : Dev) : Dev :=
  finish f.hdr f.op.toNat f.params st reply
    { d with hrd := { d.hrd with forwarded := d.hrd.forwarded.filter fun g => g.hdr.chan != f.hdr.chan } }

/-- The end of a TARGET 2 command that both units have completed: the local status if it is neither OK nor ACCEPTED, else the peer's. -/
def bothDone (f : Forwarded) (here : Status × Bytes) (there : W16) (d : Dev) : Dev :=
  endForward f (if statusGood here.1 then statusOf there.toNat else here.1) here.2 d

/-- This unit's answer to a command of its own with TARGET 2 waits for the peer's (R483); any other one ends the command. -/
def localAnswer (h : Hdr) (op : Nat) (params : Bytes) (st : Status) (reply : Bytes) (d : Dev) : Dev :=
  match d.hrd.forwarded.find? fun f => f.hdr.chan == h.chan && f.here.isNone && !isLocal h with
  | none => finish h op params st reply d
  | some f =>
    let d := digestStep h op params st d
    match f.there with
    | some t => bothDone f (st, reply) t.1 d
    | none => { d with hrd := { d.hrd with forwarded := d.hrd.forwarded.map fun f =>
        if f.hdr.chan == h.chan then { f with here := some (st, reply) } else f } }

/-- A command that was executing ends. -/
def finishExec (e : Executing) (st : Status) (reply : Bytes) (d : Dev) : Dev := localAnswer e.hdr e.op.toNat e.params st reply d

/-- The answer of an opcode applied: the command ends, or goes on executing, and undefined packets whose turn has come follow. -/
def applyAnswer (h : Hdr) (op : Nat) (params : Bytes) (a : Answer) : Dev :=
  match a.2 with
  | some r => localAnswer h op params r.1 r.2 a.1
  | none => refuseWaiting a.1

/-! ### Acceptance -/

/-- The channel has this command next: its packet is the one that waits there. -/
def channelReady (d : Dev) (h : Hdr) (op : Nat) (params : Bytes) : Bool :=
  (nextOn d h.chan).any fun x => packetHdr h.chan x.1 x.2 == h && packetOp x.2 == op && cut x.2 16 params.length == params

/-- A command may be accepted now: its channel has it next, there is room for it, and the arbiter's turn is the channel's. -/
def canAccept (d : Dev) (h : Hdr) (op : Nat) (params : Bytes) : Bool :=
  roomFor d h.chan (bit h.flags.toNat 0) && channelReady d h op params && turnOf d h.chan

/-- The packet of a command (Table 16-1). -/
def packetBytes (h : Hdr) (op : Nat) (params : Bytes) : Bytes :=
  leBytes 2 op ++ [h.flags, h.target] ++ leBytes 4 h.seq.toNat ++ leBytes 2 h.plen.toNat ++ leBytes 6 0 ++ padTo 48 params

/-- Sends a command to the peer with the parameter block that it carries (R434, R483). -/
def forwardCmd (h : Hdr) (op : Nat) (params block : Bytes) (peerFirst : Bool) (d : Dev) : Dev :=
  let f : Forwarded := { hdr := h, op := BitVec.ofNat 16 op, params := params, here := none, peerFirst := peerFirst,
                         order := d.cmd.order, sentOp := opNs d }
  bump (emit (.forward h.chan (packetBytes h op params) block) { d with hrd := { d.hrd with forwarded := d.hrd.forwarded ++ [f] } }) 0x14 10

/-- GEN_SWITCH and GEN_CANCEL apply on the peer first (R484). -/
def peerFirstOp (op : Nat) : Bool := op == 0x0110 || op == 0x0111

/-- A parameter block as it is read at acceptance (R434): its bytes, or the status of a failed read. -/
abbrev BlockRead := Option Status × Bytes

/-- The command executes by its TARGET (R436, R483, R484); what goes to the peer carries its block. -/
def executeCmd (h : Hdr) (op : Nat) (params : Bytes) (block : Dev → BlockRead) (body : Dev → Answer) (d : Dev) : Dev :=
  if isLocal h then applyAnswer h op params (body d)
  else match block d with
    | (some st, _) => finish h op params st [] d
    | (none, b) =>
      if h.target = 1 then refuseWaiting (forwardCmd h op params b false d)
      else if peerFirstOp op then refuseWaiting (forwardCmd h op params b true d)
      else applyAnswer h op params (body (forwardCmd h op params b false d))

/-- A command packet that its channel gives: acceptance, the checks of Table 16-2 in order, then the opcode's own checks
and effect. A packet that no channel has next, or whose turn has not come, has no effect (log entry 7). -/
def acceptCmd (h : Hdr) (op : Nat) (params : Bytes) (hostBuf : Bool) (block : Dev → BlockRead) (body : Dev → Answer) (d : Dev) : Dev :=
  if canAccept d h op params then
    let e := startCmd h op params (takePacket h d)
    if abortNamed d h then finish h op params .aborted [] e
    else if headerBad h then finish h op params .badParam [] e
    else match seqBad d h with
      | some x => finish h op params .badParam (seqReply x) e
      | none => match acceptFault d h op params hostBuf with
        | some st => finish h op params st [] e
        | none => executeCmd h op params block body e
  else d

/-- No parameter block. -/
def noBlock (_ : Dev) : BlockRead := (none, [])

/-- A command packet as a step of the machine. -/
def cmdWith (h : Hdr) (op : Nat) (params : Bytes) (hostBuf : Bool) (block : Dev → BlockRead) (body : Dev → Answer) :
    State → Host.Outcome State Fault Refusal := run (acceptCmd h op params hostBuf block body)

/-- A command without a parameter block. -/
def cmd (h : Hdr) (op : Nat) (params : Bytes) (hostBuf : Bool) (body : Dev → Answer) :
    State → Host.Outcome State Fault Refusal := cmdWith h op params hostBuf noBlock body

/-- A command without host buffer. -/
def cmdPlain (h : Hdr) (op : Nat) (params : Bytes) (body : Dev → Answer) : State → Host.Outcome State Fault Refusal :=
  cmd h op params false body

/-! ### Parameter blocks (R434) -/

/-- The window of a path: 4 KiB of parameter memory, or the FWL window of 64 KiB. -/
def windowOf (d : Dev) (h : Hdr) : List (Nat × Byte) :=
  if isSecure h.path then d.cmd.fwlWindow else if isLb h.path then d.cmd.paramLb else d.cmd.paramPf0
/-- The size of a path's window. -/
def windowSize (h : Hdr) : Nat := if isSecure h.path then 65536 else 4096
/-- Bytes of a window. -/
def windowBytes (w : List (Nat × Byte)) (off n : Nat) : Bytes := (rangeFrom off n).map (mget 0 w)

/-- What is wrong with a parameter block of a fixed length; one that the peer sent along was read there (R434). -/
def blockFault (h : Hdr) (src : BlockSrc) (len : Nat) : Option Status :=
  if 25 ≤ h.chan then none
  else if 1 < src.kind.toNat then some .badParam
  else if src.len.toNat != len || (src.kind = 1 && windowSize h < src.addr.toNat + len) then some .badLength
  else if src.kind = 0 && src.addr.toNat % 4 != 0 then some .badParam
  else if src.kind = 0 && !src.readOk then some .internalFault
  else none
/-- The bytes of a parameter block: `given` is what the host buffer holds or the peer sent along; a window gives its own bytes. -/
def paramBytes (h : Hdr) (src : BlockSrc) (len : Nat) (given : Bytes) (d : Dev) : Bytes :=
  if src.kind = 1 && h.chan < 25 then windowBytes (windowOf d h) src.addr.toNat len else cut given 0 len
/-- A parameter block, read at acceptance before the opcode's own checks. -/
def withBlock (h : Hdr) (src : BlockSrc) (len : Nat) (given : Bytes) (eff : Bytes → Dev → Answer) (d : Dev) : Answer :=
  match blockFault h src len with
  | some st => reject st d
  | none => eff (paramBytes h src len given d) d

/-- The 11 bytes of a block source in PARAM. -/
def BlockSrc.bytes (s : BlockSrc) : Bytes := [s.kind] ++ leBytes 8 s.addr.toNat ++ leBytes 2 s.len.toNat

/-- A command with a parameter block. -/
def cmdBlock (h : Hdr) (op : Nat) (src : BlockSrc) (len : Nat) (given : Bytes) (eff : Bytes → Dev → Answer) :
    State → Host.Outcome State Fault Refusal :=
  cmdWith h op (BlockSrc.bytes src) (src.kind = 0) (fun d => (blockFault h src len, paramBytes h src len given d))
    (withBlock h src len given eff)

/-- The bytes of a parameter of whole bytes. -/
def pk {w : Nat} (v : BitVec w) : Bytes := leBytes (w / 8) v.toNat

end Sys2Proof.Machine
end

