-- ==== Sys2Proof/Machine/Operands.lean ====
section
/-!
DEFINITION. The operand forms of the commands: each parameter structure laid out as the packet carries it, in the order and
widths of its opcode's table, without padding (R433).
-/
namespace Sys2Proof

open Sys2Proof.Machine (pk leBytes beBytes)

/-- 46 bytes; addresses in network byte order (R555). -/
def StreamKeyP.bytes (p : StreamKeyP) : Bytes :=
  pk p.stream ++ pk p.quals ++ pk p.port ++ pk p.vid ++ pk p.kind ++ pk p.disc ++ pk p.dstPort ++ pk p.srcPort ++
  beBytes 16 p.srcAddr.toNat ++ beBytes 16 p.dstAddr.toNat

/-- 25 bytes. -/
def StreamDefP.bytes (p : StreamDefP) : Bytes :=
  pk p.stream ++ pk p.kind ++ pk p.version ++ pk p.timeBase ++ pk p.rate ++ pk p.firstChan ++ pk p.count ++
  pk p.blocks ++ pk p.dataLen ++ pk p.flags ++ pk p.confRev

/-- 21 bytes; the address in network byte order (DEDUCED from R555, log entry 11). -/
def IpAddrP.bytes (p : IpAddrP) : Bytes :=
  pk p.port ++ pk p.version ++ pk p.entry ++ pk p.enable ++ beBytes 16 p.addr.toNat ++ pk p.plen

/-- 22 bytes. -/
def HostRingP.bytes (p : HostRingP) : Bytes :=
  pk p.ring ++ pk p.base ++ pk p.size ++ pk p.wb ++ pk p.enable

/-- 32 bytes. -/
def DirEntry.bytes (p : DirEntry) : Bytes :=
  pk p.q0 ++ pk p.q1 ++ pk p.q2 ++ pk p.q3

/-- 32 bytes. -/
def ScaleEntry.bytes (p : ScaleEntry) : Bytes :=
  pk p.k ++ pk p.b ++ pk p.theta0 ++ pk p.mask ++ pk p.flags ++ pk p.res ++ pk p.const

/-- 29 bytes. -/
def OstreamDefP.bytes (p : OstreamDefP) : Bytes :=
  pk p.ostream ++ pk p.rate ++ pk p.firstMemb ++ pk p.membCount ++ pk p.maxWait ++ pk p.lagLimit ++
  pk p.guardUs ++ pk p.qtail ++ pk p.defWait ++ pk p.missLimit ++ pk p.amend

/-- 11 bytes. -/
def MemberP.bytes (p : MemberP) : Bytes :=
  pk p.index ++ pk p.ostream ++ pk p.stream ++ pk p.sel ++ pk p.wait ++ pk p.decimate

/-- 33 bytes. -/
def EstConfigP.bytes (p : EstConfigP) : Bytes :=
  pk p.enable ++ pk p.ostream ++ pk p.stream ++ pk p.alpha ++ pk p.rnLimit ++ pk p.bdMax ++ pk p.xmax ++
  pk p.leaveN ++ pk p.joinN ++ pk p.holdSlots ++ pk p.ziSigma ++ pk p.pivotTol ++ pk p.critTol ++ pk p.chiN ++
  pk p.suspectN ++ pk p.unsolvedN ++ pk p.obsLimit

/-- 14 bytes. -/
def PortConfigP.bytes (p : PortConfigP) : Bytes :=
  pk p.port ++ pk p.mode ++ pk p.fec ++ pk p.an ++ pk p.polarity ++ pk p.maxLen ++ pk p.pause ++ pk p.arpTags ++
  pk p.arpTpid ++ pk p.arpOuter ++ pk p.arpInner

/-- 9 bytes. -/
def VlanFilterP.bytes (p : VlanFilterP) : Bytes :=
  pk p.port ++ pk p.untagged ++ pk p.extraTpid ++ pk p.firstVid ++ pk p.lastVid ++ pk p.set

/-- 9 bytes. -/
def MacsecConfigP.bytes (p : MacsecConfigP) : Bytes :=
  pk p.port ++ pk p.enable ++ pk p.conf ++ pk p.sci ++ pk p.ptpClear ++ pk p.replay

/-- 27 bytes. -/
def MacsecSaP.bytes (p : MacsecSaP) : Bytes :=
  pk p.port ++ pk p.dir ++ pk p.sc ++ pk p.sci ++ pk p.an ++ pk p.slot ++ pk p.ssci ++ pk p.pn ++ pk p.install

/-- 27 bytes. -/
def RingP.bytes (p : RingP) : Bytes :=
  pk p.ring ++ pk p.base ++ pk p.log2 ++ pk p.wb ++ pk p.watermark ++ pk p.staleT ++ pk p.enable

/-- 16 bytes. -/
def SigKeyP.bytes (p : SigKeyP) : Bytes :=
  pk p.index ++ pk p.binding ++ pk p.keyId ++ pk p.slot ++ pk p.timeOfKey ++ pk p.timeToNext ++ pk p.swap

/-- 14 bytes. -/
def PtpPortP.bytes (p : PtpPortP) : Bytes :=
  pk p.port ++ pk p.enable ++ pk p.profile ++ pk p.domain ++ pk p.priority1 ++ pk p.priority2 ++ pk p.slaveOnly ++
  pk p.peerAddr ++ pk p.vid ++ pk p.pcp ++ pk p.gmId ++ pk p.variance

/-- 32 bytes. -/
def TimeOutputsP.bytes (p : TimeOutputsP) : Bytes :=
  pk p.ppsEn ++ pk p.ppsUtc ++ pk p.ppsOff0 ++ pk p.ppsOff1 ++ pk p.ppsWidth0 ++ pk p.ppsWidth1 ++ pk p.ref10En ++
  pk p.ref10Off ++ pk p.irigEn ++ pk p.irigB005 ++ pk p.irigLocal ++ pk p.irigOff ++ pk p.serEn ++ pk p.serBaud

/-- 7 bytes. -/
def LeapP.bytes (p : LeapP) : Bytes :=
  pk p.t ++ pk p.off

/-- 3 bytes. -/
def LmfClockP.bytes (p : LmfClockP) : Bytes :=
  pk p.d ++ pk p.enable ++ pk p.edges

/-- 12 bytes. -/
def LmfChanP.bytes (p : LmfChanP) : Bytes :=
  pk p.chan ++ pk p.enable ++ pk p.r ++ pk p.median ++ pk p.pd ++ pk p.fs

/-- 8 bytes. -/
def LmfPmuP.bytes (p : LmfPmuP) : Bytes :=
  pk p.circuit ++ pk p.enable ++ pk p.rate ++ pk p.cls ++ pk p.fnom ++ pk p.stream

/-- 16 bytes. -/
def MtrConfigP.bytes (p : MtrConfigP) : Bytes :=
  pk p.circuit ++ pk p.enable ++ pk p.conn ++ pk p.fnom ++ pk p.iN ++ pk p.uN ++ pk p.creep

/-- 14 bytes. -/
def MtrPulseP.bytes (p : MtrPulseP) : Bytes :=
  pk p.output ++ pk p.circuit ++ pk p.reg ++ pk p.kp ++ pk p.width ++ pk p.drive ++ pk p.active ++ pk p.enable

/-- 5 bytes. -/
def EventConfigP.bytes (p : EventConfigP) : Bytes :=
  pk p.pin ++ pk p.mode ++ pk p.drive ++ pk p.active ++ pk p.edges

/-- 8 bytes. -/
def AlmPinP.bytes (p : AlmPinP) : Bytes :=
  pk p.pin ++ pk p.enable ++ pk p.drive ++ pk p.active ++ pk p.width

/-- 14 bytes. -/
def HrdConfigP.bytes (p : HrdConfigP) : Bytes :=
  pk p.enable ++ pk p.pairId ++ pk p.mask ++ pk p.pairWait ++ pk p.timeOut ++ pk p.auto ++ pk p.asym

/-- The parameters of a table load: with the table code where the command has one. -/
def LoadP.bytes (p : LoadP) (withTable : Bool) : Bytes :=
  (if withTable then pk p.table else []) ++ pk p.source ++ pk p.addr ++ pk p.first ++ pk p.count ++ pk p.crc

end Sys2Proof
end

