-- ==== Sys2Proof/Machine/Staging.lean ====
section
/-!
DEFINITION. The staged generation (R20 to R22): its change set, the refusal between GEN_SWITCH and the switch tick, and its
number.
-/
namespace Sys2Proof.Machine

/-- A set of numbers in rising order with one more. -/
def addKey (k : Nat) : List Nat → List Nat
  | [] => [k]
  | x :: t => if k < x then k :: x :: t else if k = x then x :: t else x :: addKey k t

/-- A set of numbers with several more. -/
def addKeys (ks l : List Nat) : List Nat := ks.foldl (fun l k => addKey k l) l

/-- Data-path configuration is refused: a switch is accepted and its switch tick has not begun (R22). -/
def stagedShut (d : Dev) : Bool := d.clk.pending.isSome

/-- The number of the staged generation (R21). -/
def stagedNum (d : Dev) : W16 := d.clk.gen + 1

/-- Keys of the change set: a stream, a membership, an O-stream. -/
def keyStream (i : Nat) : Nat := i
/-- See `keyStream`. -/
def keyMemb (i : Nat) : Nat := 2 ^ 24 + i
/-- See `keyStream`. -/
def keyOstream (i : Nat) : Nat := 2 * 2 ^ 24 + i

/-- Writes the staged generation with its change set; beyond a limit of R20 NO_RESOURCE, and nothing changes. -/
def stage (dirKeys otherKeys : List Nat) (f : Gen → Gen) (d : Dev) : Answer :=
  let a := addKeys dirKeys d.clk.chgDir
  let b := addKeys otherKeys d.clk.chgOther
  if d.clk.firstBuilt && (4194304 < a.length || 262144 < b.length) then reject .noResource d
  else okay { d with staged := f d.staged, clk := { d.clk with chgDir := a, chgOther := b } }

/-- A staging command: refused in the window of R22, then its own checks, then the change set. -/
def stageWith (bad : Bool) (dirKeys otherKeys : List Nat) (f : Gen → Gen) (d : Dev) : Answer :=
  checks [(stagedShut d, .generationConflict), (bad, .badParam)] (stage dirKeys otherKeys f) d

/-- Staging outside the two limits (templates, images, plans, models). -/
def stageFree (bad : Bool) (f : Gen → Gen) (d : Dev) : Answer := stageWith bad [] [] f d

end Sys2Proof.Machine
end

