-- ==== Sys2Proof/Machine/Dir.lean ====
section
/-!
DEFINITION. The channel directory (chapter 5): entry fields, the rules of Table 5-6, loads, reads and the indirect window.
-/
namespace Sys2Proof

open Sys2Proof.Machine (bits bit)

/-! ### Entry fields (Table 5-1) -/

/-- TYPE. -/
def DirEntry.type (e : DirEntry) : Nat := bits e.q0.toNat 60 4
/-- FORMAT. -/
def DirEntry.format (e : DirEntry) : Nat := bits e.q0.toNat 56 4
/-- QUAL. -/
def DirEntry.qual (e : DirEntry) : Bool := bit e.q0.toNat 55
/-- STATUS_ROLE. -/
def DirEntry.statusRole (e : DirEntry) : Bool := bit e.q0.toNat 54
/-- STREAM. -/
def DirEntry.stream (e : DirEntry) : Nat := bits e.q0.toNat 36 18
/-- BYTEPOS. -/
def DirEntry.pos (e : DirEntry) : Nat := bits e.q0.toNat 20 16
/-- BLOCK. -/
def DirEntry.block (e : DirEntry) : Nat := bits e.q0.toNat 9 11
/-- FNOM: 60 Hz. -/
def DirEntry.fnom (e : DirEntry) : Bool := bit e.q0.toNat 8
/-- SCALE. -/
def DirEntry.scale (e : DirEntry) : Nat := bits e.q1.toNat 48 16
/-- LIMIT. -/
def DirEntry.limit (e : DirEntry) : Nat := bits e.q1.toNat 32 16
/-- NOMINAL. -/
def DirEntry.nominal (e : DirEntry) : W32 := BitVec.ofNat 32 e.q1.toNat
/-- PUBSEL. -/
def DirEntry.pubsel (e : DirEntry) : Nat := bits e.q2.toNat 48 16
/-- HRATE. -/
def DirEntry.hrate (e : DirEntry) : Nat := bits e.q2.toNat 43 5
/-- EST. -/
def DirEntry.est (e : DirEntry) : Bool := bit e.q2.toNat 42
/-- OSC. -/
def DirEntry.osc (e : DirEntry) : Bool := bit e.q2.toNat 41
/-- ISL_TOPO. -/
def DirEntry.islTopo (e : DirEntry) : Bool := bit e.q2.toNat 40
/-- ISL_COH. -/
def DirEntry.islCoh (e : DirEntry) : Bool := bit e.q2.toNat 39
/-- SUBST. -/
def DirEntry.subst (e : DirEntry) : Nat := bits e.q2.toNat 36 3
/-- HOLD_MAX. -/
def DirEntry.holdMax (e : DirEntry) : Nat := bits e.q2.toNat 28 8
/-- QTY. -/
def DirEntry.qty (e : DirEntry) : Nat := bits e.q2.toNat 26 2
/-- SUBST_SRC. -/
def DirEntry.substSrc (e : DirEntry) : Bool := bit e.q2.toNat 25
/-- ORIGIN. -/
def DirEntry.origin (e : DirEntry) : Nat := bits e.q3.toNat 61 3
/-- OUTNUM. -/
def DirEntry.outnum (e : DirEntry) : Nat := bits e.q3.toNat 40 21
/-- GEN_SET. -/
def DirEntry.genSet (e : DirEntry) : Nat := bits e.q3.toNat 0 16
/-- The entry with GEN_SET as the device sets it. -/
def DirEntry.withGen (e : DirEntry) (g : W16) : DirEntry :=
  { e with q3 := BitVec.ofNat 64 (e.q3.toNat / 65536 * 65536 + g.toNat) }

end Sys2Proof

namespace Sys2Proof.Machine

/-- The directory entry nothing has written: UNUSED. -/
def noEntry : DirEntry := { q0 := 0, q1 := 0, q2 := 0, q3 := 0 }
/-- The entry of a channel in a generation. -/
def entryOf (g : Gen) (chan : Nat) : DirEntry := mget noEntry g.dir chan

/-- The rate an HRATE code names (R149), 0 for none. -/
def hrateOf (code : Nat) : Nat := if code = 0 then 0 else lget 0 rates (code - 1)

/-- Bytes of a field by FORMAT (Table 5-3). -/
def formatLen (f : Nat) : Nat := [8, 4, 4, 8, 8, 2, 4, 2, 8, 4, 4, 1, 4].getD f 0

/-- Bytes a channel takes in a frame: its field and its quality. -/
def entryLen (e : DirEntry) : Nat := formatLen e.format + if e.qual then 4 else 0

/-- Scaling entry 0 (R147): K = 1, B = 0, mask 0xFFFF. -/
def scale0 : ScaleEntry := { k := 0x3FF0000000000000, b := 0, theta0 := 0, mask := 0xFFFF, flags := 0, res := 0, const := 0 }

/-- A scaling entry that nothing has written: the spec gives no content, and the model gives it that of entry 0 (log
entry 3). -/
def scaleOf (g : Gen) (i : Nat) : ScaleEntry := mget scale0 g.scale i

/-! ### The rules of Table 5-6 -/

/-- Stream kind codes (Table 4-1). -/
def kindNum (k : StreamKind) : Nat :=
  match k with
  | .c37Udp => 0 | .svUdp => 1 | .hostC37 => 2 | .hostSv => 3 | .locl => 4 | .derived => 5

/-- The kind is C37.118.2. -/
def isC37 (k : StreamKind) : Bool := decide (k = .c37Udp) || decide (k = .hostC37)
/-- The kind is sampled values. -/
def isSv (k : StreamKind) : Bool := decide (k = .svUdp) || decide (k = .hostSv)

/-- The formats a TYPE may use (Table 5-2). -/
def typeFormats (t : Nat) : List Nat :=
  [[0], [1, 2, 3, 4, 8, 0], [5, 6, 9, 0], [5, 6, 9, 0], [5, 6, 9, 10, 0], [7, 11, 12, 0], [0, 1, 2]].getD t []

/-- The lowest row of Table 5-6 among rows 1 to 4 that an entry breaks. -/
def writeFault (e : DirEntry) : Option Nat :=
  if 6 < e.type || 12 < e.format || 4 < e.origin || 4 < e.subst || bits e.q0.toNat 0 8 != 0 || bits e.q2.toNat 0 25 != 0 ||
      bits e.q3.toNat 16 24 != 0 then some 1
  else if !(typeFormats e.type).contains e.format || (e.subst = 2 && !(2 ≤ e.type && e.type ≤ 4)) ||
      (e.statusRole && e.subst != 0) then some 2
  else if (e.qual && !(8 ≤ e.format && e.format ≤ 12)) || (e.statusRole && e.type != 5) then some 3
  else if 16 < e.hrate || decide (e.holdMax = 0) != decide (e.subst != 1) then some 4
  else none

/-- A channel lies within a stream's run (R108). -/
def inRun (s : StreamDef) (chan : Nat) : Bool := s.firstChan ≤ chan && chan < s.firstChan + s.count

/-- The stream of an entry, where it is defined and its run holds the channel (row 5). -/
def rowStream (g : Gen) (chan : Nat) : Option StreamDef :=
  match mfind g.streams (entryOf g chan).stream with
  | some s => if inRun s chan then some s else none
  | none => none

/-- The channels of a stream's run that bind to it, below a channel, in rising order. -/
def runBefore (g : Gen) (s : StreamDef) (stream chan : Nat) : List Nat :=
  (rangeFrom s.firstChan (chan - s.firstChan)).filter fun c => (entryOf g c).type != 0 && (entryOf g c).stream = stream

/-- Row 6: the kind agrees with TYPE and FORMAT. -/
def kindFits (s : StreamDef) (e : DirEntry) : Bool :=
  if decide (s.kind = .derived) then e.type = 6
  else e.type != 6 &&
    (if decide (s.kind = .locl) then e.format = 0
     else if isC37 s.kind then 1 ≤ e.format && e.format ≤ 7
     else 8 ≤ e.format && e.format ≤ 12)

/-- A channel without a field in the data: the status channel of a sampled-value layout, which the parser builds (R120). -/
def noField (g : Gen) (s : StreamDef) (chan : Nat) : Bool :=
  isSv s.kind && (entryOf g chan).statusRole && (runBefore g s (entryOf g chan).stream chan).isEmpty

/-- Where a channel's field ends in the data, 0 for one without. -/
def fieldEnd (g : Gen) (s : StreamDef) (chan : Nat) : Nat :=
  if noField g s chan then 0 else (entryOf g chan).pos + entryLen (entryOf g chan)

/-- Row 7: the field lies in the data, after every field of a channel before it; of two fields that meet, the later channel's breaks the
row. -/
def placeFits (g : Gen) (s : StreamDef) (chan : Nat) : Bool :=
  let e := entryOf g chan
  if decide (s.kind = .locl) || decide (s.kind = .derived) then e.pos = chan - s.firstChan
  else noField g s chan ||
    (e.pos + entryLen e ≤ s.dataLen && (runBefore g s e.stream chan).all fun c => decide (fieldEnd g s c ≤ e.pos))

/-- Row 8: HRATE obeys R149 and HOLD obeys R154. -/
def rateFits (s : StreamDef) (e : DirEntry) : Bool :=
  let f := hrateOf e.hrate
  (e.hrate = 0 || (f ≤ s.rate && periodTicks f % periodTicks s.rate = 0)) && (e.subst != 1 || f = s.rate)

/-- The channels before one in its group for rows 9 and 10: its block, or the whole run of a stream without blocks. -/
def groupBefore (g : Gen) (s : StreamDef) (chan : Nat) : List Nat :=
  let e := entryOf g chan
  (runBefore g s e.stream chan).filter fun c => !isC37 s.kind || (entryOf g c).block = e.block

/-- Row 9: the FNOM of the group's first channel. -/
def fnomFits (g : Gen) (s : StreamDef) (chan : Nat) : Bool :=
  match groupBefore g s chan with
  | [] => true
  | c :: _ => (entryOf g c).fnom == (entryOf g chan).fnom

/-- Row 10: the first channel of a C37.118.2 block, or of a sampled-value layout, is its status channel, and no later one of
a block is. -/
def statusFits (g : Gen) (s : StreamDef) (chan : Nat) : Bool :=
  let e := entryOf g chan
  match groupBefore g s chan with
  | [] => !(isC37 s.kind || isSv s.kind) || e.statusRole
  | _ => !isC37 s.kind || !e.statusRole

/-- The engine whose configuration names a DERIVED stream: its ORIGIN code. -/
def engineOf (g : Gen) (stream : Nat) : Option Nat :=
  if g.est.config.enable && g.est.config.stream = stream then some 2
  else if (match g.osc.config with
      | some c => c.enable && (c.modeStream = stream || c.foStream = stream)
      | none => false) then some 3
  else if (match g.isl.config with
      | some c => c.enable && (c.topoStream = stream || c.cohStream = stream)
      | none => false) then some 4
  else none

/-- Row 11: ORIGIN and OUTNUM. -/
def originFits (g : Gen) (s : StreamDef) (e : DirEntry) : Bool :=
  if e.type = 6 then decide (engineOf g e.stream = some e.origin)
  else e.outnum = 0 && e.origin = b2n (decide (s.kind = .locl))

/-- The rows of Table 5-6 from 5 on that the entry of a channel breaks, lowest first. -/
def rowFaults (g : Gen) (chan : Nat) : List Nat :=
  let e := entryOf g chan
  if e.type = 0 then []
  else match rowStream g chan with
    | none => [5]
    | some s =>
      (if kindFits s e then [] else [6]) ++ (if placeFits g s chan then [] else [7]) ++
      (if rateFits s e then [] else [8]) ++ (if fnomFits g s chan then [] else [9]) ++
      (if statusFits g s chan then [] else [10]) ++ (if originFits g s e then [] else [11])

/-- A position of a stream's run yields a value (R108, R158): its entry names the stream and breaks none of rows 5, 6, 7
and 10, nor row 11 where it is a derived output. -/
def yields (g : Gen) (stream chan : Nat) : Bool :=
  let e := entryOf g chan
  e.type != 0 && e.stream = stream && (rowFaults g chan).all fun r => r = 8 || r = 9 || (r = 11 && e.type != 6)

/-- A HOLD may be used (R154, R158). -/
def holdUsable (g : Gen) (chan : Nat) : Bool := !(rowFaults g chan).contains 8

/-- Values not produced under R158: counted, and summarised once per second. -/
def layoutSkip (chan n : Nat) (d : Dev) : Dev := if n = 0 then d else tally tallySkip 0 n chan (bumpN d 0x08 1 n)

/-! ### Commands -/

/-- The directory's size (R142). -/
def dirSize : Nat := 33554432

/-- The reply of a failed entry check (R156): the channel and the row. -/
def dirFault (chan row : Nat) (d : Dev) : Answer := (d, some (.badParam, leBytes 4 chan ++ [BitVec.ofNat 8 row]))

/-- Writes entries from a channel on; an UNUSED entry keeps its GEN_SET. -/
def putEntries (g : W16) (first : Nat) (es : List DirEntry) (x : Gen) : Gen :=
  { x with dir := es.zipIdx.foldl (fun m e => mput noEntry m (first + e.2) (e.1.withGen g)) x.dir }

/-- Entries written in one step (R156, R159, R160). -/
def writeEntries (first : Nat) (es : List DirEntry) (d : Dev) : Answer :=
  match es.zipIdx.findSome? fun e => (writeFault e.1).map fun r => (first + e.2, r) with
  | some f => dirFault f.1 f.2 d
  | none => stage (rangeFrom first es.length) [] (putEntries (stagedNum d) first es) d

/-- DIR_WRITE (R156). -/
def execDirWrite (h : Hdr) (chan : W32) (e : DirEntry) : State → Host.Outcome State Fault Refusal :=
  cmdPlain h 0x0410 (pk chan ++ e.bytes) fun d =>
    checks [(stagedShut d, .generationConflict), (dirSize ≤ chan.toNat, .badParam)] (writeEntries chan.toNat [e]) d

/-- A range within a table of a size, not empty. -/
def rangeBad (size first count : Nat) : Bool := count = 0 || size < first + count

/-- Starts a table load (R160, R258, R284, R300): kind 0 a host buffer, kind 1 a section of a batch in replay, which
the batch must have. -/
def loadChecks (h : Hdr) (size : Nat) (p : LoadP) (start : Dev → Answer) (d : Dev) : Answer :=
  checks [(stagedShut d, .generationConflict), (1 < p.source.toNat || rangeBad size p.first.toNat p.count.toNat, .badParam),
    (p.source = 1 && h.chan != 24, .notPermitted),
    (p.source = 1 && (replaySection d p.addr.toNat).isNone, .badParam)] start d

/-- A load that starts for a command. -/
def loadRun (h : Hdr) (p : LoadP) : LoadRun := { chan := h.chan, seq := h.seq, p := p, conflict := false }

/-- A load's command ends. -/
def finishLoad (l : LoadRun) (st : Status) (reply : Bytes) (d : Dev) : Dev :=
  match executingOn d l.chan with
  | some e => finishExec e st reply d
  | none => d

/-- DIR_LOAD (R160). -/
def execDirLoad (h : Hdr) (p : LoadP) : State → Host.Outcome State Fault Refusal :=
  cmd h 0x0411 (p.bytes false) (p.source = 0) (loadChecks h dirSize p fun d =>
    goesOn { d with dir := { d.dir with loads := d.dir.loads ++ [loadRun h p] } })

/-- The entry in 32 bytes. -/
def dirEntryOf (b : Bytes) : DirEntry :=
  { q0 := BitVec.ofNat 64 (leAt b 0 8), q1 := BitVec.ofNat 64 (leAt b 8 8), q2 := BitVec.ofNat 64 (leAt b 16 8),
    q3 := BitVec.ofNat 64 (leAt b 24 8) }

/-- What a load's buffer gives (R160), the host's or the section of the batch in replay: a conflict, a failed read, a section too short or
a CRC mismatch, or its answer by `eff`. -/
def loadAnswer (l : LoadRun) (width : Nat) (data : Bytes) (readOk : Bool) (eff : Bytes → Dev → Answer) (d : Dev) : Answer :=
  let n := width * l.p.count.toNat
  let own := l.p.source = 1
  let given := if own then (replaySection d l.p.addr.toNat).getD [] else data
  let b := cut given 0 n
  checks [(l.conflict, .generationConflict), (!own && !readOk, .internalFault), ((own && given.length < n) || crc32 b != l.p.crc.toNat, .badParam)]
    (eff b) d

/-- The answer of a load applied to its command. -/
def endLoad (l : LoadRun) (a : Answer) : Dev :=
  match a.2 with
  | some r => finishLoad l r.1 r.2 a.1
  | none => a.1

/-- DIR_LOAD_DONE: the oldest load reaches its step (R159, R160). -/
def execDirLoadDone (data : Bytes) (readOk : Bool) : State → Host.Outcome State Fault Refusal := runLive fun d =>
  match d.dir.loads with
  | [] => d
  | l :: rest =>
    let first := l.p.first.toNat
    let d := { d with dir := { d.dir with loads := rest } }
    let a := loadAnswer l 32 data readOk (fun b => writeEntries first ((chunksOf 32 l.p.count.toNat b).map dirEntryOf)) d
    endLoad l (if decide (a.2 = some (.ok, [])) then (logEv 0x0801 first l.p.count.toNat l.p.source.toNat a.1, a.2) else a)

/-- DIR_CLEAR: the entries become UNUSED in the staged generation. -/
def execDirClear (h : Hdr) (first count : W32) : State → Host.Outcome State Fault Refusal :=
  cmdPlain h 0x0412 (pk first ++ pk count) fun d =>
    let f := first.toNat
    let n := count.toNat
    stageWith (rangeBad dirSize f n) (rangeFrom f n) [] (putEntries (stagedNum d) f (List.replicate n noEntry)) d

/-- A read of a channel's or scaling entry's bytes, with the generation it came from (R161, R162): `gsel` the staged one. -/
def readEntry (d : Dev) (gsel scale : Bool) (i : Nat) : Bytes × W16 :=
  let key := if scale then 2 ^ 25 + i else i
  let g := if gsel then d.staged else d.cur
  (if scale then (scaleOf g i).bytes else (entryOf g i).bytes,
   if gsel && d.clk.chgDir.contains key then stagedNum d else d.clk.gen)

/-- DIR_READ. -/
def execDirRead (h : Hdr) (chan : W32) (gsel : Byte) : State → Host.Outcome State Fault Refusal :=
  cmdPlain h 0x0413 (pk chan ++ [gsel]) fun d =>
    checks [(dirSize ≤ chan.toNat || 1 < gsel.toNat, .badParam)]
      (fun d => let r := readEntry d (gsel = 1) false chan.toNat; okayWith (r.1 ++ pk r.2) d) d

/-- DIR_SCALE_WRITE (R147). -/
def execDirScaleWrite (h : Hdr) (index : W16) (e : ScaleEntry) : State → Host.Outcome State Fault Refusal :=
  cmdPlain h 0x0414 (pk index ++ e.bytes) fun d =>
    stageWith (index = 0 || e.res != 0 || e.flags.toNat / 2 != 0 || !f64Fin e.k || (f64Q e.k).1 = 0 || !f64Fin e.b || !f32Fin e.theta0)
      [2 ^ 25 + index.toNat] [] (fun g => { g with scale := mset g.scale index.toNat e }) d

/-- DIR_VALIDATE (R157): rows 5 to 11 of the staged generation (rows 1 to 4 hold of every written entry). -/
def execDirValidate (h : Hdr) (first count : W32) : State → Host.Outcome State Fault Refusal :=
  cmdPlain h 0x0415 (pk first ++ pk count) fun d =>
    let f := first.toNat
    let n := count.toNat
    checks [(dirSize ≤ f || dirSize < f + n, .badParam)] (fun d =>
      let l := (d.staged.dir.map Prod.fst).filter fun c => n = 0 || (f ≤ c && c < f + n)
      let bad := l.filterMap fun c => (rowFaults d.staged c).head?.map fun r => (c, r)
      let x := bad.head?.getD (0, 0)
      okayWith (leBytes 4 bad.length ++ leBytes 4 x.1 ++ [BitVec.ofNat 8 x.2])
        (if bad.isEmpty then d else logEv 0x0803 bad.length x.1 x.2 d)) d

/-- DIR_USED: entries of the current generation that are not UNUSED. -/
def dirUsed (d : Dev) : Nat := (d.cur.dir.filter fun e => e.2.type != 0).length

/-- DIR_CHG: directory and scaling entries of the change set, 0 while generation 0x0001 is built in place. -/
def dirChg (d : Dev) : Nat := if d.clk.firstBuilt then d.clk.chgDir.length else 0

/-- DIR_STATUS. -/
def execDirStatus (h : Hdr) : State → Host.Outcome State Fault Refusal :=
  cmdPlain h 0x0416 [] fun d => okayWith (leBytes 4 (dirUsed d) ++ leBytes 4 (dirChg d) ++ pk d.clk.gen ++ pk (stagedNum d)) d

/-! ### The indirect window (R161, R162) -/

/-- The window of a path: PF0 and the local bus have one each, PF1 none. -/
def dirWinOf (d : Dev) (path : Path) : Option DirWin :=
  match path with
  | .pf0 => some d.dir.winPf0 | .lb => some d.dir.winLb | _ => none

/-- A path's window replaced. -/
def setDirWin (path : Path) (w : DirWin) (d : Dev) : Dev :=
  match path with
  | .pf0 => { d with dir := { d.dir with winPf0 := w } } | .lb => { d with dir := { d.dir with winLb := w } } | _ => d

/-- A write of DIR_WIN_IDX: a fetch starts, and one in progress is discarded. -/
def dirWinWrite (path : Path) (v : W32) (d : Dev) : Dev :=
  match dirWinOf d path with
  | some w =>
    let v := BitVec.ofNat 32 (bits v.toNat 30 2 * 2 ^ 30 + bits v.toNat 0 25)
    setDirWin path { w with idx := v, busy := true, valid := false, fetch := some (v, false) } d
  | none => d

/-- DIR_WIN_IDX_WRITE. -/
def execDirWinIdxWrite (path : Path) (v : W32) : State → Host.Outcome State Fault Refusal := runLive (dirWinWrite path v)

/-- DIR_WIN_FETCH_DONE: the eight words, BUSY, VALID, ERR and GEN in one cycle. -/
def execDirWinFetchDone (path : Path) : State → Host.Outcome State Fault Refusal := runLive fun d =>
  match dirWinOf d path with
  | none => d
  | some w => match w.fetch with
    | none => d
    | some (v, switched) =>
      let i := bits v.toNat 0 25
      let sc := bit v.toNat 30
      let d := bump d 0x08 7
      if sc && 65536 ≤ i then
        setDirWin path { w with busy := false, valid := false, err := true, fetch := none, data := List.replicate 8 0 } d
      else
        let r := match switched, d.old with
          | true, some g => (if sc then (scaleOf g i).bytes else (entryOf g i).bytes, d.clk.gen - 1)
          | _, _ => readEntry d (bit v.toNat 31) sc i
        setDirWin path { w with busy := false, valid := true, err := false, gen := r.2, fetch := none,
                                data := (chunksOf 4 8 r.1).map fun b => BitVec.ofNat 32 (fromLe b) } d

end Sys2Proof.Machine
end

