-- ==== Sys2Proof/Machine/Elementary.lean ====
section
/-!
DEFINITION. Sine, cosine, angle and natural logarithm of binary64 words (R112, R139, R273): evaluated in fixed point far beyond binary64
and rounded to nearest (log entry 32).
-/
namespace Sys2Proof.Machine

/-- The terms u_1 + u_2 + … of a series in fixed point, by a step from one term's state to its value and the next state; at most `fuel`
terms, and none after one that vanishes. -/
def fxSeries {α : Type} (next : α → Int × α) : Nat → α → Int → Int
  | 0, _, acc => acc
  | n + 1, s, acc =>
    let r := next s
    if r.1 = 0 then acc else fxSeries next n r.2 (acc + r.1)

/-- arctan(1 / x) in units of 2^-p. -/
def fxArctanInv (p x : Nat) : Int :=
  fxSeries (fun (s : Nat × Nat × Bool) =>
    let t := ((s.1 / s.2.1 : Nat) : Int)
    (if s.2.2 then -t else t, (s.1 / (x * x), s.2.1 + 2, !s.2.2))) p (2 ^ p / x, 1, false) 0

/-- π in units of 2^-p (Machin's formula). -/
def fxPi (p : Nat) : Int := (16 * fxArctanInv (p + 16) 5 - 4 * fxArctanInv (p + 16) 239) / 2 ^ 16

/-- The precision for a non-zero value n / d: 256 bits beyond its size. -/
def fxBits (n d : Nat) : Nat := 256 + (ilog n d).natAbs

/-- The Taylor series from a first term on: each next one is the last times -x² / ((k + 1)(k + 2)), in units of 2^-p. -/
def fxTaylor (p : Nat) (x2 first : Int) (k : Nat) : Int :=
  fxSeries (fun (s : Int × Nat) => (s.1, (-(s.1 * x2) / (2 ^ p : Nat) / ((s.2 + 1) * (s.2 + 2) : Nat), s.2 + 2))) p (first, k) 0

/-- An angle n / d reduced to the turn around 0, in units of 2^-p. -/
def fxTurn (p : Nat) (n : Int) (d : Nat) : Int :=
  let t := 2 * fxPi p
  let x := n * 2 ^ p / d
  x - (2 * x + t) / (2 * t) * t

/-- The sine and cosine of a finite angle, in units of 2^-p, and p. -/
def fxSinCos (v : W64) : Int × Int × Nat :=
  let q := f64Q v
  let p := fxBits q.1.natAbs q.2
  let x := fxTurn p q.1 q.2
  let x2 := x * x / 2 ^ p
  (fxTaylor p x2 x 1, fxTaylor p x2 (2 ^ p) 0, p)

/-- The cosine of an angle in radians; exact at 0. -/
def cos64 (t : W64) : W64 :=
  if bits t.toNat 0 63 = 0 then 0x3FF0000000000000
  else if f64Fin t then let r := fxSinCos t; ofQ64 r.2.1 (2 ^ r.2.2)
  else nan64
/-- The sine of an angle in radians; exact at 0. -/
def sin64 (t : W64) : W64 :=
  if bits t.toNat 0 63 = 0 then 0
  else if f64Fin t then let r := fxSinCos t; ofQ64 r.1 (2 ^ r.2.2)
  else nan64

/-- arctan(n / d) in units of 2^-p for 0 ≤ n ≤ d, by Euler's series. -/
def fxArctan (p n d : Nat) : Int :=
  let s := d * d + n * n
  fxSeries (fun (s' : Nat × Nat) => ((s'.1 : Int), (s'.1 * (2 * s'.2 * n * n) / ((2 * s'.2 + 1) * s), s'.2 + 1)))
    (2 * p) (2 ^ p * (n * d) / s, 1) 0

/-- The angle of a complex value from its imaginary and real parts, in [-π, π]; that of the value 0 is a free value (log entry 1). -/
def angle64 (im re : W64) : W64 :=
  if !f64Fin im || !f64Fin re then nan64
  else
    let y := f64Q im
    let x := f64Q re
    let a := y.1.natAbs * x.2
    let b := x.1.natAbs * y.2
    if a = 0 && b = 0 then Config.angle im re
    else
      let p := if a = 0 || b = 0 then 256 else fxBits a b
      let first := if a ≤ b then fxArctan p a b else fxPi p / 2 - fxArctan p b a
      let up := if x.1 < 0 then fxPi p - first else first
      ofQ64 (if bit im.toNat 63 then -up else up) (2 ^ p)

/-- arctanh(n / d) in units of 2^-p for n ≤ d / 3. -/
def fxArctanh (p : Nat) (n d : Int) : Int :=
  let y := n * 2 ^ p / d
  fxSeries (fun (s : Int × Nat) => (s.1 / s.2, (s.1 * n * n / (d * d), s.2 + 2))) p (y, 1) 0

/-- The natural logarithm of a positive word; that of any other is a free value (log entry 1). -/
def ln64 (v : W64) : W64 :=
  let q := f64Q v
  if !f64Fin v || q.1 ≤ 0 then Config.logarithm v
  else
    let e := ilog q.1.natAbs q.2
    let f := scaled q.1.natAbs q.2 (-e)
    -- the fraction f lies in [1, 2), and ln f = 2 arctanh ((f - 1) / (f + 1))
    let p := 320 + (if f.1 = f.2 then 0 else (ilog (f.1 - f.2) f.2).natAbs)
    ofQ64 (2 * fxArctanh p ((f.1 : Int) - f.2) (f.1 + f.2 : Nat) + e * (2 * fxArctanh p 1 3)) (2 ^ p)

end Sys2Proof.Machine
end

