-- ==== Sys2Proof/Machine/Vault.lean ====
section
/-!
DEFINITION. The use of Pip slots by other blocks (R404, R405): what a slot holds, and the checks of a command that names one.
-/
namespace Sys2Proof.Machine

/-- The reference of a Pip slot (R404). -/
def pipRef (n : Nat) : Nat := 0x8000 + n

/-- A slot's record; in a ZEROIZED vault every slot reads EMPTY (R421). -/
def slotAt (d : Dev) (ref : Nat) : Option KeySlot :=
  if decide (d.key.vault = .zeroized) then none
  else match mfind d.key.slots ref with
    | some k => if decide (k.state = .empty) then none else some k
    | none => none

/-- The key of a VALID Pip. -/
def pipKey (d : Dev) (n : Nat) : Option Bytes :=
  match slotAt d (pipRef n) with
  | some k => if decide (k.state = .valid) then some k.key else none
  | none => none

/-- Why a Pip cannot be used: 0 integrity check (or zeroized), 1 orphaned (R92, R124, R209). -/
def pipCause (d : Dev) (n : Nat) : Nat :=
  match slotAt d (pipRef n) with
  | some k => if decide (k.state = .orphaned) then 1 else 0
  | none => 0

/-- The status of a command that names a Pip for one attribute: none where it may be used. -/
def pipFault (d : Dev) (n attr : Nat) : Option Status :=
  if 4096 ≤ n then some .badParam
  else match slotAt d (pipRef n) with
    | none => some .badParam
    | some k =>
      if k.attr != attr then some .badParam
      else if decide (k.state = .orphaned) then some .keyOrphaned
      else if decide (k.state = .valid) then none
      else some .badParam

/-- Bytes of a signature by kind (R123, Table 7-5): HMAC-SHA256 truncated to 80, 128 or 256 bits, GMAC of 64 or 128 bits. -/
def sigLen (sig : Nat) : Nat := [0, 10, 16, 32, 8, 16].getD sig 0
/-- The signature of a kind, under a key. -/
def signatureOf (sig : Nat) (key data : Bytes) : Bytes :=
  cut (if sig ≤ 3 then Config.hmac256 key data else Config.gmac key data) 0 (sigLen sig)

/-- A refused use of an orphaned key counts in ORPHANED_USES. -/
def countOrphan (s : Status) (d : Dev) : Dev := if decide (s = .keyOrphaned) then bump d 0x17 4 else d

end Sys2Proof.Machine
end

