-- ==== Sys2Proof/Machine/Egress.lean ====
section
/-!
DEFINITION. Frames on their way out: Ethernet framing, tags (R83), and the egress queues of the ports (R210, R211).
-/
namespace Sys2Proof.Machine

/-- The port's own address: the one PORT_ADDR set, or the default 02-pp-e4-e5-e6-e7 of R79. -/
def ownAddr (d : Dev) (p : Nat) : W48 :=
  match (portOf d p).unicast with
  | some a => a
  | none => BitVec.ofNat 48 (0x02 * 2 ^ 40 + p % 256 * 2 ^ 32 + d.gbl.eui.toNat % 2 ^ 32)

/-- The TPID a selector names (R83): 0 0x8100, 1 0x88A8, 2 the port's extra TPID. -/
def tpidOf (p : Port) (sel : Nat) : Nat := if sel = 0 then 0x8100 else if sel = 1 then 0x88A8 else p.extraTpid.toNat

/-- A tag: TPID and control word. -/
def tagBytes (tpid tci : Nat) : Bytes := beBytes 2 tpid ++ beBytes 2 tci

/-- A frame from its addresses, tags, EtherType and payload, padded to the 60 bytes before the FCS (R76); MACsec protects the padded frame
(DESIGN CHOICE, log entry 33). -/
def etherFrame (dst src : W48) (tags : Bytes) (etype : Nat) (payload : Bytes) : Bytes :=
  padTo 60 (beBytes 6 dst.toNat ++ beBytes 6 src.toNat ++ tags ++ beBytes 2 etype ++ payload)

/-- The port's link is UP and it has a mode. -/
def portUp (d : Dev) (p : Nat) : Bool := let x := portOf d p; decide (x.link = .up) && x.mode != 0

/-- A frame of an egress queue that is not sent: its counter of Table 7-6, the flag and the port's summary. -/
def egressDrop (p cnt : Nat) (d : Dev) : Dev := tally tallyEgress p 1 0 (setFlag 0x0A 1 (bump d 0x0A cnt))

/-- Counts a frame of a template as sent or dropped (Table 7-10, PUB_TEMPLATE_STATUS). -/
def tplCount (f : TxFrame) (sent : Bool) (d : Dev) : Dev :=
  if f.kind = 1 then
    { d with pub := { d.pub with tpl := mmod {} d.pub.tpl f.source fun t =>
      if sent then { t with sent := t.sent + 1 } else { t with dropped := t.dropped + 1 } } }
  else d

/-- Enqueues a frame on a port's egress queue (R210, R211, R217). -/
def sendItem (p : Nat) (x : EgressItem) (d : Dev) : Dev :=
  if !portUp d p then tplCount x.frame false (egressDrop p 9 d)
  else
    let l := mget [] d.pub.egress p
    let e := enqueue EgressItem.prio (cellFree d (32 + p) l.length 8192) l x
    let d1 := { d with pub := { d.pub with egress := mput [] d.pub.egress p e.1 } }
    match e.2 with
    | none => queueGrew (32 + p) l.length d1
    | some y => tplCount y.frame false <| egressDrop p 7 (if sharedUsed d ≥ 438272 then bump d1 0x0A 19 else d1)

/-- The control word of a tag from its PCP and DEI byte (PCP in bits [2:0], DEI in bit 3) and its VID. -/
def tciOf (pcp vid : Nat) : Nat := bits pcp 0 3 * 8192 + b2n (bit pcp 3) * 4096 + vid % 4096

/-- An IPv4 address mapped into IPv6. -/
def isMappedV4 (a : BitVec 128) : Bool := a.toNat / 2 ^ 32 = 0xFFFF

/-- The destination MAC of a multicast IP destination (R207): 01-00-5E with 23 bits, or 33-33 with 32 bits. -/
def mcastMac (a : BitVec 128) : Option W48 :=
  if isMappedV4 a then
    if bits a.toNat 28 4 = 0xE then some (BitVec.ofNat 48 (0x01005E * 2 ^ 24 + bits a.toNat 0 23)) else none
  else if bits a.toNat 120 8 = 0xFF then some (BitVec.ofNat 48 (0x3333 * 2 ^ 32 + bits a.toNat 0 32)) else none

/-- Where a datagram goes (R207): addresses, ports, TTL or hop limit, DSCP and the tags' bytes. -/
structure Dest where
  dstIp  : BitVec 128
  srcIp  : BitVec 128
  dstMac : W48
  udpSrc : Nat
  udpDst : Nat
  ttl    : Nat
  dscp   : Nat
  tags   : Bytes
  deriving DecidableEq, Repr

/-- The UDP datagram with its checksum over the pseudo-header. -/
def udpBytes (x : Dest) (data : Bytes) : Bytes :=
  let len := 8 + data.length
  let ps := if isMappedV4 x.dstIp then beBytes 4 x.srcIp.toNat ++ beBytes 4 x.dstIp.toNat ++ [0, 17] ++ beBytes 2 len
    else beBytes 16 x.srcIp.toNat ++ beBytes 16 x.dstIp.toNat ++ beBytes 4 len ++ [0, 0, 0, 17]
  let head := beBytes 2 x.udpSrc ++ beBytes 2 x.udpDst ++ beBytes 2 len
  let sum := inetSum (ps ++ head ++ [0, 0] ++ data)
  head ++ beBytes 2 (if sum = 0 then 0xFFFF else sum) ++ data

/-- A frame that carries a UDP datagram (R207): IPv4 with DF set and identification 0, or IPv6 with flow label 0. -/
def udpFrame (d : Dev) (port : Nat) (x : Dest) (data : Bytes) : Bytes :=
  let udp := udpBytes x data
  let mac := (mcastMac x.dstIp).getD x.dstMac
  if isMappedV4 x.dstIp then
    let head (sum : Nat) : Bytes := [0x45, BitVec.ofNat 8 (x.dscp * 4)] ++ beBytes 2 (20 + udp.length) ++ [0, 0, 0x40, 0,
      BitVec.ofNat 8 x.ttl, 17] ++ beBytes 2 sum ++ beBytes 4 x.srcIp.toNat ++ beBytes 4 x.dstIp.toNat
    etherFrame mac (ownAddr d port) x.tags 0x0800 (head (inetSum (head 0)) ++ udp)
  else
    etherFrame mac (ownAddr d port) x.tags 0x86DD
      (beBytes 4 (6 * 2 ^ 28 + x.dscp * 2 ^ 22) ++ beBytes 2 udp.length ++ [17, BitVec.ofNat 8 x.ttl] ++
        beBytes 16 x.srcIp.toNat ++ beBytes 16 x.dstIp.toNat ++ udp)

/-- The IEC 61850 time-quality byte of the device (R204): LeapSecondKnown, ClockNotSynchronised, and accuracy bits from the
band of Table 2-5 (DEDUCED, log entry 12). -/
def timeQuality (d : Dev) : Nat :=
  let bound := ([25, 100, 250, 1000, 2500, 10000, 25000, 100000, 1000000, 10000000, 100000000, 1000000000].find?
    fun b => d.tod.qualU.toNat ≤ b)
  let acc := match bound with
    | some b => (((List.range 26).reverse).find? fun n => b * 2 ^ n ≤ secNs).getD 0
    | none => 0
  b2n (!unsetTime d) * 128 + b2n (bits d.tod.qualCode.toNat 8 2 = 3) * 32 + acc

/-- Bytes that a signature of a SIG adds to an SPDU: with its tag and length octets (PRESUMED IEC 61850-90-5, log entry 12). -/
def sigRoom (sig : Nat) : Nat := if sigLen sig = 0 then 0 else 2 + sigLen sig
/-- An SPDU with the signature of a binding after it (R204, R314), of the length that SIG names, under its tag; with SIG 0, or no binding,
unsigned (log entry 12). -/
def signSpdu (d : Dev) (sig : Nat) (b : Option Binding) (spdu : Bytes) : Bytes :=
  match b with
  | some x => if sigLen sig = 0 then spdu
    else spdu ++ [0x85, BitVec.ofNat 8 (sigLen sig)] ++ signatureOf sig ((pipKey d x.slot).getD []) spdu
  | none => spdu

/-- The key fields of an SPDU (Table 7-4): timeOfCurrentKey, timeToNextKey and Key ID, 0 when unsigned. -/
def keyFields (sig : Nat) (b : Option Binding) : List Nat :=
  match b with
  | some x => if sig = 0 then [0, 0, 0] else [x.timeOfKey.toNat, x.timeToNext.toNat, x.keyId.toNat]
  | none => [0, 0, 0]

/-- Binding 0 or 1 set, and made current where SWAP asks for it (R209). -/
def setBinding (next : Bool) (swap : Bool) (x : Binding) (cur nxt : Option Binding) : Option Binding × Option Binding :=
  let c := if next then cur else some x
  let n := if next then some x else nxt
  if swap then (match n with
    | some y => (some y, none)
    | none => (c, n))
  else (c, n)

/-- A frame that firmware sends: at priority 7, never aged (log entry 9). -/
def sendFw (p : Nat) (bytes : Bytes) (mark : Option (W16 × BitVec 4 × Byte)) (d : Dev) : Dev :=
  sendItem p { prio := 7, template := none, frame := { kind := 0, source := 0, bytes := bytes, mark := mark }, amend := false,
               proto := 0, bornUs := optUs d, maxAgeUs := none } d

end Sys2Proof.Machine
end

