-- ==== Sys2Proof/Machine/Tick.lean ====
section
/-!
DEFINITION. One cycle of CLK_TOD (R43): the counter adds TOD_INC and the share of a phase adjustment (R47).
-/
namespace Sys2Proof.Machine

/-- One cycle of CLK_TOD: 2 ns of operating time, and the counter's step. It stands still in reset. -/
def todCycle (d : Dev) : Dev :=
  if d.pwr.held then d else let d1 := addOpt d 2; { d1 with tod := countCycles d1.tod 1 }

end Sys2Proof.Machine
end

