-- ==== Sys2Proof/Machine/Tod.lean ====
section
/-!
DEFINITION. The timebase's operations (chapter 2): leap seconds, uncertainty and the quality fields, references and the time
state, and PTP messages.
-/
namespace Sys2Proof.Machine

/-! ### Leap seconds (R67, R69) -/

/-- A table from its first entry on: each change at its UTC midnight, where it keeps the order of R67. -/
def leapFrom (e : LeapEntry) : List (Nat × Bool) → List LeapEntry
  | [] => [e]
  | c :: rest =>
    let off := if c.2 then e.off + 1 else e.off - 1
    let t := c.1 * 86400 + off
    if (c.2 || e.off != 0) && decide (e.t.toNat < t) && decide (t < 2 ^ 48) then
      e :: leapFrom { t := BitVec.ofNat 48 t, off := off } rest
    else leapFrom e rest

/-- The default table of the firmware image (R67): the offset in force when it was built, from the PTP epoch's UTC midnight on, and the
changes announced by then, at most 15. -/
def leapDefault : List LeapEntry :=
  let b := (Config.leapBase ()).toNat
  (leapFrom { t := BitVec.ofNat 48 b, off := b } (Config.leapNews ())).take 16

/-- The leap-second table in force. -/
def leapTable (d : Dev) : List LeapEntry := d.tod.leap.getD leapDefault

/-- The entry in force at a TAI second: the last one whose T is not later; before the first T, the first one. -/
def leapAt (l : List LeapEntry) (sec : Nat) : Option LeapEntry :=
  match (l.filter fun e => e.t.toNat ≤ sec).getLast? with
  | some e => some e
  | none => l.head?

/-- TAI - UTC in force at a TAI second. -/
def offAt (l : List LeapEntry) (sec : Nat) : Nat := ((leapAt l sec).map LeapEntry.off).getD 0

/-- TAI - UTC in force now. -/
def utcOff (d : Dev) : Nat := offAt (leapTable d) d.tod.sec.toNat

/-- The changes of a table: T and whether it is a deletion. -/
def leapChanges (l : List LeapEntry) : List (Nat × Bool) :=
  (l.zip (l.drop 1)).map fun e => (e.2.t.toNat, e.2.off < e.1.off)

/-- Leap second pending, occurred, and direction at a TAI second (R69). -/
def leapFlags (l : List LeapEntry) (sec : Nat) : Bool × Bool × Bool :=
  let c := leapChanges l
  (c.any fun e => e.1 ≤ sec + 61 && sec + 1 ≤ e.1, c.any fun e => e.1 ≤ sec && sec < e.1 + 86400,
    c.any fun e => e.2 && e.1 ≤ sec + 61 && sec < e.1 + 86400)

/-- A table that R67 allows. -/
def leapOk (l : List LeapEntry) : Bool :=
  1 ≤ l.length && l.length ≤ 16 &&
  (l.zip (l.drop 1)).all fun e =>
    (e.2.off == e.1.off + 1 || e.2.off + 1 == e.1.off) && e.1.t.toNat < e.2.t.toNat && e.2.off ≤ e.2.t.toNat &&
      (e.2.t.toNat - e.2.off) % 86400 == 0

/-- Days from 1970-01-01 of a date of the Gregorian calendar. -/
def daysOf (y m dd : Nat) : Nat :=
  let y1 := if m ≤ 2 then y - 1 else y
  let mp := (m + 9) % 12
  365 * y1 + y1 / 4 - y1 / 100 + y1 / 400 + (153 * mp + 2) / 5 + dd - 1 - 719468

/-- The year, month and day of a number of days from 1970-01-01. -/
def dateOf (days : Nat) : Nat × Nat × Nat :=
  let z := days + 719468
  let era := z / 146097
  let doe := z % 146097
  let yoe := (doe - doe / 1460 + doe / 36524 - doe / 146096) / 365
  let doy := doe - (365 * yoe + yoe / 4 - yoe / 100)
  let mp := (5 * doy + 2) / 153
  let m := if mp < 10 then mp + 3 else mp - 9
  (yoe + era * 400 + (if m ≤ 2 then 1 else 0), m, doy - (153 * mp + 2) / 5 + 1)

/-- The TAI second that a UTC second names: SOC, and whether it is a second 60 (R69). -/
def taiOf (l : List LeapEntry) (soc : Nat) (leap : Bool) : Nat :=
  let c := (l.map fun e => soc + e.off).filter fun t => offAt l t + soc == t
  if leap then c.min?.getD (soc + offAt l soc) else c.max?.getD (soc + offAt l soc)

/-- UTC of a TAI second: SOC, and whether the second is an inserted one (23:59:60). -/
def utcOf (l : List LeapEntry) (sec : Nat) : Nat × Bool :=
  let ins := (leapChanges l).any fun e => !e.2 && e.1 == sec + 1
  (sec - offAt l sec, ins)

/-! ### Uncertainty and quality fields (R54 to R57) -/

/-- F and A of the oscillator in use, in 10^-13 and 10^-13 per day. -/
def oscFA (t : Tod) : Nat × Nat :=
  if t.oscUsed then (t.params.fRef10, t.params.aRef10) else (t.params.fRef100, t.params.aRef100)

/-- The schedule of HOLDOVER and FREERUN: U_h + F t + A t² / 2, rounded up, at `dt` ns after its base (Table 2-3). -/
def schedule (t : Tod) (dt : Nat) : Nat :=
  let fa := oscFA t
  t.uH + ceilDiv (fa.1 * dt * (secNs * 172800) + fa.2 * dt * dt) (secNs * secNs * 10000 * 172800)

/-- Nanoseconds since the base of the schedule. -/
def sinceBase (d : Dev) : Nat := nowNs d - instNs d.tod.baseAt.1 d.tod.baseAt.2.toNat

/-- The total time inaccuracy of the grandmaster of the slave port, where PTP is the reference and it is present. -/
def ptpTti (t : Tod) : Nat :=
  if t.ref = 3 then (((mget {} t.ptp t.slavePort.toNat).parent.bind GmData.tti).getD 0) else 0

/-- U at this moment (Table 2-3), saturating; none in UNSET. -/
def evalU (d : Dev) : Option Nat :=
  let t := d.tod
  let s := schedule t (sinceBase d)
  (match t.state with
    | .unset => none
    | .locked => some (t.params.uLock + ptpTti t)
    | .acquiring => some (if t.acqHold then max s (t.params.uLock + t.lastOffset.natAbs) else t.params.uLock + t.lastOffset.natAbs)
    | .holdover => some s
    | .freerun => some s).map (min · 0xFFFFFFFF)

/-- Bounds of U with clockAccuracy (Table 2-5). -/
def accOf (u : Nat) : Nat :=
  match ([25, 100, 250, 1000, 2500, 10000, 25000, 100000, 250000, 1000000, 2500000, 10000000, 25000000, 100000000, 250000000,
    1000000000, 10000000000].zipIdx).find? fun e => u ≤ e.1 with
  | some e => 0x20 + e.2
  | none => 0x31

/-- The time quality code of U: decades of ns (Table 2-5). -/
def tqOf (u : Nat) : Nat :=
  match ((rangeFrom 0 11).find? fun k => u ≤ 10 ^ k) with
  | some k => k + 1
  | none => 0xF

/-- STAT bits [8:6] of U (Table 2-5). -/
def statqOf (u : Nat) : Nat :=
  if u ≤ 100 then 1 else if u ≤ 1000 then 2 else if u ≤ 10000 then 3 else if u ≤ 100000 then 4 else if u ≤ 1000000 then 5
  else if u ≤ 10000000 then 6 else 7

/-- STAT bits [5:4] of HOLDOVER after `t` seconds (Table 2-6). -/
def unlkOf (t : Nat) : Nat := if t < 10 then 0 else if t < 100 then 1 else if t < 1000 then 2 else 3

/-- The quality fields at a second start (Tables 2-5 and 2-6), packed as TOD_QUAL_CODE. -/
def qualCodeOf (t : Tod) (u : Option Nat) (tSec : Nat) : Nat :=
  let pack (acc cls smp unlk serr statq tq : Nat) :=
    acc * 2 ^ 24 + cls * 2 ^ 16 + smp * 2 ^ 10 + unlk * 2 ^ 8 + serr * 2 ^ 7 + statq * 2 ^ 4 + tq
  match t.state, u with
  | .freerun, some u => pack (accOf u) 248 1 3 1 (statqOf u) (tqOf u)
  | .acquiring, some u =>
    if t.acqHold then
      pack (accOf u) (if u ≤ t.params.holdSpec then 7 else t.params.degraded) 1 (unlkOf tSec) 1 (statqOf u) (tqOf u)
    else pack (accOf u) 248 1 3 1 (statqOf u) (tqOf u)
  | .locked, some u => pack (accOf u) 6 2 0 0 (statqOf u) 0
  | .holdover, some u =>
    let good := u ≤ t.params.holdSpec
    pack (accOf u) (if good then 7 else t.params.degraded) (if good then 2 else 1) (unlkOf tSec) (b2n (!good)) (statqOf u) (tqOf u)
  | _, _ => 0xFEF803FF

/-- The time quality code in force (TOD_QUAL_CODE.TQ). -/
def tqNow (d : Dev) : Nat := bits d.tod.qualCode.toNat 0 4
/-- SmpSynch in force. -/
def smpSynchNow (d : Dev) : Nat := bits d.tod.qualCode.toNat 10 2

/-- PTP timeSource (Table 2-6); HERD gives that of the peer, a free value (log entry 1). -/
def timeSource (d : Dev) : Nat :=
  match d.tod.state with
  | .freerun => 0x60
  | .locked =>
    if d.tod.ref = 1 ∨ d.tod.ref = 2 then 0x20 else if d.tod.ref = 3 then 0x40
    else (Config.peerTimeSource d.draws).toNat
  | _ => 0xA0

/-! ### The time state (Table 2-2) -/

/-- A phase adjustment in progress is cut short (R49). -/
def cutAdjust (d : Dev) : Dev :=
  match d.tod.adj with
  | none => d
  | some a =>
    let p := unsigned 32 (adjPart a)
    logEv 0x0106 p 0 0 (setFlag 0x01 1 { d with tod := { d.tod with adj := none } })

/-- A deferred TIME_SET is dropped for a reason (R551). -/
def dropDeferred (reason : Nat) (d : Dev) : Dev :=
  match d.tod.deferred with
  | none => d
  | some x => logEv 0x010D (x.sec.toNat % 2 ^ 32) reason 0 { d with tod := { d.tod with deferred := none } }

/-- Drops a deferred TIME_SET where the state has left UNSET and FREERUN, or an O-stream is defined (R551). -/
def checkDeferred (d : Dev) : Dev :=
  if !(decide (d.tod.state = .unset) || decide (d.tod.state = .freerun)) then dropDeferred 1 d
  else if !d.cur.os.isEmpty then dropDeferred 2 d
  else d

/-- The schedule begins at the last good reference event with U at entry (Table 2-3). -/
def baseAtEvent (d : Dev) : Dev :=
  { d with tod := { d.tod with baseAt := d.tod.lastEvent, uH := (evalU d).getD 0, holdFlagged := false } }

/-- The loss of the reference with no other present: HOLDOVER, or FREERUN where LOCKED was never reached (Table 2-2). -/
def loseTime (d : Dev) : Dev :=
  let held := decide (d.tod.state = .locked) || d.tod.lockedEver
  let d1 := baseAtEvent d
  let code := d.tod.ref.toNat
  let d2 := { d1 with tod := { d1.tod with
    state := if held then .holdover else .freerun, ref := 0, inLock := 0, acqHold := false } }
  if held then logEv 0x0103 code (logSec d2 d2.tod.lastEvent.1) 0 (cutAdjust d2) else d2

/-- The servo takes up a reference: ACQUIRING, from HOLDOVER with the schedule kept (Table 2-2). -/
def takeUp (code : Nat) (d : Dev) : Dev :=
  { d with tod := { d.tod with
    state := .acquiring, acqHold := decide (d.tod.state = .holdover) || (decide (d.tod.state = .acquiring) && d.tod.acqHold), ref := BitVec.ofNat 3 code, inLock := 0 } }

/-- A switch of the reference keeps LOCKED where the offset to the new one is within U_LOCK (R52). -/
def switchRef (code : Nat) (d : Dev) : Dev :=
  let o := mget 0 d.tod.offsets code
  if decide (d.tod.state = .locked) && o.natAbs ≤ d.tod.params.uLock then
    { d with tod := { d.tod with ref := BitVec.ofNat 3 code, lastOffset := o, inLock := 0 } }
  else takeUp code d

/-- LOCKED is reached: TIME_LOCKED (R52). -/
def reachLock (d : Dev) : Dev :=
  let d1 := { d with tod := { d.tod with state := .locked, lockedEver := true, acqHold := false } }
  logEv 0x0102 d.tod.ref.toNat (unsigned 32 d.tod.lastOffset) 0 d1

/-- A reference is present, in the list, and ranks. -/
def rankOf (d : Dev) (code : Nat) : Option Nat := d.tod.refList.idxOf? code

/-- A reference event of a code with the measured offset and the instant of the event, outside UNSET (R52, Table 2-2). -/
def refEvent (code : Nat) (off : Int) (at_ : W48 × W32) (d : Dev) : Dev :=
  let t := d.tod
  let d := { d with tod := { t with
    offsets := mset t.offsets code off
    present := if (mfind t.present code).isSome then t.present else mset t.present code d.log.opt } }
  if (rankOf d code).isNone || decide (d.tod.state = .unset) then d
  else
    let d := if decide (d.tod.state = .freerun) || decide (d.tod.state = .holdover) then checkDeferred (takeUp code d) else d
    if d.tod.ref.toNat != code then d
    else
      let n := if off.natAbs ≤ d.tod.params.uLock then min 60 (d.tod.inLock + 1) else 0
      let d := { d with tod := { d.tod with lastOffset := off, inLock := n, lastEvent := at_ } }
      if decide (d.tod.state = .acquiring) && n = 60 then reachLock d else d

/-- The counter of UNSET set from a labelled reference event (R550), which was at an instant of the new time. -/
def acquireFrom (code : Nat) (ns : Nat) (event : W48 × W32) (d : Dev) : Dev :=
  let d := setCounter d ns
  checkDeferred (takeUp code { d with tod := { d.tod with
    lastEvent := event, present := mset d.tod.present code d.log.opt } })

/-- Firmware runs and takes events (R452, R527). -/
def fwTakes (d : Dev) : Bool := d.cmd.fwUp && !d.cmd.fwRestarting && !stalledIn d 4

/-! ### PTP messages (R59, R60) -/

/-- The clock identity: the device identity EUI-64 (R59). -/
def clockId (d : Dev) : Bytes := beBytes 8 d.gbl.eui.toNat

/-- The common header of a PTP message: type, length, domain, flags, sequence, control and log interval. -/
def ptpHeader (d : Dev) (p : Nat) (mtype len : Nat) (domain : Byte) (flags : Nat) (seq : W16) (ctrl logInt : Nat) : Bytes :=
  [BitVec.ofNat 8 mtype, 2] ++ beBytes 2 len ++ [domain, 0] ++ beBytes 2 flags ++ beBytes 8 0 ++ beBytes 4 0 ++ clockId d ++
  beBytes 2 (p + 1) ++ beBytes 2 seq.toNat ++ [BitVec.ofNat 8 ctrl, BitVec.ofNat 8 logInt]

/-- A time of a PTP message: 48-bit seconds and 32-bit nanoseconds. -/
def ptpTime (t : Stamp) : Bytes := beBytes 6 t.sec.toNat ++ beBytes 4 t.ns.toNat

/-- The destination address of a PTP message (Table 2-8). -/
def ptpDst (x : PtpPort) (pdelay : Bool) : W48 := if pdelay && x.localPeer then 0x0180C200000E else 0x011B19000000

/-- A PTP message sent on a port, tagged by its settings (R83); an event message is marked for a timestamp. A port of the 61850-9-3 profile
sends untagged where its VID is 0, and one of C37.238 always tagged (Table 2-8; DESIGN CHOICE, log entry 33). -/
def sendPtp (p : Nat) (x : PtpPort) (mtype : Nat) (seq : W16) (pdelay event : Bool) (msg : Bytes) (d : Dev) : Dev :=
  let tags := if x.profile = 1 || x.vid != 0 then tagBytes 0x8100 (x.pcp.toNat % 8 * 8192 + x.vid.toNat % 4096) else []
  sendFw p (etherFrame (ptpDst x pdelay) (ownAddr d p) tags 0x88F7 msg)
    (if event then some (seq, BitVec.ofNat 4 mtype, x.domain) else none) d

/-- PTP leap61 and leap59 at a TAI second (R69). -/
def ptpLeap (l : List LeapEntry) (sec : Nat) : Nat :=
  (leapChanges l).foldl (fun n e => if e.1 ≤ sec + 43201 && sec + 1 ≤ e.1 then (if e.2 then 2 else 1) else n) 0

/-- The dataset the device announces: its own as grandmaster (R60), or its parent's one step further on. -/
def announceData (d : Dev) (x : PtpPort) : GmData :=
  let up := mget {} d.tod.ptp d.tod.slavePort.toNat
  match (if d.tod.slavePort.toNat < 12 then up.parent else none) with
  | some g => { g with steps := g.steps + 1 }
  | none =>
    { priority1 := x.priority1, clockClass := if x.slaveOnly then 255 else BitVec.ofNat 8 (bits d.tod.qualCode.toNat 16 8),
      accuracy := BitVec.ofNat 8 (bits d.tod.qualCode.toNat 24 8), variance := x.variance, priority2 := x.priority2,
      identity := d.gbl.eui, steps := 0, utcOffset := utcOff d,
      tti := d.tod.u, timeSource := d.tod.timeSrc }

/-- An Announce message (R60), with the IEEE_C37_238 TLV in that profile, whose totalTimeInaccuracy is the device's own U (Table 2-8). -/
def announceMsg (d : Dev) (p : Nat) (x : PtpPort) (seq : W16) : Bytes :=
  let g := announceData d x
  let flags := 0x0008 + 0x0004 * b2n (!unsetTime d) + ptpLeap (leapTable d) d.tod.sec.toNat
  let tlv := if x.profile = 1 then
      beBytes 2 0x0003 ++ beBytes 2 0x000C ++ beBytes 3 0x1C129D ++ beBytes 3 0x000002 ++ beBytes 2 x.gmId.toNat ++
      beBytes 4 (d.tod.u.getD 0xFFFFFFFF)
    else []
  ptpHeader d p 0xB (64 + tlv.length) x.domain flags seq 5 0 ++ ptpTime (nowStamp d) ++ beBytes 2 g.utcOffset ++ [0] ++
  [g.priority1, g.clockClass, g.accuracy] ++ beBytes 2 g.variance.toNat ++ [g.priority2] ++ beBytes 8 g.identity.toNat ++
  beBytes 2 g.steps.toNat ++ [g.timeSource] ++ tlv

/-- The order of datasets: the better one has the lower fields, in order (PRESUMED, IEEE 1588; log entry 10). -/
def GmData.better (a b : GmData) : Bool :=
  let k (g : GmData) : List Nat := [g.priority1.toNat, g.clockClass.toNat, g.accuracy.toNat, g.variance.toNat, g.priority2.toNat,
    g.identity.toNat, g.steps.toNat]
  decide (k a < k b)

/-- The ports with an enabled PTP instance. -/
def ptpPorts (d : Dev) : List Nat := (List.range 12).filter fun p => (mget {} d.tod.ptp p).enable

/-- The port whose parent is the best of all and better than the device itself, as the slave port (R59). -/
def bestPort (d : Dev) : Option Nat :=
  (ptpPorts d).foldl (fun best p =>
    let x := mget {} d.tod.ptp p
    let own := announceData { d with tod := { d.tod with slavePort := 15 } } x
    match x.parent with
    | none => best
    | some g =>
      if !x.slaveOnly && !g.better own then best
      else match best with
        | none => some p
        | some q => match (mget {} d.tod.ptp q).parent with
          | some g' => if g.better g' then some p else best
          | none => some p) none

/-- The unit drives its outputs: unpaired, or active (R477). -/
def drives (d : Dev) : Bool :=
  !d.cmd.loader && !decide (d.pwr.run = .tampered) &&
    (!d.hrd.enabled || decide (d.hrd.role = .active) || decide (d.hrd.role = .unpaired))

/-- The unit publishes: it drives, and as a departed active its peer has not taken over yet (R490, R530). -/
def publishes (d : Dev) : Bool := drives d && !(d.hrd.yieldAt.any fun k => tickInst (BitVec.ofNat 48 (k / 3600)) (k % 3600) ≤ nowNs d)

/-- The states of the PTP ports: at most one SLAVE; masters are PASSIVE where the unit does not drive (R59, R477). -/
def settlePtp (d : Dev) : Dev :=
  let best := bestPort d
  let st (p : Nat) (x : PtpPort) : PtpState :=
    if !x.enable then .disabled
    else if best = some p then .slave
    else if x.slaveOnly then .passive
    else if x.parent.isSome && best.isSome then .passive
    else if drives d then .master else .passive
  { d with tod := { d.tod with
    ptp := d.tod.ptp.map fun e => (e.1, { e.2 with state := st e.1 e.2 })
    slavePort := BitVec.ofNat 4 (best.getD 15) } }

end Sys2Proof.Machine
end

