-- ==== Sys2Proof/Machine/Convert.lean ====
section
/-!
DEFINITION. Canonical values (R108 to R114, R118 to R121): the conversion of source fields, the effects of STAT and of
sampled-value quality, and the instants of frames.
-/
namespace Sys2Proof.Machine

/-- The model's mark of a position of a stream's run that yields no value (R108, R158): no source gives reason 0xFF. -/
def noValue : W64 := invalidVal 0xFF

/-- F_nom of a channel (R146) as binary64. -/
def fnomOf (e : DirEntry) : W64 := if e.fnom then 0x404E000000000000 else 0x4049000000000000

/-- A real result: reason 0x04 where it is not finite or lies beyond the binary32 range (Table 4-6). -/
def realOut (v : W64) : W64 := if f64Fin v && f32Fin (f64To32 v) then v else invalidVal 4

/-- A phasor result: reason 0x04 where a component is not finite or beyond binary32. -/
def phasorOut (re im : W64) : W64 :=
  if f64Fin re && f64Fin im && f32Fin (f64To32 re) && f32Fin (f64To32 im) then phasor re im else invalidVal 4

/-- Why a binary32 input gives no value: 1 a NaN, 4 an infinity, 0 none. -/
def f32Why (v : W32) : Nat := if f32Fin v then 0 else if bits v.toNat 0 23 = 0 then 4 else 1

/-- The reason of a pair of inputs: a NaN before an infinity. -/
def pairWhy (a b : W32) : Nat := if f32Why a = 1 || f32Why b = 1 then 1 else max (f32Why a) (f32Why b)

/-- The factor for floating-point inputs (R112). -/
def floatK (s : ScaleEntry) : W64 := if bit s.flags.toNat 0 then s.k else 0x3FF0000000000000

/-- K · m · e^(j a), the angle with θ0 added already. -/
def fromPolar (k m a : W64) : W64 := let r := f64Mul k m; phasorOut (f64Mul r (cos64 a)) (f64Mul r (sin64 a))

/-- K · (re + j im) · e^(j θ0). -/
def fromRect (k re im th : W64) : W64 :=
  let x := f64Mul k re
  let y := f64Mul k im
  if bits th.toNat 0 63 = 0 then phasorOut x y
  else phasorOut (f64Sub (f64Mul x (cos64 th)) (f64Mul y (sin64 th))) (f64Add (f64Mul x (sin64 th)) (f64Mul y (cos64 th)))

/-- A binary32 word at an offset, in network order. -/
def f32At (b : Bytes) (i : Nat) : W32 := BitVec.ofNat 32 (beAt b i 4)

/-- K x + B for a floating-point input where APPLY_FLOAT is set, else x. -/
def floatLine (s : ScaleEntry) (x : W64) : W64 := if bit s.flags.toNat 0 then f64Add (f64Mul s.k x) s.b else x

/-- A digital word with the scaling entry's mask (Table 4-5). -/
def digitalOut (s : ScaleEntry) (w : Nat) : W64 := BitVec.ofNat 64 (s.mask.toNat * 65536 + w % 65536)

/-- π / 180 as binary64. -/
def degree : W64 := 0x3F91DF46A2529D39

/-- The conversion of Table 4-7 of a field, by its channel's FORMAT and TYPE. -/
def convert (e : DirEntry) (s : ScaleEntry) (b : Bytes) : W64 :=
  let th := f32To64 s.theta0
  match e.format with
  | 1 =>
    if beAt b 0 2 = 0x8000 || beAt b 2 2 = 0x8000 then invalidVal 1
    else fromRect s.k (f64Int (signed 16 (beAt b 0 2))) (f64Int (signed 16 (beAt b 2 2))) th
  | 2 =>
    if beAt b 0 2 = 0x8000 || beAt b 2 2 = 0x8000 then invalidVal 1
    else fromPolar s.k (f64Int (beAt b 0 2)) (f64Add (ofQ64 (signed 16 (beAt b 2 2)) 10000) th)
  | 3 =>
    if pairWhy (f32At b 0) (f32At b 4) != 0 then invalidVal (pairWhy (f32At b 0) (f32At b 4))
    else fromRect (floatK s) (f32To64 (f32At b 0)) (f32To64 (f32At b 4)) th
  | 4 =>
    if pairWhy (f32At b 0) (f32At b 4) != 0 then invalidVal (pairWhy (f32At b 0) (f32At b 4))
    else fromPolar (floatK s) (f32To64 (f32At b 0)) (f64Add (f32To64 (f32At b 4)) th)
  | 5 =>
    let x := signed 16 (beAt b 0 2)
    if beAt b 0 2 = 0x8000 then invalidVal 1
    else if e.type = 2 then realOut (f64Add (fnomOf e) (ofQ64 x 1000))
    else if e.type = 3 then realOut (ofQ64 x 100)
    else realOut (f64Add (f64Mul s.k (f64Int x)) s.b)
  | 6 =>
    if f32Why (f32At b 0) != 0 then invalidVal (f32Why (f32At b 0))
    else if e.type = 4 then realOut (floatLine s (f32To64 (f32At b 0)))
    else realOut (f32To64 (f32At b 0))
  | 7 => if e.statusRole then BitVec.ofNat 64 (beAt b 0 2) else digitalOut s (beAt b 0 2)
  | 8 =>
    if pairWhy (f32At b 0) (f32At b 4) != 0 then invalidVal (pairWhy (f32At b 0) (f32At b 4))
    else fromPolar (floatK s) (f32To64 (f32At b 0)) (f64Add (f64Mul (f32To64 (f32At b 4)) degree) th)
  | 9 =>
    if f32Why (f32At b 0) != 0 then invalidVal (f32Why (f32At b 0))
    else realOut (floatLine s (f32To64 (f32At b 0)))
  | 10 => realOut (f64Add (f64Mul s.k (f64Int (signed 32 (beAt b 0 4)))) s.b)
  | 11 => digitalOut s (b2n (beAt b 0 1 != 0))
  | 12 => digitalOut s (beAt b 0 4)
  | _ => invalidVal 1

/-! ### Values of a frame -/

/-- Why a block's values are invalid by its STAT (R109): the reason, 0 for none. -/
def statWhy (s : StreamDef) (stat : Nat) : Nat :=
  let de := bits stat 14 2
  if de = 1 || de = 3 then 2
  else if de = 2 && !s.testAcc then 3
  else if bit stat 12 && !s.sortAcc then 7
  else 0

/-- The STAT word of a block in a frame's data: that of the block's status channel. -/
def blockStat (g : Gen) (s : StreamDef) (stream block : Nat) (data : Bytes) : Option Nat :=
  ((rangeFrom s.firstChan s.count).find? fun c =>
    let e := entryOf g c
    e.statusRole && e.block = block && yields g stream c).map fun c => beAt data (entryOf g c).pos 2

/-- The values of a C37.118.2 frame by position of the run (R108, R109, R112), under the slot's generation. -/
def c37Values (g : Gen) (s : StreamDef) (stream : Nat) (data : Bytes) : List W64 :=
  (rangeFrom s.firstChan s.count).map fun c =>
    let e := entryOf g c
    if !yields g stream c then noValue
    else
      let v := convert e (scaleOf g e.scale) ((data.drop e.pos).take (formatLen e.format))
      let why := match blockStat g s stream e.block data with
        | some x => statWhy s x
        | none => 0
      if e.statusRole || why = 0 then v else invalidVal why

/-- Blocks of a frame that STAT made invalid by data error or test mode (BLOCK_ERR). -/
def blockErrs (g : Gen) (s : StreamDef) (stream : Nat) (data : Bytes) : Nat :=
  ((List.range s.blocks).filter fun b => match blockStat g s stream b data with
    | some x => let w := statWhy s x; w = 2 || w = 3
    | none => false).length

/-- The effect of a quality attribute on a value (R119): validity in bits [1:0], test in bit 11 (log entry 12). -/
def svQuality (s : StreamDef) (q : Nat) (v : W64) : W64 :=
  let y := bits q 0 2
  if y = 3 then (if s.questAcc then v else invalidVal 6)
  else if y != 0 then invalidVal 5
  else if bit q 11 && !s.testAcc then invalidVal 3
  else v

/-- The status channel of an ASDU (R120). -/
def svStat (sim : Bool) (smpSynch quality : Nat) : Nat :=
  let acc := bits quality 0 5
  let sq := if acc = 31 then 7 else statqOf (ceilDiv secNs (2 ^ acc))
  b2n sim * 2 ^ 15 + b2n (smpSynch = 0) * 2 ^ 13 + sq * 64 + (if bit quality 5 then 3 else 0) * 16

/-- The values of an ASDU by position of the run (R119, R120). -/
def svValues (g : Gen) (s : StreamDef) (stream stat : Nat) (sample : Bytes) : List W64 :=
  (rangeFrom s.firstChan s.count).map fun c =>
    let e := entryOf g c
    if !yields g stream c then noValue
    else if e.statusRole then BitVec.ofNat 64 stat
    else
      let v := convert e (scaleOf g e.scale) ((sample.drop e.pos).take (formatLen e.format))
      if e.qual then svQuality s (beAt sample (e.pos + formatLen e.format) 4) v else v

/-! ### Instants (R113, R114, R121) -/

/-- The instant of a UTC second and a fraction of `base` parts, rounded with halves up. -/
def instOf (tai frac base : Nat) : W48 × W32 :=
  let ns := (2 * frac * secNs + base) / (2 * base)
  if secNs ≤ ns then (BitVec.ofNat 48 (tai + 1), 0) else (BitVec.ofNat 48 tai, BitVec.ofNat 32 ns)

/-- The TAI second of a UTC second: by the leap-occurred bit where the stream trusts it, else the one nearer to the arrival
time, T - 1 where both are as near (log entry 13). -/
def taiSecond (d : Dev) (trust : Option Bool) (utc : Nat) (arrival : Stamp) (ns : Nat) : Nat :=
  let early := taiOf (leapTable d) utc true
  let late := taiOf (leapTable d) utc false
  match trust with
  | some occurred => if occurred then late else early
  | none =>
    let gap (t : Nat) : Nat := (((t * secNs + ns) * 65536 : Nat) - (arrival.toFine : Nat) : Int).natAbs
    if gap late < gap early then late else early

/-- A deletion of the table removes a UTC second (R69): no TAI second names it. -/
def goneSecond (d : Dev) (utc : Nat) : Bool :=
  !(leapTable d).isEmpty && (leapTable d).all fun e => offAt (leapTable d) (utc + e.off) != e.off

/-- The nearest instant of a rate to a time, which is the start of its tick (R4), and whether the time lies more than 1,000 ns off it
(R177 step 1): a time midway takes the earlier one. -/
def gridOf (rate : Nat) (sec : W48) (ns : Nat) : W48 × Nat × Bool :=
  let at_ (n : Nat) : Nat := tickStartNs (n * periodTicks rate)
  let gap (n : Nat) : Nat := ((ns : Int) - at_ n).natAbs
  let lo := ns * rate / secNs
  let n := if gap (lo + 1) < gap lo then lo + 1 else lo
  let far := decide (1000 < gap n)
  if n = rate then (sec + 1, 0, far) else (sec, n * periodTicks rate, far)

/-- A live generation with the instants that it holds: from its own switch tick on, and before the next one's (R9, R24). -/
structure GenSpan where
  num  : W16
  gen  : Gen
  from_ : Nat
  before : Option Nat

/-- The instant lies in the generation. -/
def GenSpan.holds (x : GenSpan) (inst : Nat) : Bool := decide (x.from_ ≤ inst) && x.before.all fun b => decide (inst < b)

/-- The live generations (R10, R24): the pending one, the current one, and the old one until it retires. -/
def liveGens (d : Dev) : List GenSpan :=
  let startOf (x : Option (W48 × Nat)) : Nat := (x.map fun s => tickInst s.1 s.2).getD 0
  let next := d.clk.pending.map fun s => tickInst s.sec s.tick
  let cur : GenSpan := { num := d.clk.gen, gen := d.cur, from_ := startOf d.clk.genStart, before := next }
  let pend : List GenSpan := match next with
    | some n => [{ num := d.clk.gen + 1, gen := d.staged, from_ := n, before := none }]
    | none => []
  let old : List GenSpan := match d.old with
    | some g => [{ num := d.clk.gen - 1, gen := g, from_ := startOf d.clk.oldStart, before := some (startOf d.clk.genStart) }]
    | none => []
  pend ++ [cur] ++ old

/-- A stream's slot under one generation: its definition there, and the grid of its rate. -/
structure GenSlot where
  span : GenSpan
  defn : StreamDef
  grid : W48 × Nat × Bool

/-- The slots that a report's time may name, by live generation: the instant of the stream's rate in that generation lies in it. -/
def genSlots (d : Dev) (k : Nat) (sec : W48) (ns : Nat) : List GenSlot :=
  (liveGens d).filterMap fun x => (mfind x.gen.streams k).bind fun s =>
    let p := gridOf s.rate sec ns
    if x.holds (tickInst p.1 p.2.1) then some { span := x, defn := s, grid := p } else none

/-- The slot of a report (R9, R15, R23, R125): where two generations define the stream with different rates, the one on whose grid the time
lies, and else the one that holds the time itself. None where no live generation defines the stream at that instant. -/
def reportSlot (d : Dev) (k : Nat) (sec : W48) (ns : Nat) : Option GenSlot :=
  let l := genSlots d k sec ns
  ((l.find? fun x => !x.grid.2.2) <|> (l.find? fun x => x.span.holds (instNs sec ns))) <|> l.head?

end Sys2Proof.Machine
end

