-- ==== Sys2Proof/Machine/Trigger.lean ====
section
/-!
DEFINITION. Capture triggers on their way to their sessions (R342, Table 12-3).
-/
namespace Sys2Proof.Machine

/-- The device's skew of a modulator channel, or of EVENT pin `k` as entry 48 + k, in ns (R343). -/
def skewOf (d : Dev) (i : Nat) : Int := mget 0 d.cap.skews i
/-- An instant less a skew. -/
def unskew (d : Dev) (i raw : Nat) : Nat := ((raw : Int) - skewOf d i).toNat
/-- A session's terms of a kind that an event meets, each as a trigger for it: `hit` looks at SELECTOR, `edge` is the bit of EDGE, none where the
kind has no edge. -/
def termHits (d : Dev) (s kind : Nat) (hit : W32 → Bool) (edge : Option Nat) (raw tp : Nat) : List CapWait :=
  match (sessOf d s).defn with
  | none => []
  | some c => c.terms.zipIdx.filterMap fun e =>
    if e.1.kind = kind && hit e.1.sel && edge.all (bit e.1.edge.toNat) then
      some { session := s, kind := kind, term := e.2, sel := e.1.sel, raw := raw, tp := tp }
    else none
/-- Triggers are sent. -/
def sendTriggers (l : List CapWait) (d : Dev) : Dev := { d with cap := { d.cap with waiting := d.cap.waiting ++ l } }
/-- An event that every session may have a term for. -/
def offerTrigger (kind : Nat) (hit : W32 → Bool) (edge : Option Nat) (raw tp : Nat) (d : Dev) : Dev :=
  sendTriggers ((List.range 32).map fun s => termHits d s kind hit edge raw tp).flatten d
/-- Bit of EDGE: 0 a raise or rising edge, 1 a clear or falling edge. -/
def edgeBit (up : Bool) : Nat := if up then 0 else 1
/-- The raise or clear of an alarm source, at the instant of its slot: kind 1 a limit channel, kind 2 an engine source. -/
def alarmTrigger (kind which : Nat) (up : Bool) (c : AlmCtx) (d : Dev) : Dev :=
  let t := tickInst c.sec c.tick
  offerTrigger kind (fun w => w.toNat = which || (kind = 1 && w = 0x01FFFFFF)) (some (edgeBit up)) t t d

end Sys2Proof.Machine
end

