-- ==== Sys2Proof/Machine/Formats.lean ====
section
/-!
DEFINITION. What an O-stream publishes (R148, R197, R198, R201, R205, R206): its contributors, their blocks and channels in
order, and the shards that a generation's layout gives.
-/
namespace Sys2Proof.Machine

/-! ### Contributors (R168, R169, R172) -/

/-- The memberships of an O-stream in index order: entries of its range that name it. -/
def membsOf (g : Gen) (o : Nat) : List (Nat × Memb) :=
  match mfind g.os o with
  | none => []
  | some x => g.membs.filter fun e => x.firstMemb ≤ e.1 && e.1 < x.firstMemb + x.membCount && e.2.ostream = o

/-- The periods of a contributor and its O-stream divide one into the other (R169). -/
def ratesFit (fc fo : Nat) : Bool := periodTicks fc % periodTicks fo = 0 || periodTicks fo % periodTicks fc = 0

/-- The stream of a membership that may contribute; none where the membership is in breach (R172). -/
def contribOf (g : Gen) (m : Memb) : Option StreamDef :=
  match mfind g.streams m.stream, mfind g.os m.ostream with
  | some s, some x => if ratesFit s.rate x.rate then some s else none
  | _, _ => none

/-- A membership is expected at a tick of its O-stream: the tick is an instant of the contributor too (R169). -/
def expectedAt (g : Gen) (m : Memb) (tick : Nat) : Bool :=
  match contribOf g m with
  | some s => tick % periodTicks s.rate = 0
  | none => false

/-! ### Blocks and channels -/

/-- The channels that bind to a stream, in index order: of a stream that the generation does not define, all that name it (R172). -/
def chansOf (g : Gen) (stream : Nat) : List Nat :=
  match mfind g.streams stream with
  | some s => (rangeFrom s.firstChan s.count).filter fun c => (entryOf g c).type != 0 && (entryOf g c).stream = stream
  | none => (g.dir.filter fun e => e.2.type != 0 && e.2.stream = stream).map Prod.fst

/-- The field a channel fills (Table 7-2): 0 STAT, 1 phasor, 2 frequency, 3 ROCOF, 4 analogue, 5 digital word. -/
def fieldOf (e : DirEntry) : Nat :=
  if e.statusRole then 0
  else match e.type with
    | 1 => 1 | 2 => 2 | 3 => 3 | 4 => 4 | 5 => 5
    | 6 => if e.format = 0 then 1 else if e.format = 1 then 4 else 5
    | _ => 4

/-- The canonical form of a channel: 0 phasor, 1 real, 2 digital word, 3 status. -/
def formOf (e : DirEntry) : Nat := match fieldOf e with | 0 => 3 | 1 => 0 | 5 => 2 | _ => 1

/-- One output block (R197, R198): its membership and stream, its status channel, and its selected channels by field. -/
structure OutBlock where
  memb   : Nat
  stream : Nat
  stat   : Option Nat
  phasors : List Nat
  freq   : Option Nat
  rocof  : Option Nat
  analogs : List Nat
  digitals : List Nat
  deriving DecidableEq, Repr

/-- The channels of a block in field order. -/
def OutBlock.chans (b : OutBlock) : List Nat :=
  b.stat.toList ++ b.phasors ++ b.freq.toList ++ b.rocof.toList ++ b.analogs ++ b.digitals

/-- A channel is selected by a membership (R148). -/
def selected (g : Gen) (m : Memb) (c : Nat) : Bool := bit (entryOf g c).pubsel m.sel

/-- A block of some of a contributor's channels; none where none is selected. -/
def blockOf (g : Gen) (i : Nat) (m : Memb) (l : List Nat) : Option OutBlock :=
  let sel := l.filter (selected g m)
  let of_ (k : Nat) := sel.filter fun c => fieldOf (entryOf g c) = k
  let f := (of_ 2).head?
  let r := (of_ 3).head?
  if sel.isEmpty then none
  else some { memb := i, stream := m.stream, stat := l.find? fun c => (entryOf g c).statusRole, phasors := of_ 1, freq := f, rocof := r,
              analogs := sel.filter (fun c => let k := fieldOf (entryOf g c)
                k = 4 || (k = 2 && f != some c) || (k = 3 && r != some c)),
              digitals := of_ 5 }

/-- The blocks a contributor gives, in ascending BLOCK. -/
def contribBlocks (g : Gen) (i : Nat) (m : Memb) : List OutBlock :=
  let l := chansOf g m.stream
  match mfind g.streams m.stream with
  | none => (blockOf g i m l).toList
  | some s =>
    if isC37 s.kind then (List.range s.blocks).filterMap fun b => blockOf g i m (l.filter fun c => (entryOf g c).block = b)
    else (blockOf g i m l).toList

/-- The channels a contributor publishes, in the order of R226: by blocks for C37.118.2, in ascending index for sampled
values. -/
def contribChans (g : Gen) (sv : Bool) (i : Nat) (m : Memb) : List (List Nat) :=
  if sv then [(chansOf g m.stream).filter (selected g m)] else (contribBlocks g i m).map OutBlock.chans

/-! ### Shards -/

/-- Bytes of a block in a frame (R198). -/
def blockLen (f : OstreamFmtP) (b : OutBlock) : Nat :=
  2 + b.phasors.length * (if f.phFmt.toNat < 2 then 4 else 8) + (if f.frFmt = 0 then 4 else 8) +
  b.analogs.length * (if f.anFmt = 0 then 2 else 4) + 2 * b.digitals.length

/-- Bytes of a channel's element and quality in a sampled-value SPDU (R205). -/
def elemLen (e : DirEntry) : Nat := if formOf e = 0 then 12 else 8

/-- Lays items of given sizes into shards: a new one begins where the next would take the length above the limit; an item
that fits none is left out. -/
def intoShards {α : Type} (size : α → Nat) (base limit : Nat) : List α → List (List α)
  | l => ((l.filter fun x => base + size x ≤ limit).foldl (fun (acc : List (List α) × Nat) x =>
      match acc.1 with
      | [] => ([[x]], base + size x)
      | s :: t => if limit < acc.2 + size x then ([x] :: s :: t, base + size x) else ((s ++ [x]) :: t, acc.2 + size x))
      ([], base)).1.reverse

/-- The shards of a C37.118.2 O-stream, and how many blocks are sent in none (R201). -/
def c37Shards (g : Gen) (o : Nat) (f : OstreamFmtP) : List (List OutBlock) × Nat :=
  let all := ((membsOf g o).map fun e => contribBlocks g e.1 e.2).flatten
  let s := (intoShards (blockLen f) 16 f.frameMax.toNat all).take (65536 - f.idcodeBase.toNat)
  (s, all.length - (s.map List.length).sum)

/-- A number in decimal, as ASCII. -/
def decimal (n : Nat) : Bytes := (Nat.toDigits 10 n).map fun c => BitVec.ofNat 8 c.toNat
/-- svID of shard `i` of `n` (Table 7-4). -/
def svName (f : OstreamFmtP) (i n : Nat) : Bytes := f.svid.takeWhile (· != 0) ++ (if 1 < n then 0x2F :: decimal i else [])
/-- Lays contributors of given sizes into SPDUs: `fits i n` says that shard `i` may carry `n` bytes of elements. A contributor is never
split, and one that a new shard could not carry is left out. -/
def layShards {α : Type} (size : α → Nat) (fits : Nat → Nat → Bool) (l : List α) : List (List α) :=
  (l.foldl (fun (acc : List (List α) × Nat) x =>
    let fresh := if fits acc.1.length (size x) then ([x] :: acc.1, size x) else acc
    match acc.1 with
    | [] => fresh
    | s :: t => if fits t.length (acc.2 + size x) then ((s ++ [x]) :: t, acc.2 + size x) else fresh) ([], 0)).1.reverse
/-- The shards of a sampled-value O-stream by membership, and how many contributors are sent in none (R206). An SPDU is counted whole: the
part that the standard fixes (log entry 12), the svID as it stands with one shard or with more, the elements, and the longest signature of
the O-stream's templates, which all send the same shards (log entry 33). -/
def svShards (g : Gen) (o : Nat) (f : OstreamFmtP) : List (List (Nat × Memb)) × Nat :=
  let all := (membsOf g o).filter fun e => !((chansOf g e.2.stream).filter (selected g e.2)).isEmpty
  let size (e : Nat × Memb) := (((chansOf g e.2.stream).filter (selected g e.2)).map fun c => elemLen (entryOf g c)).sum
  let sig := ((g.tpls.filter fun e => e.2.ostream.toNat = o).map fun e => sigRoom e.2.sig.toNat).foldl max 0
  let fits (n i len : Nat) : Bool := Config.svFixed (svName f i n).length len + len + sig ≤ f.frameMax.toNat
  let one := layShards size (fits 1) all
  let s := if one.length < 2 then one else layShards size (fits 2) all
  (s, all.length - (s.map List.length).sum)

/-- The O-stream and shard that an IDCODE names in a generation (R203). -/
def shardOf (g : Gen) (id : Nat) : Option (Nat × Nat) :=
  g.fmts.findSome? fun e =>
    if e.2.proto = 0 && (mfind g.os e.1).isSome && e.2.idcodeBase.toNat ≤ id &&
        id - e.2.idcodeBase.toNat < (c37Shards g e.1 e.2).1.length then some (e.1, id - e.2.idcodeBase.toNat)
    else none

end Sys2Proof.Machine
end

