-- ==== Sys2Proof/Machine/Alarm.lean ====
section
/-!
DEFINITION. The alarm hub (chapter 10): limit tests, engine sources, alarm records, the alarm pins and routed GOOSE.
-/
namespace Sys2Proof.Machine

/-! ### Sources -/

/-- The engine sources Table 10-7 defines. -/
def engSource (n : Nat) : Bool := n ≤ 3 || (16 ≤ n && n ≤ 64) || (80 ≤ n && n ≤ 114)
/-- The state of an engine source. -/
def sourceOf (d : Dev) (n : Nat) : SrcState := mget {} d.alm.sources n
/-- The state of an engine source replaced. -/
def setSource (n : Nat) (x : SrcState) (d : Dev) : Dev := { d with alm := { d.alm with sources := mput {} d.alm.sources n x } }
/-- A generation by its number: the current, the old or the pending one (R23, R24). -/
def genByNum (d : Dev) (n : W16) : Option Gen :=
  if n = d.clk.gen then some d.cur
  else if n = d.clk.gen - 1 then d.old
  else if n = d.clk.gen + 1 && d.clk.pending.isSome then some d.staged
  else none

/-- A limit class that was never written: the wiped store's zeros (log entry 4). -/
def class0 : LimitClass :=
  { high := 0, low := 0, rate := 0, hyst := 0, qsel := 0, flags := 0, onN := 0, offN := 0, pins := 0, goose := 0 }
/-- The limit class of a channel in a generation; none where LIMIT is 0. -/
def classAt (g : Gen) (chan : Nat) : Option LimitClass :=
  let i := (entryOf g chan).limit
  if i = 0 then none else some (mget class0 g.limits i)
/-- QSEL fits the channel's type (R306). -/
def qselFits (e : DirEntry) (c : LimitClass) : Bool :=
  match c.qsel with
  | 0 => formOf e != 0
  | 1 => formOf e = 0
  | 3 => e.type = 2
  | 4 => formOf e = 2 || formOf e = 3
  | _ => true
/-- A channel without monitoring in the current generation (R306). -/
def unmonitored (d : Dev) (chan : Nat) : Bool := (mfind d.alm.limits chan).isNone || d.alm.oldOnly.contains chan

/-- A member of a GOOSE template is raised (R314). -/
def memberOn (d : Dev) (m : Nat × Nat) : Bool :=
  if m.1 = 0 then !unmonitored d m.2 && ((mfind d.alm.limits m.2).map LimitState.raised).getD false
  else (sourceOf d m.2).raised

/-! ### Alarm pins (R309) -/

/-- PINS of the limit class that a raised channel is under. -/
def limitPins (d : Dev) (chan : Nat) : BitVec 16 :=
  let g := if d.alm.oldOnly.contains chan then d.old.getD d.cur else d.cur
  ((classAt g chan).map LimitClass.pins).getD 0
/-- The pins that some source, launch level or ALM_FORCE asserts. -/
def pinsWanted (d : Dev) : BitVec 16 :=
  let l := (d.alm.limits.filter fun e => e.2.raised).foldl (fun v e => v ||| limitPins d e.1) 0
  let s := (d.alm.sources.filter fun e => e.2.raised).foldl (fun v e => v ||| e.2.map.pins) 0
  l ||| s ||| d.alm.launch ||| d.alm.force
/-- An alarm pin's state. -/
def pinOf (d : Dev) (p : Nat) : AlmPin := mget {} d.alm.pins p
/-- An alarm pin's state replaced. -/
def setPin (p : Nat) (x : AlmPin) (d : Dev) : Dev := { d with alm := { d.alm with pins := mput {} d.alm.pins p x } }
/-- ALM_PINS.ASSERTED. -/
def pinsAsserted (d : Dev) : BitVec 16 := (d.alm.pins.filter fun e => e.2.asserted).foldl (fun v e => setBit v e.1) 0
/-- A pin's level goes out where it is enabled, driven, and not held through a switch-over gap. -/
def showPin (p : Nat) (d : Dev) : Dev :=
  let x := pinOf d p
  if x.enabled && drives d && d.alm.frozen.isNone then emit (.pin 0 p (padLevel x.openDrain (x.asserted == x.high))) d else d
/-- One pin follows what asserts it, MIN_WIDTH apart. -/
def pinStep (want : BitVec 16) (d : Dev) (p : Nat) : Dev :=
  let x := pinOf d p
  let w := bit want.toNat p
  if w && !x.asserted then showPin p (setPin p { x with asserted := true, running := x.minWidth != 0 } d)
  else if !w && x.asserted && !x.running then showPin p (setPin p { x with asserted := false } d)
  else d
/-- All pins follow; a change of ALM_PINS.ASSERTED is announced (Table 19-7, GBL_LB_SRC.ALM_CHG). -/
def pinsFollow (d : Dev) : Dev :=
  let before := pinsAsserted d
  let d := (List.range 16).foldl (pinStep (pinsWanted d)) d
  if pinsAsserted d = before then d
  else sendMsix false 46 { d with gbl := { d.gbl with win := { d.gbl.win with almChg := true } } }

/-! ### Routed GOOSE (R313 to R316) -/

/-- A printable string of a descriptor without its padding. -/
def unpad (b : Bytes) : Bytes := b.takeWhile (· != 0)
/-- The two tags of a descriptor from byte `i`, as many as the count says. -/
def gooseTags (d : Dev) (port : Nat) (x : Bytes) : Bytes :=
  ((List.range (leAt x 5 1)).map fun k =>
    tagBytes (if k = 0 then tpidOf (portOf d port) (leAt x 6 1) else 0x8100) (tciOf (leAt x (7 + 4 * k) 1) (leAt x (8 + 4 * k) 2))).flatten
/-- The destination of a GOOSE template. -/
def gooseDest (d : Dev) (port : Nat) (x : Bytes) : Dest :=
  { dstIp := BitVec.ofNat 128 (beAt x 16 16), srcIp := BitVec.ofNat 128 (beAt x 32 16), dstMac := BitVec.ofNat 48 (beAt x 48 6),
    udpSrc := leAt x 54 2, udpDst := leAt x 56 2, ttl := leAt x 3 1, dscp := leAt x 4 1, tags := gooseTags d port x }
/-- The SPDU of a GOOSE message (R314). -/
def gooseSpdu (d : Dev) (g : Goose) : Bytes :=
  let x := g.desc
  let sig := leAt x 2 1
  let ns := g.changed.ns.toNat
  let utc := if unsetTime d then g.changed.sec.toNat else (utcOf (leapTable d) g.changed.sec.toNat).1
  signSpdu d sig g.cur (Config.svBuild
    ([0xA1, 2, g.spdu.toNat] ++ keyFields sig g.cur ++ [leAt x 14 2, 3 * g.interval, g.stNum.toNat, g.sqNum.toNat, leAt x 58 4,
      utc, (ns * 2 ^ 24 + secNs / 2) / secNs, timeQuality d] ++ g.members.map fun m => b2n (memberOn d m))
    [unpad (cut x 256 64), unpad (cut x 320 64), unpad (cut x 384 64)])
/-- A GOOSE template replaced. -/
def setGoose (t : Nat) (g : Goose) (d : Dev) : Dev := { d with alm := { d.alm with goose := mset d.alm.goose t g } }
/-- A message of a template enqueued: at priority 7, MAX_AGE 1,000 µs (R315); none from a unit that is not active (R477); a
quarantined template's is discarded and counted in GOOSE_KEY (R316). -/
def sendGoose (t : Nat) (d : Dev) : Dev :=
  match mfind d.alm.goose t with
  | none => d
  | some g =>
    if !publishes d then d
    else if g.quar then bump d 0x02 13
    else
      let port := leAt g.desc 1 1
      let f : TxFrame := { kind := 2, source := t, bytes := udpFrame d port (gooseDest d port g.desc) (gooseSpdu d g), mark := none }
      let x : EgressItem := { prio := 7, template := none, frame := f, amend := false, proto := 2, bornUs := optUs d,
                              maxAgeUs := some 1000 }
      sendItem port x (bump (setGoose t { g with spdu := g.spdu + 1 } d) 0x02 12)
/-- The peer learns stNum and sqNum whenever they change (R480). -/
def tellPeer (t : Nat) (d : Dev) : Dev :=
  match mfind d.alm.goose t with
  | some g => if d.hrd.enabled && decide (d.hrd.lane = .up) then emit (.stateCell t g.stNum g.sqNum) d else d
  | none => d
/-- stNum and sqNum wrap to 1 (R315). -/
def nextNum (n : W32) : W32 := if n = 0xFFFFFFFF then 1 else n + 1
/-- A template whose members changed sends its new state (R315). -/
def gooseFollow (before : Dev) (d : Dev) : Dev :=
  d.alm.goose.foldl (fun d e =>
    if leAt e.2.desc 0 1 = 1 && e.2.members.any (fun m => memberOn before m != memberOn d m) then
      sendGoose e.1 (tellPeer e.1 (setGoose e.1 { e.2 with stNum := nextNum e.2.stNum, sqNum := 0, changed := nowStamp d,
                                                           interval := leAt e.2.desc 62 2 } d))
    else d) d
/-- Pins and GOOSE follow what an event did to the alarm sources. -/
def almSettle (before : Dev) (d : Dev) : Dev := gooseFollow before (pinsFollow d)

/-! ### Alarm records (Table 10-9) -/

/-- Writes an ALARM record: every raise and every clear does (R312). -/
def almRecord (c : AlmCtx) (kind how conds num what : Nat) (x lim : W64) (pins : BitVec 16) (goose : Nat) (d : Dev) : Dev :=
  postRecord 4 (leBytes 6 c.sec.toNat ++ leBytes 2 c.tick ++ leBytes 2 c.ostream ++ leBytes 2 c.gen.toNat ++
    leBytes 1 kind ++ leBytes 1 how ++ leBytes 2 conds ++ leBytes 4 num ++ leBytes 4 what ++ leBytes 8 x.toNat ++
    leBytes 8 lim.toNat ++ leBytes 2 pins.toNat ++ leBytes 1 goose ++ [0] ++ (nowStamp d).bytes) [] (bump d 0x02 9)

/-! ### Engine sources (R307, R308) -/

/-- The FLAGS bit of the block whose source was raised: EST_FLAGS.ALARM, OSC_FLAGS.ALARM. -/
def engFlag (n : Nat) (d : Dev) : Dev :=
  if n < 16 then setFlag 0x0B 7 d else if n < 65 then setFlag 0x0C 6 d else d
/-- An engine source's condition holds: it is raised, unless it is so already. -/
def engRaise (n : Nat) (c : AlmCtx) (detail : Nat) (value lim : W64) (d : Dev) : Dev :=
  let x := sourceOf d n
  if x.raised then setSource n { x with latched := false } d
  else
    let m := mget {} d.alm.map n
    let d := setSource n { raised := true, latched := false, value := value, detail := BitVec.ofNat 32 detail, limit := lim,
                           map := m, ctx := c, changed := some (nowStamp d) } d
    alarmTrigger 2 n true c (engFlag n (setFlag 0x02 1 (bump (almRecord c 1 (1 + 2 * b2n m.latch) 0 n detail value lim m.pins m.goose d) 0x02 3)))
/-- The source ends, with its record (bit 2 of `how` where an acknowledgement ended it). -/
def engEnd (n : Nat) (ack : Bool) (d : Dev) : Dev :=
  let x := sourceOf d n
  let m := mget {} d.alm.map n
  let d := setSource n { x with raised := false, latched := false, map := m, changed := some (nowStamp d) } d
  alarmTrigger 2 n false x.ctx (bump (almRecord x.ctx 1 (2 * b2n m.latch + 4 * b2n ack) 0 n x.detail.toNat x.value x.limit m.pins m.goose d) 0x02 4)
/-- An engine source's condition has cleared: its latch may hold it. -/
def engClear (n : Nat) (c : AlmCtx) (detail : Nat) (value : W64) (d : Dev) : Dev :=
  let x := sourceOf d n
  if !x.raised || x.latched then d
  else
    let d := setSource n { x with ctx := c, detail := BitVec.ofNat 32 detail, value := value } d
    if (mget {} d.alm.map n).latch then setSource n { sourceOf d n with latched := true } d else engEnd n false d

/-! ### Limit tests (R303 to R306) -/

/-- The tested quantity of a valid value (R304): a digital word's value is its bits [15:0] (log entry 15). -/
def quantity (e : DirEntry) (c : LimitClass) (v : W64) : W64 :=
  let y := match formOf e with
    | 0 => phMag v
    | 1 => v
    | _ => f64Int (bits v.toNat 0 16)
  if c.qsel = 2 then f64Div y (f32To64 e.nominal) else if c.qsel = 3 then f64Sub y (fnomOf e) else y
/-- The change per second since the stream's preceding instant, where that one was tested. -/
def rateAt (s : StreamDef) (sec : W48) (tick : Nat) (prev : Option (W48 × Nat × W64)) (x : W64) : Option W64 :=
  match prev with
  | some p => if tickOrd p.1 p.2.1 + periodTicks s.rate = tickOrd sec tick then
      some (f64Mul (f64Abs (f64Sub x p.2.2)) (f64Int s.rate)) else none
  | none => none
/-- The conditions that hold on a valid value (R304): bit 0 HIGH, 1 LOW, 2 RATE, 3 DIGITAL. -/
def condsOf (c : LimitClass) (raised : Bool) (x : W64) (rate : Option W64) : Nat :=
  if c.qsel = 4 then b2n ((f64Q x).1.toNat.land (bits c.high.toNat 0 16) != bits c.high.toNat 16 16) * 8
  else
    let h := f32To64 c.hyst
    b2n (bit c.flags.toNat 0 && (f64Lt c.high x || (raised && f64Lt (f64Sub c.high h) x))) +
    b2n (bit c.flags.toNat 1 && (f64Lt x c.low || (raised && f64Lt x (f64Add c.low h)))) * 2 +
    b2n (bit c.flags.toNat 2 && (rate.any fun r => f64Lt (f32To64 c.rate) r)) * 4
/-- The lowest condition that holds, by its bit. -/
def firstCond (n : Nat) : Nat := ((List.range 5).find? (bit n)).getD 5
/-- The limit crossed, by the first condition. -/
def limitOf (c : LimitClass) (k : Nat) : W64 :=
  match k with
  | 0 => c.high | 1 => c.low | 2 => f32To64 c.rate | 3 => f64Int (bits c.high.toNat 16 16) | _ => 0
/-- The limit state of a channel replaced. -/
def setLimit (chan : Nat) (x : LimitState) (d : Dev) : Dev := { d with alm := { d.alm with limits := mset d.alm.limits chan x } }
/-- A raised limit source ends, with its record. -/
def limitEnd (chan what : Nat) (c : LimitClass) (ack : Bool) (d : Dev) : Dev :=
  match mfind d.alm.limits chan with
  | none => d
  | some x =>
    let d := setLimit chan { x with raised := false, latched := false, changed := some (nowStamp d) } d
    alarmTrigger 1 chan false x.ctx (bump (almRecord x.ctx 0 (2 * b2n (bit c.flags.toNat 4) + 4 * b2n ack) 0 chan what x.lastX 0 c.pins c.goose d) 0x02 2)
/-- The counts and the state after the conditions of one test (R305). -/
def limitCount (chan what : Nat) (c : LimitClass) (v : W64) (conds : Nat) (rate : Option W64) (x : LimitState) (d : Dev) : Dev :=
  let latch := bit c.flags.toNat 4
  if conds != 0 then
    let n := min 255 (x.onN + 1)
    let y : LimitState := { x with onN := n, offN := 0, conds := conds, latched := false }
    if !x.raised && c.onN ≤ n then
      let k := firstCond conds
      let shown := if k = 4 then v else if k = 2 then rate.getD 0 else x.lastX
      let d := setLimit chan { y with raised := true, changed := some (nowStamp d) } d
      alarmTrigger 1 chan true x.ctx (setFlag 0x02 0 (bump (almRecord x.ctx 0 (1 + 2 * b2n latch) conds chan what shown (limitOf c k) c.pins c.goose d) 0x02 1))
    else setLimit chan y d
  else
    let n := min 255 (x.offN + 1)
    let y : LimitState := { x with onN := 0, offN := n, conds := 0 }
    if x.raised && !x.latched && c.offN ≤ n then
      (if latch then setLimit chan { y with latched := true } d else limitEnd chan what c false (setLimit chan y d))
    else setLimit chan y d
/-- The limit entry that a slot of a generation tests a channel with (R306); an old-generation slot whose channel's entry was
reassigned is counted in LIMIT_OLD_SKIP, and one whose channel was not monitored in its generation has none. -/
def limitEntry (gen : W16) (chan : Nat) (d : Dev) : Option LimitState × Dev :=
  if gen = d.clk.gen then (if d.alm.oldOnly.contains chan then none else mfind d.alm.limits chan, d)
  else if d.alm.reassigned.contains chan then (none, bump d 0x02 11)
  else if d.alm.newOnly.contains chan then (none, d)
  else (mfind d.alm.limits chan, d)
/-- One test of a landed value (R303 to R305). -/
def testLimit (g : Gen) (ctx : AlmCtx) (chan : Nat) (v : W64) (d : Dev) : Dev :=
  let e := entryOf g chan
  match classAt g chan, mfind g.streams e.stream with
  | some c, some s =>
    match limitEntry ctx.gen chan d with
    | (none, d) => d
    | (some x, d) =>
      let d := bump d 0x02 0
      let x := { x with ctx := ctx }
      if isInvalid v then
        (if bit c.flags.toNat 3 then limitCount chan e.limit c v 16 none x d else setLimit chan x d)
      else
        let q := quantity e c v
        let rate := rateAt s ctx.sec ctx.tick x.prev q
        limitCount chan e.limit c v (condsOf c x.raised q rate) rate
          { x with prev := some (ctx.sec, ctx.tick, q), lastX := q } d
  | _, _ => d

/-! ### The Gazelle path (R310, R311) -/

/-- The landing block of a channel: 15 values each (R30). -/
def blockIn (s : StreamDef) (chan : Nat) : Nat := (chan - s.firstChan) / 15
/-- The landing blocks of an O-stream's contributors that hold pin-class channels, in membership order. -/
def gzBlocks (g : Gen) (o : Nat) : List (Nat × Nat) :=
  ((membsOf g o).map fun m =>
    match contribOf g m.2 with
    | some s => ((chansOf g m.2.stream).filter fun c => (classAt g c).any fun l => l.pins != 0).map fun c => (m.2.stream, blockIn s c)
    | none => []).flatten.foldl (fun l b => if l.contains b then l else l ++ [b]) []
/-- The Gazelle set: the first 64 of them. -/
def gzSet (g : Gen) (o : Nat) : List (Nat × Nat) := (gzBlocks g o).take 64
/-- The context of a record's tests. -/
def recCtx (r : Record) : AlmCtx :=
  { sec := r.summary.sec, tick := r.summary.tick, ostream := r.summary.ostream, gen := r.summary.gen }
/-- The value of a channel as it landed, or the invalid value that the commit gave an absent contributor (R231, R303). -/
def landedAt (s : StreamDef) (c : Contrib) (chan : Nat) : W64 :=
  if c.here then (let v := lget noValue c.landed (chan - s.firstChan); if v = noValue then invalidVal 0x15 else v)
  else invalidVal c.why
/-- Tests the landed values of a record that this commit tests, in its Gazelle set or outside it. -/
def testRecord (inSet : Bool) (r : Record) (d : Dev) : Dev :=
  match genByNum d r.summary.gen with
  | none => d
  | some g =>
    let gset := gzSet g r.summary.ostream
    let vals := (r.contribs.filter Contrib.tests).map fun c =>
      match mfind g.streams c.stream with
      | some s => (c.all.filter fun v => gset.contains (c.stream, blockIn s v.1) = inSet).map fun v => (v.1, landedAt s c v.1)
      | none => []
    almSettle d (vals.flatten.foldl (fun d v => testLimit g (recCtx r) v.1 v.2 d) d)
/-- A commit enters the Gazelle path where its O-stream has a set; blocks beyond the 64th count (R310). -/
def gzCommit (r : Record) (d : Dev) : Dev :=
  match genByNum d r.summary.gen with
  | none => d
  | some g =>
    let all := gzBlocks g r.summary.ostream
    if all.isEmpty then d
    else
      let d := bumpN (bump d 0x02 6) 0x02 8 (all.length - 64)
      { d with alm := { d.alm with gzQueue := d.alm.gzQueue ++ [{ record := r, since := nowNs d }] } }
/-- GAZELLE_LANE_START (R311): a lane takes the oldest commit; one that starts more than 812 ns after its commit is late. -/
def execGazelleLaneStart : State → Host.Outcome State Fault Refusal := runCore fun d =>
  match d.alm.gzQueue with
  | [] => d
  | w :: rest =>
    let d := { d with alm := { d.alm with gzQueue := rest } }
    let d := if w.since + 812 < nowNs d then tally tallyGzLate 0 1 0 (setFlag 0x02 2 (bump d 0x02 7)) else d
    testRecord true w.record d

/-! ### Limit plans of a generation (R306, R310) -/

/-- The plan of the staged generation at GEN_SWITCH: the channels monitored, and those that are not. -/
def limitPlan (d : Dev) : List Nat × List Nat :=
  let want := (d.staged.dir.filter fun e => e.2.type != 0 && e.2.limit != 0).map Prod.fst
  let fits (c : Nat) : Bool := (classAt d.staged c).any (qselFits (entryOf d.staged c))
  let keeps (c : Nat) : Bool := (mfind d.alm.limits c).isSome && (entryOf d.cur c).limit = (entryOf d.staged c).limit && fits c
  let kept := want.filter keeps
  let rest := want.filter fun c => !keeps c
  let take := (rest.filter fits).take (2097152 - d.alm.limits.length)
  (kept ++ take, rest.filter fun c => !take.contains c)
/-- The plan takes effect at the switch tick; `old` is the generation before it. -/
def limitPlanned (old : Gen) (plan : List Nat × List Nat) (d : Dev) : Dev :=
  let held := d.alm.limits.map Prod.fst
  let same (c : Nat) : Bool := (entryOf old c).limit = (entryOf d.cur c).limit
  let fresh := plan.1.filter fun c => !(held.contains c && same c)
  let limits := fresh.foldl (fun m c => mset m c {}) d.alm.limits
  let d := { d with alm := { d.alm with
    limits := limits
    plan := none
    reassigned := fresh.filter held.contains
    newOnly := fresh.filter fun c => !held.contains c
    oldOnly := held.filter fun c => !plan.1.contains c } }
  let d := match plan.2 with
    | [] => d
    | c :: t => logEv 0x0203 plan.2.length (t.foldl min c) 0 (setFlag 0x02 4 (bumpN d 0x02 10 plan.2.length))
  match (d.cur.os.map Prod.fst).find? fun o => 64 < (gzBlocks d.cur o).length with
  | some o => logEv 0x0201 o (gzBlocks d.cur o).length 0 (setFlag 0x02 3 d)
  | none => d
/-- The switch tick: the plan takes effect, and pins and GOOSE follow the states that it clears. -/
def limitSwitch (old : Gen) (plan : List Nat × List Nat) (d : Dev) : Dev := almSettle d (limitPlanned old plan d)
/-- Entries that the new generation does not keep are freed at retirement; a source still raised in one ceases to be (log
entry 15). -/
def limitRetire (d : Dev) : Dev :=
  almSettle d { d with alm := { d.alm with
    limits := d.alm.oldOnly.foldl mdel d.alm.limits
    oldOnly := []
    reassigned := []
    newOnly := [] } }

end Sys2Proof.Machine
end

