-- ==== Sys2Proof/Machine/Ports.lean ====
section
/-!
DEFINITION. The ports (chapter 3): reception with the tests of R77, PAUSE, transmission, link changes, MACsec, and the port
commands.
-/
namespace Sys2Proof.Machine

/-- The source-block code of a port: TRK 0x05 or STN 0x06 (R100). -/
def portBlk (p : Nat) : Nat := if p < 8 then 0x05 else 0x06

/-- Counter `i` of a port. -/
def portCnt (p i : Nat) (d : Dev) : Dev := bumpAt d (portBlk p) p i 1

/-- A flag of a port. -/
def portFlag (p i : Nat) (d : Dev) : Dev := let x := portOf d p; setPort d p { x with flags := setBit x.flags i }

/-- A record of a port's code (R100): the low byte with the port's block. -/
def portLog (p low a b : Nat) (d : Dev) : Dev := logEv (portBlk p * 256 + low) p a b d

/-! ### Reception (R74 to R82) -/

/-- The storage bound of reception (R75). -/
def storeBound (x : Port) : Nat := x.maxLen + 8 + (if x.msec then 32 else 0)

/-- The size of a port's receive buffer. -/
def rxSize (p : Nat) : Nat := if p < 8 then 524288 else 131072

/-- What a frame occupies of the receive buffer (R137). -/
def rxCost (len : Nat) : Nat := (len + 63) / 64 * 64 + 64

/-- The PTP addresses of Table 2-8. -/
def isPtpAddr (a : W48) : Bool := a = 0x011B19000000 || a = 0x0180C200000E

/-- The destination class of an accepted address, or none (R79): 0 own, 1 multicast, 2 broadcast, 3 promiscuous. -/
def daClass (d : Dev) (p : Nat) (a : W48) : Option Nat :=
  let x := portOf d p
  if a = ownAddr d p then some 0
  else if a = 0xFFFFFFFFFFFF then some 2
  else if a = 0x0180C2000001 || (isPtpAddr a && (mget {} d.tod.ptp p).enable) then some 1
  else if bit a.toNat 40 && (x.mcastAll || x.mcast.any fun e => e.2 = a) then some 1
  else if x.promisc then some 3
  else none

/-- The selector of a TPID of the port, or none (R80). -/
def tpidSel (x : Port) (t : Nat) : Option Nat :=
  if t = 0x8100 then some 0 else if t = 0x88A8 then some 1 else if t = x.extraTpid.toNat then some 2 else none

/-- The tags of a frame from its EtherType on (R80): the number removed, OUTER, INNER and what is left. -/
def stripTags (x : Port) (b : Bytes) : Nat × BitVec 18 × BitVec 16 × Bytes :=
  match tpidSel x (beAt b 0 2) with
  | none => (0, 0, 0, b)
  | some s =>
    let outer := BitVec.ofNat 18 (s * 65536 + beAt b 2 2)
    let c := b.drop 4
    if beAt c 0 2 = 0x8100 then (2, outer, BitVec.ofNat 16 (beAt c 2 2), c.drop 4) else (1, outer, 0, c)

/-- The VID filter passes the frame (R81). -/
def vidPass (x : Port) (tags : Nat) (outer : BitVec 18) : Bool :=
  let vid := outer.toNat % 4096
  if tags = 0 || vid = 0 then x.untagged else vid != 4095 && !x.vidOff.contains vid

/-- A secured frame opened (R88 to R92): the counter of the failed test, or the plain bytes from the EtherType on with PROT, and
the receive SC with its packet number moved on. A frame without SCI belongs to the only receive SC of the port, and to none where there
are several (DESIGN CHOICE, log entry 33). -/
def macsecOpen (d : Dev) (p : Nat) (b : Bytes) : Nat ⊕ (Bytes × Byte × Nat × RxSc) :=
  let x := portOf d p
  let tci := (b.getD 14 0).toNat
  let an := tci % 4
  let hasSci := bit tci 5
  let pn32 := beAt b 16 4
  let sc := if hasSci then x.rxScs.find? fun e => e.2.sci.toNat == beAt b 20 8
            else match x.rxScs with
              | [e] => some e
              | _ => none
  match sc.bind fun e => (mfind e.2.sas an).map fun sa => (e, sa) with
  | none => .inl 8
  | some (e, sa) =>
    match (if sa.unusable then none else pipKey d sa.slot) with
    | none => .inl 11
    | some key =>
      -- the upper half of the 64-bit packet number is recovered from the lowest acceptable one (IEEE 802.1AE; log entry 10)
      let least := max sa.low (sa.pn - x.replay)
      let pn := (least / 2 ^ 32 + b2n (bit least 31 && !bit pn32 31)) * 2 ^ 32 + pn32
      match Config.unprotect 1 key (beBytes 8 e.2.sci.toNat ++ beBytes 4 sa.ssci.toNat ++ beBytes 8 pn ++ b) with
      | none => .inl 9
      | some plain =>
        if pn < least then .inl 10
        else .inr (plain, BitVec.ofNat 8 (128 + e.1 % 32 * 4 + an), e.1,
          { e.2 with sas := mset e.2.sas an { sa with pn := max sa.pn (pn + 1) } })

/-- Whether a port stops passing all but PTP and ARP: a station port in DORMANT (R98). -/
def portDormant (d : Dev) (p : Nat) : Bool := 8 ≤ p && (decide (d.pwr.run = .dormant) || decide (d.pwr.run = .waking))

/-- A witness check has seen the peer on a port (R494). -/
def witnessSeen (p : Nat) (d : Dev) : Dev :=
  if d.hrd.witnessDue.isSome && !d.hrd.peerSeen then { d with hrd := { d.hrd with peerSeen := true, peerSeenOn := p } } else d
/-- The frame comes from the peer: a PTP message of its clock identity, or a source address formed of its EUI-64 (R79, R494). -/
def fromPeer (d : Dev) (f : PortFrame) : Bool :=
  match d.hrd.peerEui with
  | none => false
  | some e => (f.etype = 0x88F7 && beAt f.payload 20 8 = e.toNat) || (f.src.toNat / 2 ^ 40 = 2 && f.src.toNat % 2 ^ 32 = e.toNat % 2 ^ 32)
/-- A beacon taken by the HRD block (R489): PAIR_ID, EUI-64, tick and health word, in network byte order (log entry 26). -/
def beaconRx (p : Nat) (f : PortFrame) (d : Dev) : Dev :=
  if beAt f.payload 0 2 = d.hrd.pairId.toNat then
    witnessSeen p { d with hrd := { d.hrd with peerEui := some (BitVec.ofNat 64 (beAt f.payload 2 8)),
                                               beaconAt := mset d.hrd.beaconAt p d.log.opt } }
  else d
/-- A witness port (R489). -/
def isWitness (d : Dev) (p : Nat) : Bool := bit d.hrd.witnessMask.toNat p

/-- Steps 9 to 13 of R77 on what the MACsec step leaves: `b` runs from the EtherType on, without FCS; `len` is the length on the
wire and `over` the length of SecTAG and ICV. A frame that passes counts in RX_OK, and PTP in clear on a MACsec port in RX_CLEAR_PTP as
well (R93). -/
def rxDispatch (clear : Bool) (p len over_ : Nat) (da sa : W48) (cls : Nat) (prot : Byte) (b : Bytes) (d : Dev) : Dev :=
  let x := portOf d p
  let t := stripTags x b
  let etype := beAt t.2.2.2 0 2
  if (tpidSel x etype).isSome then portCnt p 12 d
  else if x.maxLen + 4 * t.1 < len - over_ then portCnt p 3 d
  else if !vidPass x t.1 t.2.1 then portCnt p 13 d
  else if portDormant d p && etype != 0x88F7 && etype != 0x0806 then portCnt p 18 d
  else
    let info : RxMeta := { port := p, ts := (nowStamp d).shift (-x.rxAdj), len := len, daClass := BitVec.ofNat 2 cls, tags := t.1,
                           outer := t.2.1, inner := t.2.2.1, prot := prot }
    let f : PortFrame := { dst := da, src := sa, etype := BitVec.ofNat 16 etype, payload := t.2.2.2.drop 2, info := info }
    let d := if isWitness d p && fromPeer d f then witnessSeen p d else d
    let ok (d : Dev) : Dev := bumpAt (portCnt p 0 (if clear then portCnt p 20 d else d)) (portBlk p) p 1 len
    if isWitness d p && da = 0x03574C000001 && etype = 0x88B5 then ok (beaconRx p f d) else
    if etype = 0x0800 || etype = 0x86DD then
      let fill := x.rxFill + rxCost len
      ok (setPort d p { x with rxFifo := x.rxFifo ++ [f], rxFill := fill, rxHwm := max x.rxHwm ((fill + 1023) / 1024) })
    else if etype = 0x88F7 && (mget {} d.tod.ptp p).enable then ok (setPort d p { x with ptpQ := x.ptpQ ++ [f] })
    else if etype = 0x0806 then
      if x.ctrlQ.length < 16 then ok (setPort d p { x with ctrlQ := x.ctrlQ ++ [f] }) else portCnt p 17 d
    else portCnt p 15 d

/-- Step 8 of R77: MACsec on ports where it is enabled (R88 to R93); elsewhere a frame of EtherType 0x88E5 meets the later steps like any
other and ends in RX_ETYPE at the dispatch. -/
def rxMacsec (p len : Nat) (da sa : W48) (cls : Nat) (b : Bytes) (d : Dev) : Dev :=
  let x := portOf d p
  let rest := (b.take (b.length - 4)).drop 12
  let etype := beAt rest 0 2
  if !x.msec then
    rxDispatch false p len 0 da sa cls 0 rest d
  else if etype = 0x88E5 then
    match macsecOpen d p (b.take (b.length - 4)) with
    | .inl c => portCnt p c d
    | .inr (plain, prot, i, sc) =>
      let d := setPort d p { x with rxScs := mset x.rxScs i sc }
      rxDispatch false p len (len - plain.length - 16) da sa cls prot plain d
  else if x.ptpClear && etype = 0x88F7 then rxDispatch true p len 0 da sa cls 0 rest d
  else portCnt p 7 d

/-- A PAUSE frame (R84): counted, and its time on its way to the transmitter where honouring is on. -/
def rxPause (p : Nat) (quanta : W16) (d : Dev) : Dev :=
  let x := portOf d p
  portCnt p 19 (if x.pauseOn then setPort d p { x with pauseIn := some quanta } else d)

/-- FEC codewords of a port in a mode with FEC: corrected and uncorrectable ones (R99), and the flag of the latter. -/
def fecCount (p corr bad : Nat) (d : Dev) : Dev :=
  let x := portOf d p
  if !hasFec x || !decide (x.link = .up) then d
  else
    let d := bumpAt d (portBlk p) p 21 corr
    if bad = 0 then d else portFlag p 4 (bumpAt d (portBlk p) p 22 bad)

/-- FRAME_RECEIVE: the tests of R77 in order. -/
def execFrameReceive (port : Fin 12) (f : RxFrame) : State → Host.Outcome State Fault Refusal := runLive fun d =>
  let p : Nat := port
  let x := portOf d p
  let len := f.bytes.length
  let da := BitVec.ofNat 48 (beAt f.bytes 0 6)
  let sa := BitVec.ofNat 48 (beAt f.bytes 6 6)
  let d := fecCount p f.fecCorr f.fecBad d
  if !decide (x.link = .up) then d
  else if rxSize p < x.rxFill + storeBound x then tally tallyOverflow p 1 0 (portFlag p 1 (portCnt p 6 d))
  else if !f.lineOk then portCnt p 5 d
  else if len < 64 then portCnt p 2 d
  else if storeBound x < len then portCnt p 3 d
  else if crc32 (f.bytes.take (len - 4)) != leAt f.bytes (len - 4) 4 then portCnt p 4 d
  else match daClass d p da with
    | none => portCnt p 14 d
    | some cls =>
      if beAt f.bytes 12 2 = 0x8808 then
        if beAt f.bytes 14 2 = 1 then rxPause p (BitVec.ofNat 16 (beAt f.bytes 16 2)) d else portCnt p 16 d
      else rxMacsec p len da sa cls f.bytes d

/-! ### PAUSE and transmission (R83 to R86) -/

/-- PAUSE_DELIVERED: the latest pause time reaches the transmitter over X14 (R85). -/
def execPauseDelivered (port : Fin 12) : State → Host.Outcome State Fault Refusal := runLive fun d =>
  let x := portOf d port
  match x.pauseIn with
  | none => d
  | some q =>
    let d1 := setPort d port { x with pauseIn := none, pause := q.toNat, pauseAt := opNs d }
    if pauseLeft d x = 0 && q != 0 then portCnt port 28 d1 else d1

/-- PAUSE_TIMER_EXPIRY: time runs on until the timer reaches zero (R85). -/
def execPauseTimerExpiry (port : Fin 12) : State → Host.Outcome State Fault Refusal := runLive fun d =>
  let x := portOf d port
  let left := pauseLeft d x
  let d := if left = 0 || modeRate x.mode = 0 then d
    else bringTo d (nowNs d + ceilDiv (x.pause * 512) (modeRate x.mode) - (opNs d - x.pauseAt))
  setPort d port { x with pause := 0 }

/-- The size of a port's transmit buffer (R86). -/
def txSize (p : Nat) : Nat := if p < 8 then 262144 else 65536

/-- A transmit timestamp enters the port's queue, or is lost (R61, R62). -/
def pushStamp (p : Nat) (m : W16 × BitVec 4 × Byte) (d : Dev) : Dev :=
  let q := mget {} d.tod.txq p
  let ts := (nowStamp d).shift (portOf d p).txAdj
  let put (q : TxQueue) (d : Dev) : Dev := { d with tod := { d.tod with txq := mput {} d.tod.txq p q } }
  if q.entries.length < 16 then
    put { q with entries := q.entries ++ [{ seqId := m.1, mtype := m.2.1, domain := m.2.2, sec := ts.sec, ns := ts.ns, frac := ts.frac }] } d
  else
    let d1 := setFlag 0x01 6 (put { q with ovf := true, drops := BitVec.ofNat 16 (min 65535 (q.drops.toNat + 1)) } d)
    if q.ovf then d1 else logEv 0x0107 p 0 0 d1

/-- The frame as it stands on the wire, with the SecTAG of IEEE 802.1AE (PRESUMED, log entry 10): protected on a MACsec port (R88), PTP in
clear where so set (R93); none where no current SA may send it, and such a frame counts in TX_KEY as one whose SA cannot send (DESIGN CHOICE,
log entry 33). -/
def macsecSeal (d : Dev) (p : Nat) (b : Bytes) : Option (Bytes × Dev) :=
  let x := portOf d p
  let t := stripTags x (b.drop 12)
  if !x.msec || (x.ptpClear && beAt t.2.2.2 0 2 = 0x88F7) then some (b, d)
  else match x.txAn.bind fun an => (mfind x.txSas an).map fun sa => (an, sa) with
    | none => none
    | some (an, sa) =>
      match (if sa.unusable || 2 ^ 64 - 1 ≤ sa.pn then none else pipKey d sa.slot) with
      | none => none
      | some key =>
        let tci := b2n x.sendSci * 32 + b2n x.conf * 12 + an
        let tag := beBytes 2 0x88E5 ++ [BitVec.ofNat 8 tci, BitVec.ofNat 8 (if b.length - 12 < 48 then b.length - 12 else 0)] ++
          beBytes 4 (sa.pn % 2 ^ 32) ++ (if x.sendSci then beBytes 8 x.txSci.toNat else [])
        let body := Config.protect (if x.conf then 1 else 2) key
          (beBytes 8 x.txSci.toNat ++ beBytes 4 sa.ssci.toNat ++ beBytes 8 sa.pn ++ b.take 12 ++ tag ++ b.drop 12)
        some (b.take 12 ++ tag ++ body, setPort d p { x with txSas := mset x.txSas an { sa with pn := sa.pn + 1 } })

/-- An SA becomes unusable (R92): flagged and logged once. `dir` is 0 transmit, 1 receive. -/
def saUnusable (p dir sc an cause : Nat) (d : Dev) : Dev :=
  portLog p 4 (sc + an * 256 + dir * 65536) cause (portFlag p 3 d)

/-- The current transmit SA cannot send: its frame is discarded and counts in TX_KEY (R88, R92). -/
def txKey (p : Nat) (d : Dev) : Dev :=
  let x := portOf d p
  let d := portCnt p 26 d
  match x.txAn.bind fun an => (mfind x.txSas an).map fun sa => (an, sa) with
  | some (an, sa) =>
    if sa.unusable then d
    else
      let d := setPort d p { x with txSas := mset x.txSas an { sa with unusable := true } }
      saUnusable p 0 0 an (if 2 ^ 64 - 1 ≤ sa.pn then 2 else pipCause d sa.slot) d
  | none => d

/-- Bytes of frames in a transmit buffer. -/
def txFill (x : Port) : Nat := (x.txBuf.map fun f => f.bytes.length + 4).sum

/-- One frame leaves (R76, R83, R88, R94): refused for size, discarded for its key, or sent, timestamped where marked. -/
def txSend (p : Nat) (f : TxFrame) (d : Dev) : Dev :=
  let x := portOf d p
  let tags := (stripTags x (f.bytes.drop 12)).1
  if x.maxLen + 4 * tags < f.bytes.length + 4 then
    tplCount f false (portFlag p 2 (portCnt p 25 (if f.kind = 3 then d else tally tallyEgress p 1 0 (setFlag 0x0A 1 d))))
  else match macsecSeal d p f.bytes with
    | none => tplCount f false (txKey p d)
    | some (b, d) =>
      let d := tplCount f true d
      let d := bumpAt (portCnt p 23 (emit (.frame p b) d)) (portBlk p) p 24 (b.length + 4)
      match f.mark with
      | some m => pushStamp p m d
      | none => d

/-- The next egress item moves into the transmit buffer if it has room; an aged one, and one whose template is quarantined or
gone, is discarded at the head (Table 7-6). -/
def txFetch (p : Nat) (d : Dev) : Dev :=
  match dequeue EgressItem.prio (mget [] d.pub.egress p) with
  | none => d
  | some (x, rest) =>
    let drop (d : Dev) : Dev := queueRead (32 + p) { d with pub := { d.pub with egress := mput [] d.pub.egress p rest } }
    let aged : Bool := match x.maxAgeUs with
      | some m => decide (x.bornUs + m < optUs d)
      | none => false
    let quar : Bool := match x.template with
      | some t => decide (x.frame.kind = 1) && decide (x.proto = 1) && (mget ({} : TplRun) d.pub.tpl t).quar
      | none => false
    if aged then tplCount x.frame false (egressDrop p 8 (drop d))
    else if quar then tplCount x.frame false (egressDrop p 11 (drop d))
    else if txFill (portOf d p) + x.frame.bytes.length + 4 ≤ txSize p then
      let d := drop d
      setPort d p { portOf d p with txBuf := (portOf d p).txBuf ++ [x.frame] }
    else d

/-! ### The transmitter's reservation for launched frames (R325) -/

/-- The instant of a launch entry in ns (R320). -/
def LchEntry.inst (e : LchEntry) : Nat := tickInst e.sec e.tick + e.offset
/-- The time on the wire of so many bytes at a port's rate, in ns. -/
def wireNs (x : Port) (n : Nat) : Nat := ceilDiv (n * 8) (modeRate x.mode)
/-- The bytes that a frame takes on the wire: with preamble, FCS and inter-frame gap, as MACsec protects it. -/
def wireBytes (d : Dev) (p : Nat) (b : Bytes) : Nat := 24 + (((macsecSeal d p b).map fun r => r.1.length).getD b.length)
/-- A launched frame is still on the wire of a port. -/
def launchOnWire (d : Dev) (p : Nat) : Bool := opNs d < mget 0 d.lch.wire p
/-- A frame started now would not end before the preamble of an ARMED launched frame of the port must begin (R325). -/
def reservedFor (d : Dev) (p : Nat) (b : Bytes) : Bool :=
  let x := portOf d p
  let end_ := nowNs d + wireNs x (wireBytes d p b) + wireNs x 8
  d.lch.entries.any fun e => decide (e.2.status = .armed) && !e.2.held && e.2.action == 1 && leAt e.2.params 0 1 == p &&
    decide (nowNs d ≤ e.2.inst) && decide (e.2.inst < end_)

/-- FRAME_TRANSMIT: the transmitter takes the next item and starts its oldest frame unless it is paused, a launched frame is on the wire or
the port is reserved for one (R85, R86, R210, R325). -/
def execFrameTransmit (port : Fin 12) : State → Host.Outcome State Fault Refusal := runLive fun d =>
  let p : Nat := port
  if !portUp d p || decide (d.hrd.role = .fenced) then d
  else
    let d := txFetch p d
    let x := portOf d p
    match x.txBuf with
    | [] => d
    | f :: rest => if pauseLeft d x = 0 && !launchOnWire d p && !reservedFor d p f.bytes then txSend p f (setPort d p { x with txBuf := rest }) else d

/-! ### Link changes (R73, R97) -/

/-- PORT_LINK_UP: training, auto-negotiation or signal lock completes (R73), but not on a trunk port in DORMANT until it ends (R98); a trunk port's receive clock is then locked (CLK_LOCK). -/
def execPortLinkUp (port : Fin 12) (fecLock anDone : Bool) (partner : W32) : State → Host.Outcome State Fault Refusal :=
  runLive fun d =>
    let x := portOf d port
    if x.mode = 0 || decide (x.link = .up) || decide (d.hrd.role = .fenced) || (port.val < 8 && (decide (d.pwr.run = .dormant) || decide (d.pwr.run = .waking))) then d
    else
      let x := { x with link := .up, fecLock := fecLock, anDone := anDone && x.an && x.mode != 2, highBer := false, partner := partner }
      let d := if port.val < 8 then { d with clk := { d.clk with lock := setBit d.clk.lock (8 + port.val) } } else d
      portLog port 1 x.mode 0 (portFlag port 0 (setPort d port x))

/-- The number of a LINK state. -/
def linkCode (l : Link) : Nat :=
  match l with
  | .disabled => 0 | .training => 1 | .up => 2 | .down => 3 | .localFault => 4 | .remoteFault => 5

/-- The fall of a link between two frames: a frame is sent and received by one command, so that only the commands that say so cut one (log
entry 33). -/
def noCut : LinkCut := { rx := false, tx := none }

/-- The link leaves UP: the frame cut off is counted and logged, the transmit buffer is emptied into the egress rules, and the fall is
counted and logged (R97). -/
def linkFall (p : Nat) (entered : Link) (c : LinkCut) (d : Dev) : Dev :=
  let x := portOf d p
  let d := setPort d p { x with link := entered, fecLock := false, anDone := false, txBuf := [] }
  let d := if c.rx then portCnt p 5 d else d
  let cut := c.tx.bind fun n => x.txBuf.head?.map fun f => (n, f)
  let d := match cut with
    | some (n, f) => tplCount f false (portLog p 6 (min n f.bytes.length) 0 (portFlag p 6 (portCnt p 27 d)))
    | none => d
  let left := if cut.isSome then x.txBuf.drop 1 else x.txBuf
  let d := left.foldl (fun d f => if f.kind = 3 then d else tplCount f false (egressDrop p 9 d)) d
  portLog p 2 (linkCode entered) 0 (portFlag p 0 (portCnt p 30 d))

/-- PORT_LINK_DOWN: the link falls from UP, and cuts off what was in reception and in transmission (R97). -/
def execPortLinkDown (port : Fin 12) (entered : Link) (cut : LinkCut) : State → Host.Outcome State Fault Refusal := runLive fun d =>
  if decide ((portOf d port).link = .up) && !decide (entered = .up) then linkFall port entered cut d else d

/-- PORT_HIGH_BER: the PCS enters its high bit-error-rate state (Table 3-9), with the uncorrectable codewords of the last second, which
FRAME_RECEIVE counts. -/
def execPortHighBer (port : Fin 12) (codewords : W32) : State → Host.Outcome State Fault Refusal := runLive fun d =>
  portLog port 5 codewords.toNat 0 (portFlag port 5 (setPort d port { portOf d port with highBer := true }))

/-! ### Port commands (Table 3-8) -/

/-- The port index is one of the twelve. -/
def portBad (p : Byte) : Bool := 12 ≤ p.toNat

/-- The mode is one of the port's (Table 3-1). -/
def modeOk (p m : Nat) : Bool := m = 0 || (if p < 8 then m ≤ 5 else 8 ≤ m && m ≤ 10)

/-- PORT_CONFIG (R72 to R74, R83, R84); a link that trains again falls first, and may cut frames off (R73, R97). -/
def execPortConfig (h : Hdr) (p : PortConfigP) (cut : LinkCut) : State → Host.Outcome State Fault Refusal :=
  cmdPlain h 0x0301 p.bytes fun d =>
    let n := p.port.toNat
    let bad := portBad p.port || !modeOk n p.mode.toNat || 1 < p.an.toNat || 1 < p.fec.toNat || 16 ≤ p.polarity.toNat ||
      p.maxLen.toNat < 1518 || 9216 < p.maxLen.toNat || 1 < p.pause.toNat || 2 < p.arpTags.toNat || 2 < p.arpTpid.toNat
    checks [(bad, .badParam)] (fun d =>
      let x := portOf d n
      let y := { x with mode := p.mode.toNat, fec := p.fec = 1, an := p.an = 1, polarity := p.polarity, maxLen := p.maxLen.toNat,
                        pauseOn := p.pause = 1, arpTags := p.arpTags.toNat, arpTpid := p.arpTpid, arpOuter := p.arpOuter,
                        arpInner := p.arpInner }
      let retrain := x.mode != y.mode || (x.fec != y.fec && y.mode = 4) || x.an != y.an || x.polarity != y.polarity
      let next : Link := if y.mode = 0 then .disabled else .training
      let e := setPort d n y
      okay (if !retrain then e
        else if decide (x.link = .up) then linkFall n next cut e
        else setPort d n { y with link := next })) d

/-- PORT_ADDR (R79). -/
def execPortAddr (h : Hdr) (port : Byte) (addr : W48) (mcast promisc : Byte) : State → Host.Outcome State Fault Refusal :=
  cmdPlain h 0x0302 (pk port ++ pk addr ++ pk mcast ++ pk promisc) fun d =>
    checks [(portBad port || bit addr.toNat 40 || 1 < mcast.toNat || 1 < promisc.toNat, .badParam)]
      (fun d => okay (setPort d port.toNat
        { portOf d port.toNat with unicast := some addr, mcastAll := mcast = 0, promisc := promisc = 1 })) d

/-- PORT_MCAST_LIST (R79). -/
def execPortMcastList (h : Hdr) (port first : Byte) (addrs : List W48) : State → Host.Outcome State Fault Refusal :=
  cmdPlain h 0x0303 (pk port ++ pk first ++ [BitVec.ofNat 8 addrs.length] ++ (addrs.map pk).flatten) fun d =>
    checks [(portBad port || addrs.isEmpty || 7 < addrs.length || 64 < first.toNat + addrs.length, .badParam)]
      (fun d =>
        let x := portOf d port.toNat
        okay (setPort d port.toNat { x with mcast := addrs.zipIdx.foldl (fun m e => mset m (first.toNat + e.2) e.1) x.mcast })) d

/-- PORT_VLAN_FILTER (R80, R81). -/
def execPortVlanFilter (h : Hdr) (p : VlanFilterP) : State → Host.Outcome State Fault Refusal :=
  cmdPlain h 0x0304 p.bytes fun d =>
    let a := p.firstVid.toNat
    let b := p.lastVid.toNat
    let bad := portBad p.port || 1 < p.untagged.toNat || 4095 ≤ b || b < a || p.extraTpid = 0x8100 || p.extraTpid = 0x88A8 ||
      1 < p.set.toNat
    checks [(bad, .badParam)] (fun d =>
      let x := portOf d p.port.toNat
      let kept := x.vidOff.filter fun v => v < a || b < v
      okay (setPort d p.port.toNat { x with
        untagged := p.untagged = 1, extraTpid := p.extraTpid
        vidOff := if p.set = 1 then kept else (kept ++ rangeFrom a (b + 1 - a)).mergeSort (· ≤ ·) })) d

/-- PORT_TS_ADJ (R96). -/
def execPortTsAdj (h : Hdr) (port : Byte) (rx tx : W48) : State → Host.Outcome State Fault Refusal :=
  cmdPlain h 0x0305 (pk port ++ pk rx ++ pk tx) fun d =>
    let out (v : W48) : Bool := 100000 * 65536 < v.toInt.natAbs
    checks [(portBad port || out rx || out tx, .badParam)]
      (fun d => okay (setPort d port.toNat { portOf d port.toNat with rxAdj := rx.toInt, txAdj := tx.toInt })) d

/-- PORT_STATUS: link state, the partner's abilities, FEC lock and the pre-FEC bit error ratio. -/
def execPortStatus (h : Hdr) (port : Byte) : State → Host.Outcome State Fault Refusal :=
  cmdPlain h 0x0306 (pk port) fun d =>
    checks [(portBad port, .badParam)] (fun d =>
      let x := portOf d port.toNat
      okayWith ([BitVec.ofNat 8 (linkCode x.link)] ++ pk x.partner ++ [BitVec.ofNat 8 (b2n x.fecLock)] ++ pk x.preFec) d) d

/-- PORT_MACSEC_CONFIG (R88, R90, R93). -/
def execPortMacsecConfig (h : Hdr) (p : MacsecConfigP) : State → Host.Outcome State Fault Refusal :=
  cmdPlain h 0x0310 p.bytes fun d =>
    let bad := portBad p.port || 1 < p.enable.toNat || 1 < p.conf.toNat || 1 < p.sci.toNat || 1 < p.ptpClear.toNat ||
      2 ^ 30 < p.replay.toNat
    checks [(bad, .badParam)] (fun d => okay (setPort d p.port.toNat { portOf d p.port.toNat with
      msec := p.enable = 1, conf := p.conf = 1, sendSci := p.sci = 1, ptpClear := p.ptpClear = 1, replay := p.replay.toNat })) d

/-- PORT_MACSEC_SA: installs or removes an SA (R89, R90, Table 3-5). -/
def execPortMacsecSa (h : Hdr) (p : MacsecSaP) : State → Host.Outcome State Fault Refusal :=
  cmdPlain h 0x0311 p.bytes fun d =>
    let n := p.port.toNat
    let x := portOf d n
    let an := p.an.toNat
    let sc := p.sc.toNat
    let tx := p.dir = 0
    let inst := p.install = 1
    let scMax := if tx then 1 else if n < 8 then 32 else 8
    let key := pipFault d p.slot.toNat (if tx then 1 else 2)
    let full := tx && (mfind x.txSas an).isNone && 2 ≤ x.txSas.length
    let bad := portBad p.port || 1 < p.dir.toNat || 3 < an || 1 < p.install.toNat
    checks [(bad, .badParam), (inst && decide (key = some .badParam), .badParam), (inst && (scMax ≤ sc || full), .noResource),
      (!inst && scMax ≤ sc, .badParam)] (fun d =>
      let sa : MacSa := { slot := p.slot.toNat, ssci := p.ssci, pn := p.pn.toNat, low := p.pn.toNat }
      if inst && key.isSome then reject .keyOrphaned (bump d 0x17 4)
      else if tx then
        okay (setPort d n (if inst then { x with txSas := mset x.txSas an sa, txSci := p.sci }
          else { x with txSas := mdel x.txSas an, txAn := if x.txAn = some an then none else x.txAn }))
      else
        let y := mget { sci := p.sci, sas := [] } x.rxScs sc
        let z := if inst then { y with sci := p.sci, sas := mset y.sas an sa } else { y with sas := mdel y.sas an }
        okay (setPort d n { x with rxScs := if z.sas.isEmpty then mdel x.rxScs sc else mset x.rxScs sc z })) d

/-- PORT_MACSEC_TX_AN (R91). -/
def execPortMacsecTxAn (h : Hdr) (port an : Byte) : State → Host.Outcome State Fault Refusal :=
  cmdPlain h 0x0312 (pk port ++ pk an) fun d =>
    checks [(portBad port || (mfind (portOf d port.toNat).txSas an.toNat).isNone, .badParam)]
      (fun d => okay (setPort d port.toNat { portOf d port.toNat with txAn := some an.toNat })) d

end Sys2Proof.Machine
end

