-- ==== Sys2Proof/Machine/Ingest.lean ====
section
/-!
DEFINITION. Stream ingest (chapter 4): the classifier, the flow scheduler, the parsers, the host-ingest rings and the ingest
commands.
-/
namespace Sys2Proof.Machine

/-! ### Stream state -/

/-- A stream's run state. -/
def streamOf (d : Dev) (k : Nat) : StreamRun := mget {} d.ing.runs k
/-- A stream's run state replaced. -/
def setStream (k : Nat) (r : StreamRun) (d : Dev) : Dev := { d with ing := { d.ing with runs := mput {} d.ing.runs k r } }

/-- Ingest counter `i`. -/
def ingCnt (i : Nat) (d : Dev) : Dev := bump d 0x07 i

/-- A frame of a stream dropped: its counter and the stream's own count by cause. -/
def streamDrop (k i : Nat) (d : Dev) : Dev :=
  let r := streamOf d k
  setStream k { r with dropped := mmod 0 r.dropped i (· + 1) } (ingCnt i d)

/-- Back-pressure is asserted (R136): counted, flagged and summarised once per second. -/
def assertBp (d : Dev) : Dev := tally tallyBp 0 1 0 (setFlag 0x07 1 (ingCnt 34 d))

/-- The task may be served: its firmware flags meet its mask (R132, R133). -/
def gateOpen (r : StreamRun) : Bool := r.fwFlags &&& r.fwMask == r.fwMask

/-- The event-flag word of a task (Table 4-9). A frame is served within one command, so that none is in service between commands. -/
def taskFlags (internal : Bool) (d : Dev) (k : Nat) : W64 :=
  let r := streamOf d k
  let credit := decide (d.ing.parsers < 32) && (!internal || decide (d.ing.intBusy < 4))
  BitVec.ofNat 64 (b2n (!r.queue.isEmpty) + 2 + 4 * b2n credit + 8 * b2n (internal || !d.ing.alnBp) + r.fwFlags.toNat * 65536)

/-- The mask of a task: bits 0 to 3 always, and the firmware bits that ING_STREAM_GATE set (R133). -/
def taskMask (r : StreamRun) : W64 := BitVec.ofNat 64 (15 + r.fwMask.toNat * 65536)

/-- The task is ready (R132). -/
def taskReady (internal : Bool) (d : Dev) (k : Nat) : Bool :=
  taskFlags internal d k &&& taskMask (streamOf d k) == taskMask (streamOf d k)

/-- The ready tasks of a list: the lists keep the order in which tasks with frames and open gates came, and under back-pressure the external
ones are not ready (R134, R136; log entry 33). -/
def readyTasks (internal : Bool) (d : Dev) : List Nat :=
  (if internal then d.ing.readyInt else d.ing.readyExt).filter (taskReady internal d)

/-- A task with frames whose gate is open joins the tail of its ready list (R134). -/
def wake (internal : Bool) (k : Nat) (d : Dev) : Dev :=
  let r := streamOf d k
  if r.queue.isEmpty || !gateOpen r then d
  else if internal then
    { d with ing := { d.ing with readyInt := if d.ing.readyInt.contains k then d.ing.readyInt else d.ing.readyInt ++ [k] } }
  else { d with ing := { d.ing with readyExt := if d.ing.readyExt.contains k then d.ing.readyExt else d.ing.readyExt ++ [k] } }

/-- Bytes of a port's receive buffer come free (R137). -/
def freeRx (port : Option Nat) (n : Nat) (d : Dev) : Dev :=
  match port with
  | some p => let x := portOf d p; setPort d p { x with rxFill := x.rxFill - n }
  | none => d

/-- A frame queued on an external task: one descriptor cell (R131, R135, R136). -/
def queueFrame (k : Nat) (f : TaskFrame) (d : Dev) : Dev :=
  let r := streamOf d k
  let n := d.ing.extCells + 1
  let d := setStream k { r with queue := r.queue ++ [f] } { d with ing := { d.ing with
    extCells := n, extHwm := max d.ing.extHwm (n / 16) } }
  let d := if 61440 ≤ n && !d.ing.quotaBp then assertBp { d with ing := { d.ing with quotaBp := true } } else d
  wake false k d

/-- Steps 10 to 12 of Table 4-3: the counter of the first that fails. -/
def runFault (d : Dev) (k : Nat) : Option Nat :=
  let r := streamOf d k
  if (mfind d.cur.streams k).isNone then some 11 else if r.held then some 12 else if r.quar then some 13 else none

/-- Steps 9 to 12 of Table 4-3 for a frame of a stream: queued, or dropped and its buffer freed. -/
def offerFrame (k : Nat) (f : TaskFrame) (d : Dev) : Dev :=
  if 16 ≤ (streamOf d k).queue.length then freeRx f.port f.held (streamDrop k 14 d)
  else match runFault d k with
    | some i => freeRx f.port f.held (streamDrop k i d)
    | none => queueFrame k f d

/-- The stream has returned to ACTIVE from HELD or QUARANTINED (R179). -/
def noteReturn (k : Nat) (d : Dev) : Dev :=
  { d with aln := { d.aln with streams := mmod {} d.aln.streams k fun x => { x with returned := true } } }

/-! ### Classification (R103 to R106, R557) -/

/-- An IPv4 address mapped into IPv6. -/
def mapped (a : Nat) : BitVec 128 := BitVec.ofNat 128 (0xFFFF * 2 ^ 32 + a % 2 ^ 32)

/-- What an IP header gives after steps 1 to 3 of Table 4-3. -/
structure IpInfo where
  v6    : Bool
  src   : BitVec 128
  dst   : BitVec 128
  proto : Nat
  pay   : Bytes
  deriving DecidableEq, Repr

/-- IPv6 next-header values that are extension headers other than hop-by-hop and fragment (PRESUMED from the IANA list, log
entry 14). -/
def extHeaders : List Nat := [0, 43, 50, 51, 60, 135, 139, 140]

/-- The length of an IPv6 extension header: in units of 8 octets, and of 4 for the authentication header (PRESUMED, log entry 14). -/
def extLen (nh : Nat) (b : Bytes) : Nat := if nh = 51 then (beAt b 1 1 + 2) * 4 else (beAt b 1 1 + 1) * 8

/-- The chain of extension headers of an IPv6 payload holds a fragment header (step 2 of Table 4-3). -/
def hasFragment : Nat → Nat → Bytes → Bool
  | 0, _, _ => false
  | n + 1, nh, b =>
    if nh = 44 then true
    else if !extHeaders.contains nh || nh = 50 || b.length < 8 then false
    else hasFragment n (beAt b 0 1) (b.drop (extLen nh b))

/-- Steps 1 to 3 of Table 4-3: the counter of the test that fails, or the header's fields. -/
def ipParse (etype : W16) (b : Bytes) : Nat ⊕ IpInfo :=
  let ver := beAt b 0 1 / 16
  if etype = 0x0800 then
    let h := 4 * (beAt b 0 1 % 16)
    let total := beAt b 2 2
    if ver != 4 || b.length < 20 || h < 20 || b.length < h || inetSum (b.take h) != 0 || total < h || b.length < total then .inl 3
    else if bits (beAt b 6 2) 0 14 != 0 then .inl 4
    else .inr { v6 := false, src := mapped (beAt b 12 4), dst := mapped (beAt b 16 4), proto := beAt b 9 1,
                pay := (b.take total).drop h }
  else
    let plen := beAt b 4 2
    if ver != 6 || b.length < 40 || b.length < 40 + plen then .inl 3
    else
      let body := (b.drop 40).take plen
      let nh := beAt b 6 1
      let hop := nh = 0
      let hl := (beAt body 1 1 + 1) * 8
      let nh2 := if hop then beAt body 0 1 else nh
      if hasFragment plen nh body then .inl 4
      else if hop && (body.length < 8 || body.length < hl) then .inl 3
      else if extHeaders.contains nh2 then .inl 3
      else .inr { v6 := true, src := BitVec.ofNat 128 (beAt b 8 16), dst := BitVec.ofNat 128 (beAt b 24 16), proto := nh2,
                  pay := if hop then body.drop hl else body }

/-- The IPv6 link-local address formed from a port's MAC address (PRESUMED modified EUI-64, log entry 14). -/
def linkLocal (d : Dev) (p : Nat) : BitVec 128 :=
  let m := (ownAddr d p).toNat
  BitVec.ofNat 128 (0xFE80 * 2 ^ 112 + ((m / 2 ^ 24) ^^^ 0x020000) * 2 ^ 40 + 0xFFFE * 2 ^ 24 + m % 2 ^ 24)

/-- Keys of the address entries. -/
def addrKey (p : Nat) (v6 : Bool) (e : Nat) : Nat := p * 8 + b2n v6 * 4 + e

/-- The address is a unicast address of the port (R104). -/
def isOwnIp (d : Dev) (p : Nat) (v6 : Bool) (a : BitVec 128) : Bool :=
  (List.range 4).any (fun e => match mfind d.ing.addrs (addrKey p v6 e) with
    | some x => x.addr = a
    | none => false) || (v6 && a = linkLocal d p)

/-- The address is a multicast address of its version. -/
def isMcast (v6 : Bool) (a : BitVec 128) : Bool := if v6 then bits a.toNat 120 8 = 0xFF else bits a.toNat 28 4 = 0xE

/-- The checksum over the pseudo-header and the datagram comes to 0. -/
def udpSumOk (i : IpInfo) (udp : Bytes) : Bool :=
  let ps := if i.v6 then beBytes 16 i.src.toNat ++ beBytes 16 i.dst.toNat ++ beBytes 4 udp.length ++ [0, 0, 0, 17]
    else beBytes 4 i.src.toNat ++ beBytes 4 i.dst.toNat ++ [0, 17] ++ beBytes 2 udp.length
  (beAt udp 6 2 = 0 && !i.v6) || (beAt udp 6 2 != 0 && inetSum (ps ++ udp) = 0)

/-- The discriminator of R105, its kind and number: the IDCODE, or the APPID of the sampled-value payload. -/
def discOf (pay : Bytes) : Option (Bool × W16) :=
  match pay.head? with
  | some 0xAA => if pay.length < 6 then none else some (false, BitVec.ofNat 16 (beAt pay 4 2))
  | some 0xA2 => (Config.svSession pay).bind fun s => (s.payloads.find? fun x => x.isSv).map fun x => (true, x.appid)
  | _ => none

/-- A stream key matches a datagram with its qualifiers (R105). -/
def keyFits (k : StreamKey) (p : Nat) (f : TaskFrame) (dst : BitVec 128) (disc : Bool × W16) : Bool :=
  k.sv == disc.1 && k.disc = disc.2 && k.srcAddr = f.srcIp && k.dstAddr = dst && k.dstPort = f.dstPort &&
  (k.qPort.all (· == p)) && (k.qVid.all (· == bits f.outer.toNat 0 12)) && (k.qSrc.all (· == f.srcPort))

/-- The stream a datagram belongs to: by its destination, then, for a unicast address of the port, by any address. -/
def lookupKey (d : Dev) (p : Nat) (v6 : Bool) (f : TaskFrame) (disc : Bool × W16) : Option Nat :=
  let hit (a : BitVec 128) := (d.cur.keys.find? fun e => keyFits e.2 p f a disc).map Prod.fst
  match hit f.dstIp with
  | some k => some k
  | none => if isOwnIp d p v6 f.dstIp then hit 0 else none

/-- A frame goes to firmware through the queue of R115, or finds it full, which counts among its stream's drops too. -/
def toFirmware (cnt : Nat) (x : FwFrame) (d : Dev) : Dev :=
  if d.ing.fwQueue.length < 256 then
    queueGrew fwQueueId d.ing.fwQueue.length (ingCnt cnt { d with ing := { d.ing with fwQueue := d.ing.fwQueue ++ [x] } })
  else setFlag 0x07 5 (match x.stream with
    | some k => streamDrop k 19 d
    | none => ingCnt 19 d)

/-- Steps 6 to 12 on a UDP datagram. -/
def classifyUdp (p : Nat) (m : PortFrame) (i : IpInfo) (d : Dev) : Dev :=
  let held := rxCost m.info.len
  let free (d : Dev) := freeRx (some p) held d
  let ulen := beAt i.pay 4 2
  if i.pay.length < 8 || ulen < 8 || i.pay.length < ulen then free (ingCnt 3 d)
  else if !udpSumOk i (i.pay.take ulen) then free (ingCnt 8 d)
  else
    let pay := (i.pay.take ulen).drop 8
    let f : TaskFrame := { port := some p, ts := m.info.ts, outer := m.info.outer, inner := m.info.inner, tags := m.info.tags, srcMac := m.src,
                           srcIp := i.src, dstIp := i.dst, srcPort := BitVec.ofNat 16 (beAt i.pay 0 2),
                           dstPort := BitVec.ofNat 16 (beAt i.pay 2 2), held := held, data := pay }
    if pay.head? = some 0xA1 then free (toFirmware 9 { stream := none, frame := { f with held := 0 } } d)
    else match (discOf pay).bind (lookupKey d p i.v6 f) with
      | some k => offerFrame k f d
      | none =>
        let sync := beAt pay 0 2
        if isOwnIp d p i.v6 i.dst && (sync = 0xAA41 || sync = 0xAA42) && 6 ≤ pay.length && (shardOf d.cur (beAt pay 4 2)).isSome then
          free (toFirmware 18 { stream := none, frame := { f with held := 0 } } d)
        else free (setFlag 0x07 0 (ingCnt 10 d))

/-- FRAME_CLASSIFY: the tests of Table 4-3 on the oldest frame of a port's receive FIFO, unless the descriptor quota holds the
classifier back (R136). -/
def execFrameClassify (port : Fin 12) : State → Host.Outcome State Fault Refusal := runCore fun d =>
  let p : Nat := port
  let x := portOf d p
  match x.rxFifo with
  | [] => d
  | m :: rest =>
    if d.ing.quotaBp then d
    else
      let d := ingCnt 0 (setPort d p { x with rxFifo := rest })
      let free (d : Dev) := freeRx (some p) (rxCost m.info.len) d
      match ipParse m.etype m.payload with
      | .inl c => free (ingCnt c d)
      | .inr i =>
        if !isOwnIp d p i.v6 i.dst && !isMcast i.v6 i.dst then free (ingCnt 5 d)
        else if i.proto = 17 then classifyUdp p m i d
        else if i.proto = (if i.v6 then 58 else 1) || (!i.v6 && i.proto = 2) then
          let x := portOf d p
          if x.ctrlQ.length < 16 then free (ingCnt 6 (setPort d p { x with ctrlQ := x.ctrlQ ++ [m] }))
          else free (setFlag 0x07 5 (ingCnt 19 d))
        else free (ingCnt 7 d)

/-! ### Parsing and dispatch (R107, R118, R125, R134) -/

/-- Values in the alignment input queue: positions that yield none (R158) hold none. -/
def alnFill (d : Dev) : Nat := (d.ing.alnQ.map fun r => (r.values.filter (· != noValue)).length).sum

/-- Records the frame a task has parsed: its arrival time and STAT, and that it was accepted. -/
def noteFrame (k : Nat) (f : TaskFrame) (stat : Option Nat) (leap : Option Nat) (d : Dev) : Dev :=
  let r := streamOf d k
  setStream k { r with
    lastRx := f.ts
    lastStat := match stat with | some x => BitVec.ofNat 16 x | none => r.lastStat
    leapBits := match leap with | some x => BitVec.ofNat 3 x | none => r.leapBits
    accepted := r.accepted + 1 } (ingCnt 28 d)

/-- A report whose time is decoded, under R125: into the alignment input queue with the values of the slot's generation, or
counted in NOT_IN_GEN. `same` compares a parsed frame's definition. -/
def handReport (k : Nat) (used : StreamDef) (parsed gone : Bool) (inst : W48 × W32) (arrival : Stamp)
    (leap : Option (Bool × Bool × Bool)) (vals : Gen → StreamDef → List W64) (errs : Gen → StreamDef → Nat) (d : Dev) : Dev :=
  match reportSlot d k inst.1 inst.2.toNat with
  | none => ingCnt 27 d
  | some x =>
      let g := x.span.gen
      let s := x.defn
      let n := x.span.num
      if parsed && (s.kind != used.kind || s.version != used.version || s.timeBase != used.timeBase || s.dataLen != used.dataLen)
      then ingCnt 27 d
      else
        let v := vals g s
        let skipped := (v.filter (· == noValue)).length
        let out := v.length - skipped
        let first := s.firstChan + (v.takeWhile (· != noValue)).length
        let d := layoutSkip first skipped (bumpN d 0x08 0 s.count)
        let d := bumpN (bumpN (bumpN d 0x07 29 out) 0x07 30 ((v.filter isInvalid).length - skipped)) 0x07 31 (errs g s)
        let r : Report := { stream := k, sec := inst.1, ns := inst.2, arrival := arrival, defn := used, parsed := parsed, gen := n,
                            leap := leap, values := v, gone := gone }
        let d := { d with ing := { d.ing with alnQ := d.ing.alnQ ++ [r] } }
        if 12288 ≤ alnFill d && !d.ing.alnBp then assertBp { d with ing := { d.ing with alnBp := true } } else d

/-- The frame type of a SYNC word that a version setting allows (Table 4-4): 0 data, 1 header, 2 CFG-1, 3 CFG-2, 4 command,
5 CFG-3. -/
def syncType (version sync : Nat) : Option Nat :=
  let v := sync % 16
  let t := sync / 16 % 16
  if sync / 256 = 0xAA && ((v = 1 && t ≤ 4 && version != 2) || (v = 2 && t ≤ 5 && version != 1)) then some t else none

/-- STREAM_CFG_FLAG at most once per stream per 60 s (R117). -/
def cfgFlag (k block : Nat) (d : Dev) : Dev :=
  let r := streamOf d k
  if r.cfgLogAt.all fun t => 60000 ≤ optSince d t then
    setStream k { r with cfgLogAt := some d.log.opt } (logEv 0x0702 k block 0 d)
  else d

/-- The C37.118.2 parser (R107 to R117). -/
def parseC37 (k : Nat) (s : StreamDef) (f : TaskFrame) (d : Dev) : Dev :=
  let b := f.data
  let len := b.length
  match syncType s.version (if len < 2 then 0 else beAt b 0 2) with
  | none => streamDrop k 15 d
  | some t =>
    if len < 4 || beAt b 2 2 != len then streamDrop k 16 d
    else if ccitt (b.take (len - 2)) != beAt b (len - 2) 2 then streamDrop k 17 d
    else if t != 0 then toFirmware 18 { stream := some k, frame := { f with held := 0 } } d
    else if len != s.dataLen + 16 then streamDrop k 20 d
    else
      let fs := beAt b 10 4
      let frac := bits fs 0 24
      if s.timeBase ≤ frac then streamDrop k 26 d
      else
        let data := (b.drop 14).take s.dataLen
        let occ := bit fs 29
        let ns := (instOf 0 frac s.timeBase).2.toNat
        let sec := taiSecond d (if s.leapTrust then some occ else none) (beAt b 6 4) f.ts ns
        let stats := (List.range s.blocks).map fun i => blockStat d.cur s k i data
        let d := noteFrame k f (stats.head?.bind id) (some (bits fs 28 3)) d
        let d := match stats.zipIdx.find? (fun e => e.1.any fun x => bit x 10) with
          | some e => cfgFlag k e.2 d
          | none => d
        handReport k s true (goneSecond d (beAt b 6 4)) (instOf sec frac s.timeBase) f.ts (some (bit fs 28, occ, bit fs 30))
          (fun g s => c37Values g s k data) (fun g s => blockErrs g s k data) d

/-- SV_CONFREV_MISMATCH at most once per second per stream (R118). -/
def confRevLog (k : Nat) (got want : W32) (d : Dev) : Dev :=
  let r := streamOf d k
  if r.revLogAt.all fun t => 1000 ≤ optSince d t then
    setStream k { r with revLogAt := some d.log.opt } (logEv 0x0704 k got.toNat want.toNat d)
  else d

/-- The binding a Key ID selects (R123). -/
def svBinding (r : StreamRun) (keyId : W32) : Option (Binding × Byte) :=
  match r.cur with
  | some b => if b.1.keyId = keyId then some b else r.next.filter fun b => b.1.keyId = keyId
  | none => r.next.filter fun b => b.1.keyId = keyId

/-- The sampled-value payload of an SPDU that the parser accepts (R118): version 2, no encryption, exactly one payload, of that type. -/
def svPayload (x : Config.SvSession) : Option Config.SvPayload :=
  match x.payloads with
  | [p] => if x.version = 2 && !x.encrypted && p.isSv then some p else none
  | _ => none

/-- A signature verifies with the Pip of a binding, which must have the attribute DECRYPT_ONLY (R123). -/
def svVerifies (d : Dev) (b : Binding × Byte) (x : Config.SvSession) : Bool :=
  (pipFault d b.1.slot 2).isNone && (pipKey d b.1.slot).any fun key => signatureOf b.2.toNat key x.signed == x.signature

/-- The APDU's ASDUs with their refrTm, where there are 1 to 8, all with refrTm, and each sample has the length of the stream's layout
(step 4 of R118). -/
def svAsdus (s : StreamDef) (data : Bytes) : Option (List (Config.SvAsdu × Nat × Nat × Nat)) :=
  (Config.svApdu data).bind fun l =>
    if 1 ≤ l.length && l.length ≤ 8 && l.all (fun a => a.refrTm.isSome && a.sample.length == s.dataLen) then
      some (l.filterMap fun a => a.refrTm.map fun t => (a, t))
    else none

/-- The sampled-value parser (R118 to R126). -/
def parseSv (k : Nat) (s : StreamDef) (f : TaskFrame) (d : Dev) : Dev :=
  let r := streamOf d k
  match (Config.svSession f.data).bind fun x => (svPayload x).map fun p => (x, p) with
  | none => streamDrop k 21 d
  | some (head, pay) =>
    let signed := r.cur.isSome || r.next.isSome
    let b := svBinding r head.keyId
    if signed && b.isNone then streamDrop k 22 d
    else if signed && !(b.any fun x => svVerifies d x head) then setFlag 0x07 2 (streamDrop k 23 d)
    else match svAsdus s f.data with
      | none => streamDrop k 24 d
      | some asdus =>
        match asdus.find? fun a => a.1.confRev != s.confRev with
        | some a => confRevLog k a.1.confRev s.confRev (streamDrop k 25 d)
        | none =>
          if asdus.any fun a => 2 ^ 24 ≤ a.2.2.1 then streamDrop k 26 d
          else
            let st (a : Config.SvAsdu × Nat × Nat × Nat) := svStat pay.sim a.1.synch a.2.2.2
            asdus.foldl (fun d a =>
              let ns := (instOf 0 a.2.2.1 (2 ^ 24)).2.toNat
              let sec := taiSecond d none a.2.1 f.ts ns
              handReport k s true (goneSecond d a.2.1) (instOf sec a.2.2.1 (2 ^ 24)) f.ts none
                (fun g s => svValues g s k (st a) a.1.sample) (fun _ _ => 0) d)
              (noteFrame k f (asdus.head?.map st) none d)

/-- A LOCAL or DERIVED report (R130): its values where their channels yield one. -/
def passInternal (k : Nat) (s : StreamDef) (f : TaskFrame) (d : Dev) : Dev :=
  handReport k s false false f.inst f.ts none
    (fun g s => (rangeFrom s.firstChan s.count).zipIdx.map fun e => if yields g k e.1 then lget noValue f.values e.2 else noValue)
    (fun _ _ => 0) (noteFrame k f none none d)

/-- The parse of a frame by the stream's definition in the current generation, after steps 10 to 12 are made again. -/
def parseFrame (k : Nat) (f : TaskFrame) (d : Dev) : Dev :=
  match runFault d k, mfind d.cur.streams k with
  | some i, _ => streamDrop k i d
  | none, none => d
  | none, some s => if isC37 s.kind then parseC37 k s f d else if isSv s.kind then parseSv k s f d else passInternal k s f d

/-- The definition of an internal stream where the current generation gives none: the slot's generation gives what is used (R15). -/
def noStream : StreamDef :=
  { kind := .derived, version := 0, timeBase := 0, rate := 1, firstChan := 0, count := 0, blocks := 1, dataLen := 0, testAcc := false,
    questAcc := false, sortAcc := false, leapTrust := false, snap := false, confRev := 0 }

/-- The alignment input queue takes the values of a stream's frame (R136): external frames leave the internal tasks 2,048 of its 16,384
values. A frame that does not fit waits, as its service would wait at the end of a block (log entry 33); an empty queue takes any frame. -/
def alnRoom (internal : Bool) (d : Dev) (k : Nat) : Bool :=
  let n := ((mfind d.cur.streams k).map StreamDef.count).getD 0
  decide (alnFill d + n ≤ (if internal then 16384 else 14336)) || d.ing.alnQ.isEmpty

/-- A parser serves the oldest frame of an internal task. -/
def serveInternal (k : Nat) (d : Dev) : Dev :=
  let d := { d with ing := { d.ing with readyInt := d.ing.readyInt.filter (· != k) } }
  let r := streamOf d k
  match r.queue with
  | [] => d
  | f :: q =>
    let d := setStream k { r with queue := q } { d with ing := { d.ing with intCells := d.ing.intCells - 1 } }
    wake true k (passInternal k ((mfind d.cur.streams k).getD noStream) f d)

/-- A parser serves the oldest frame of an external task. -/
def serveExternal (k : Nat) (d : Dev) : Dev :=
  let d := { d with ing := { d.ing with readyExt := d.ing.readyExt.filter (· != k) } }
  let r := streamOf d k
  match r.queue with
  | [] => d
  | f :: q =>
    let n := d.ing.extCells - 1
    let d := setStream k { r with queue := q } { d with ing := { d.ing with extCells := n, quotaBp := d.ing.quotaBp && 57344 < n } }
    wake false k (freeRx f.port f.held (parseFrame k f d))

/-- FRAME_DISPATCH: a free parser serves the first ready task, of the internal list first (R131 to R136). -/
def execFrameDispatch : State → Host.Outcome State Fault Refusal := runCore fun d =>
  match readyTasks true d, readyTasks false d with
  | k :: _, _ => if alnRoom true d k then serveInternal k d else d
  | [], k :: _ => if alnRoom false d k then serveExternal k d else d
  | [], [] => d

/-- A live generation defines the stream as LOCAL or DERIVED. -/
def isInternal (d : Dev) (k : Nat) : Bool :=
  (liveGens d).any fun x => (mfind x.gen.streams k).any fun s => decide (s.kind = .locl) || decide (s.kind = .derived)

/-- A LOCAL or DERIVED report enters the scheduler (R130, R135): whether the reserve took it. -/
def enterInternal (k : Nat) (sec : W48) (ns : W32) (values : List W64) (d : Dev) : Bool × Dev :=
  let d := ingCnt 2 d
  if 4096 ≤ d.ing.intCells then (false, streamDrop k 14 d)
  else
    let r := streamOf d k
    let f : TaskFrame := { port := none, ts := nowStamp d, data := [], inst := (sec, ns), values := values }
    (true, wake true k (setStream k { r with queue := r.queue ++ [f] }
      { d with ing := { d.ing with intCells := d.ing.intCells + 1 } }))

/-- INTERNAL_FRAME_IN: a report of a LOCAL or DERIVED stream of a live generation (R15, R130). -/
def execInternalFrameIn (r : InternalReport) : State → Host.Outcome State Fault Refusal := runCore fun d =>
  if isInternal d r.stream then (enterInternal r.stream r.sec r.ns r.values d).2 else d

/-! ### Host-ingest rings (R127 to R129) -/

/-- A ring's state. -/
def hostRing (d : Dev) (r : Nat) : HostRing := mget {} d.ing.hostRings r
/-- A ring's state replaced. -/
def setHostRing (r : Nat) (x : HostRing) (d : Dev) : Dev := { d with ing := { d.ing with hostRings := mput {} d.ing.hostRings r x } }

/-- Entries between HEAD and an index. -/
def ringGap (size a b : Nat) : Nat := (b + size - a) % size

/-- The ring stops (R128, R503). The register keeps the value written (R11). -/
def stopHostRing (r tail : Nat) (d : Dev) : Dev :=
  logEv 0x0705 r tail 0 (setFlag 0x07 6 (setHostRing r { hostRing d r with run := false, err := true } d))

/-- A TAIL write (R127, R128). -/
def hostTail (r v : Nat) (d : Dev) : Dev :=
  let x := hostRing d r
  let t := v % 65536
  if !x.run then setHostRing r { x with tail := t } d
  else if x.size ≤ t || x.size - 1 < ringGap x.size x.head x.tail + ringGap x.size x.tail t then
    stopHostRing r t (setHostRing r { x with tail := t } d)
  else setHostRing r { x with tail := t } d

/-- RNG_HI_TAIL_WRITE. -/
def execRngHiTailWrite (ring : Fin 16) (v : W32) : State → Host.Outcome State Fault Refusal := runLive (hostTail ring v.toNat)

/-- HEAD moves past a descriptor; it is written back after every 32 and when the ring becomes empty (R127). -/
def hostAdvance (r : Nat) (d : Dev) : Dev :=
  let x := hostRing d r
  let h := (x.head + 1) % x.size
  if x.since + 1 = 32 || h = x.tail then
    hostWrite x.wb (leBytes 4 h) (setHostRing r { x with head := h, since := 0 } d)
  else setHostRing r { x with head := h, since := x.since + 1 } d

/-- The descriptor's status, written into its bytes 14 and 15. -/
def descStatus (r : Nat) (st : Status) (d : Dev) : Dev :=
  let x := hostRing d r
  hostWrite (x.base + BitVec.ofNat 64 (32 * x.head + 14)) (leBytes 2 (statusCode st)) d

/-- The arrival time of a host frame (R129): its timestamp where it is set and near, else the time now. -/
def hostArrival (x : HostDesc) (d : Dev) : Stamp × Dev :=
  let t : Stamp := { sec := x.tsSec, ns := x.tsNs, frac := x.tsFrac }
  let now := (nowStamp d).toFine
  if !bit x.bits.toNat 0 then (nowStamp d, d)
  else if now ≤ t.toFine + 2 * secNs * 65536 && t.toFine ≤ now + 1000 * 65536 then (t, d)
  else (nowStamp d, ingCnt 33 d)

/-- The ring whose descriptor is served next: the rings with pending descriptors take turns, one descriptor at a time (R127). -/
def hostTurn (d : Dev) : Option Nat :=
  ((List.range 16).map fun i => (d.ing.hostNext + i) % 16).find? fun r => let g := hostRing d r; g.run && g.head != g.tail

/-- HOST_DESC_FETCH: the descriptor at HEAD of the ring whose turn it is, with its frame, where the device has staging space for it (R127 to
R129); a failed read stops the ring (R503). -/
def execHostDescFetch (ring : Fin 16) (x : HostDesc) (readOk space : Bool) : State → Host.Outcome State Fault Refusal := runCore fun d =>
  let r : Nat := ring
  let g := hostRing d r
  if hostTurn d != some r || !space || d.ing.quotaBp || d.gbl.linkUp = false then d
  else
    let d := { d with ing := { d.ing with hostNext := (r + 1) % 16 } }
    if !readOk then stopHostRing r g.tail d
    else
    let k := x.stream.toNat
    let host := match mfind d.cur.streams k with
      | some s => decide (s.kind = .hostC37) || decide (s.kind = .hostSv)
      | none => false
    if x.len.toNat < 16 || 262144 ≤ k || x.bits.toNat / 2 != 0 || x.reserved != 0 then
      hostAdvance r (descStatus r .badParam (ingCnt 32 d))
    else if !host then hostAdvance r (descStatus r .notPermitted (ingCnt 32 d))
    else
      let a := hostArrival x (ingCnt 1 d)
      let f : TaskFrame := { port := none, ts := a.1, data := cut x.frame 0 x.len.toNat }
      offerFrame k f (hostAdvance r (descStatus r .ok a.2))

/-! ### Commands -/

/-- Stream indices (R101). -/
def streamMax : Nat := 262144

/-- ING_STREAM_KEY (R105, R106, Table 4-16). -/
def execIngStreamKey (h : Hdr) (p : StreamKeyP) : State → Host.Outcome State Fault Refusal :=
  cmdPlain h 0x0401 p.bytes fun d =>
    let k := p.stream.toNat
    let q := p.quals.toNat
    let kind := (mfind d.staged.streams k).map StreamDef.kind
    let key : StreamKey :=
      { sv := p.kind = 1, disc := p.disc, dstPort := p.dstPort, srcAddr := p.srcAddr, dstAddr := p.dstAddr,
        qPort := if bit q 0 then some p.port.toNat else none, qVid := if bit q 1 then some p.vid.toNat else none,
        qSrc := if bit q 2 then some p.srcPort else none }
    let same := d.staged.keys.any fun e => e.1 != k && e.2.sv == key.sv && e.2.disc = key.disc && e.2.dstPort = key.dstPort &&
      e.2.srcAddr = key.srcAddr && e.2.dstAddr = key.dstAddr
    let bad := streamMax ≤ k || 8 ≤ q || (if bit q 0 then 12 ≤ p.port.toNat else p.port != 0) ||
      (if bit q 1 then 4095 ≤ p.vid.toNat else p.vid != 0) || (!bit q 2 && p.srcPort != 0) || 1 < p.kind.toNat ||
      !decide (kind = some (if p.kind = 1 then .svUdp else .c37Udp)) || same
    stageWith bad [] [keyStream k] (fun g => { g with keys := mset g.keys k key }) d

/-- A kind of its code. -/
def kindOf (n : Nat) : StreamKind := [StreamKind.c37Udp, .svUdp, .hostC37, .hostSv, .locl, .derived].getD n .derived

/-- The definition that ING_STREAM_DEF's parameters give. -/
def streamDefOf (p : StreamDefP) : StreamDef :=
  let f := p.flags.toNat
  { kind := kindOf p.kind.toNat, version := p.version.toNat, timeBase := p.timeBase.toNat, rate := p.rate.toNat,
    firstChan := p.firstChan.toNat, count := p.count.toNat, blocks := p.blocks.toNat, dataLen := p.dataLen.toNat,
    testAcc := bit f 0, questAcc := bit f 1, sortAcc := bit f 2, leapTrust := bit f 3, snap := bit f 4, confRev := p.confRev }

/-- A field of ING_STREAM_DEF is outside Table 4-17. -/
def streamDefBad (p : StreamDefP) : Bool :=
  let s := streamDefOf p
  let c37 := isC37 s.kind
  streamMax ≤ p.stream.toNat || 5 < p.kind.toNat || (if c37 then s.version = 0 || 3 < s.version else s.version != 0) ||
  (if c37 then s.timeBase = 0 else s.timeBase != 0) || !rates.contains s.rate || dirSize ≤ s.firstChan || s.count = 0 ||
  16384 ≤ s.count || dirSize < s.firstChan + s.count || (if c37 then s.blocks = 0 || 2048 < s.blocks else s.blocks != 1) ||
  ((decide (s.kind = .locl) || decide (s.kind = .derived)) && s.dataLen != 8 * s.count) || 32 ≤ p.flags.toNat ||
  (!isSv s.kind && s.confRev != 0)

/-- ING_STREAM_DEF (R101, Table 4-17). -/
def execIngStreamDef (h : Hdr) (p : StreamDefP) : State → Host.Outcome State Fault Refusal :=
  cmdPlain h 0x0402 p.bytes fun d =>
    let k := p.stream.toNat
    let a := stageWith (streamDefBad p) [] [keyStream k] (fun g => { g with streams := mset g.streams k (streamDefOf p) }) d
    if decide (a.2 = some (.ok, [])) then ({ a.1 with clk := { a.1.clk with redef := addKey k a.1.clk.redef } }, a.2) else a

/-- ING_STREAM_REMOVE: the definition and its key leave the staged generation. -/
def execIngStreamRemove (h : Hdr) (stream : BitVec 24) : State → Host.Outcome State Fault Refusal :=
  cmdPlain h 0x0403 (pk stream) fun d =>
    let k := stream.toNat
    stageWith (streamMax ≤ k) [] [keyStream k] (fun g => { g with streams := mdel g.streams k, keys := mdel g.keys k }) d

/-- The run state shown in ING_STREAM_STATUS: 0 undefined, 1 ACTIVE, 2 HELD, 3 QUARANTINED, 4 GATED. -/
def runStateCode (d : Dev) (k : Nat) : Nat :=
  let r := streamOf d k
  if (mfind d.cur.streams k).isNone then 0 else if r.held then 2 else if r.quar then 3 else if !gateOpen r then 4 else 1

/-- ING_STREAM_STATUS (R102). -/
def execIngStreamStatus (h : Hdr) (stream : BitVec 24) : State → Host.Outcome State Fault Refusal :=
  cmdPlain h 0x0404 (pk stream) fun d =>
    let k := stream.toNat
    let r := if (mfind d.cur.streams k).isNone then {} else streamOf d k
    checks [(streamMax ≤ k, .badParam)] (fun d => okayWith
      ([BitVec.ofNat 8 (runStateCode d k)] ++ r.lastRx.bytes ++ pk r.lastStat ++ [BitVec.ofNat 8 r.leapBits.toNat] ++
        pk r.accepted ++ ((rangeFrom 11 16).map fun i => pk (mget 0 r.dropped i)).flatten) d) d

/-- ING_STREAM_RELEASE (R116). -/
def execIngStreamRelease (h : Hdr) (stream : BitVec 24) : State → Host.Outcome State Fault Refusal :=
  cmdPlain h 0x0405 (pk stream) fun d =>
    let k := stream.toNat
    let r := streamOf d k
    checks [(streamMax ≤ k, .badParam), (!r.held, .nothingToAbort)]
      (fun d => okay (noteReturn k (logEv 0x0707 k 0 0 (setStream k { r with held := false } d)))) d

/-- ING_IP_ADDR (R104). -/
def execIngIpAddr (h : Hdr) (p : IpAddrP) : State → Host.Outcome State Fault Refusal :=
  cmdPlain h 0x0406 p.bytes fun d =>
    let v6 := p.version = 6
    let port := p.port.toNat
    let e := p.entry.toNat
    let other := (List.range 4).any fun i => i != e && (match mfind d.ing.addrs (addrKey port v6 i) with
      | some x => x.addr = p.addr
      | none => false)
    let bad := 12 ≤ port || (p.version != 4 && p.version != 6) || 4 ≤ e || 1 < p.enable.toNat ||
      (if v6 then 128 else 32) < p.plen.toNat || isMcast v6 p.addr || (!v6 && p.addr.toNat / 2 ^ 32 != 0xFFFF) ||
      (p.enable = 1 && other)
    let x : IpEntry := { addr := p.addr, plen := p.plen.toNat }
    checks [(bad, .badParam)] (fun d =>
      let l := if p.enable = 1 then mset d.ing.addrs (addrKey port v6 e) x else mdel d.ing.addrs (addrKey port v6 e)
      okay { d with ing := { d.ing with addrs := l } }) d

/-- A power of two in a range of exponents. -/
def isPow (lo hi n : Nat) : Bool := (rangeFrom lo (hi - lo + 1)).any fun k => 2 ^ k == n

/-- ING_HOST_RING (R127). -/
def execIngHostRing (h : Hdr) (p : HostRingP) : State → Host.Outcome State Fault Refusal :=
  cmdPlain h 0x0407 p.bytes fun d =>
    let r := p.ring.toNat
    let x := hostRing d r
    let bad := 16 ≤ r || !isPow 6 16 p.size.toNat || p.base.toNat % 64 != 0 || p.wb.toNat % 4 != 0 || 1 < p.enable.toNat
    checks [(bad, .badParam), (x.run && x.head != x.tail, .busy)] (fun d =>
      let y : HostRing := { x with base := p.base, size := p.size.toNat, wb := p.wb, en := p.enable = 1, run := p.enable = 1,
                                   head := 0, tail := 0, since := 0 }
      okay (setHostRing r y d)) d

/-- ING_STREAM_GATE (R132, R133). -/
def execIngStreamGate (h : Hdr) (stream : BitVec 24) (set clear mask : W16) : State → Host.Outcome State Fault Refusal :=
  cmdPlain h 0x0408 (pk stream ++ pk set ++ pk clear ++ pk mask) fun d =>
    let k := stream.toNat
    let r := streamOf d k
    checks [(streamMax ≤ k || set &&& clear != 0, .badParam)] (fun d =>
      let r := { r with fwFlags := (r.fwFlags ||| set) &&& ~~~ clear, fwMask := mask }
      let d := setStream k r d
      okay (if gateOpen r then wake (isInternal d k) k d
        else { d with ing := { d.ing with readyExt := d.ing.readyExt.filter (· != k), readyInt := d.ing.readyInt.filter (· != k) } })) d

/-- ING_STREAM_SIGKEY (R123, R124). -/
def execIngStreamSigkey (h : Hdr) (stream : BitVec 24) (binding : Byte) (keyId : W32) (slot : W16) (kind : Byte) :
    State → Host.Outcome State Fault Refusal :=
  cmdPlain h 0x0420 (pk stream ++ [binding] ++ pk keyId ++ pk slot ++ [kind]) fun d =>
    let k := stream.toNat
    let fault := pipFault d slot.toNat 2
    checks [(streamMax ≤ k || 1 < binding.toNat || kind = 0 || 5 < kind.toNat, .badParam)] (fun d =>
      match fault with
      | some st => reject st (countOrphan st d)
      | none =>
        let r := streamOf d k
        let b : Binding := { keyId := keyId, slot := slot.toNat, timeOfKey := 0, timeToNext := 0 }
        let r := if binding = 0 then { r with cur := some (b, kind) } else { r with next := some (b, kind) }
        let fine := (r.cur.all fun x => (pipFault d x.1.slot 2).isNone) && (r.next.all fun x => (pipFault d x.1.slot 2).isNone)
        okay (if fine && r.quar then noteReturn k (setStream k { r with quar := false } d) else setStream k r d)) d

/-- Streams whose binding names a Pip that can no longer be used (R124). -/
def quarStreams (slot cause : Nat) (d : Dev) : Dev :=
  (d.ing.runs.filter fun e => !e.2.quar && (e.2.cur.any (·.1.slot == slot) || e.2.next.any (·.1.slot == slot))).foldl
    (fun d e => logEv 0x0703 e.1 slot cause (setFlag 0x07 4 (setStream e.1 { streamOf d e.1 with quar := true } d))) d

end Sys2Proof.Machine
end

