-- ==== Sys2Proof/Machine/AlmCmd.lean ====
section
/-!
DEFINITION. The commands and events of the ALM block (chapter 10, Tables 10-6 to 10-13).
-/
namespace Sys2Proof.Machine

/-- The address belongs to the port (R104), IPv4 mapped into IPv6. -/
def portOwns (d : Dev) (p : Nat) (a : BitVec 128) : Bool := isOwnIp d p (!isMappedV4 a) a

/-- GOOSE_REPEAT (R315): the interval doubles up to T_MAX, and the message repeats with the next sqNum. -/
def execGooseRepeat (template : Fin 256) : State → Host.Outcome State Fault Refusal := runCore fun d =>
  match mfind d.alm.goose template with
  | none => d
  | some g =>
    if leAt g.desc 0 1 != 1 then d
    else
      let t := template.val
      sendGoose t (tellPeer t (setGoose t { g with sqNum := nextNum g.sqNum, interval := min (2 * g.interval) (leAt g.desc 64 4) } d))

/-- ALARM_PIN_MIN_WIDTH (R309): the pin's least width has passed. -/
def execAlarmPinMinWidth (pin : Fin 16) : State → Host.Outcome State Fault Refusal := runCore fun d =>
  let x := pinOf d pin
  if x.running then pinsFollow (setPin pin { x with running := false } d) else d

/-- ALM_FORCE written (R309). -/
def almForce (v : W32) (d : Dev) : Dev := pinsFollow { d with alm := { d.alm with force := BitVec.ofNat 16 v.toNat } }

/-- ALM_FORCE_WRITE. -/
def execAlmForceWrite (v : W32) : State → Host.Outcome State Fault Refusal := runLive (almForce v)

/-- A limit-class entry (Table 10-6). -/
def limitClassOf (b : Bytes) : LimitClass :=
  { high := BitVec.ofNat 64 (leAt b 0 8), low := BitVec.ofNat 64 (leAt b 8 8), rate := BitVec.ofNat 32 (leAt b 16 4),
    hyst := BitVec.ofNat 32 (leAt b 20 4), qsel := leAt b 24 1, flags := BitVec.ofNat 5 (leAt b 25 1), onN := leAt b 26 1,
    offN := leAt b 27 1, pins := BitVec.ofNat 16 (leAt b 28 2), goose := leAt b 30 1 }

/-- The entry is one that ALM_LIMIT_WRITE refuses (R302). -/
def limitClassBad (b : Bytes) : Bool :=
  let c := limitClassOf b
  4 < c.qsel || 31 < leAt b 25 1 || leAt b 31 1 != 0 || c.onN = 0 || c.offN = 0 || f32Lt c.hyst 0 || f32Lt c.rate 0 ||
  (c.qsel = 4 && (leAt b 4 4 != 0 || c.low != 0))

/-- ALM_LIMIT_WRITE (R302): one changed entry under R20, which counts among those of the other tables, 262,144 in all (DESIGN CHOICE, log
entry 33: R302 names neither of the two limits of R20). -/
def execAlmLimitWrite (h : Hdr) (cls : W16) (entry : Bytes) : State → Host.Outcome State Fault Refusal :=
  let b := cut entry 0 32
  cmdPlain h 0x0630 (pk cls ++ b) (stageWith (cls = 0 || limitClassBad b) [] [3 * 2 ^ 24 + cls.toNat] fun g =>
    { g with limits := mset g.limits cls.toNat (limitClassOf b) })

/-- ALM_MAP (R307): the entry takes effect at the source's next raise or clear. -/
def execAlmMap (h : Hdr) (source : Byte) (pins : W16) (goose : Byte) (latch : Byte) : State → Host.Outcome State Fault Refusal :=
  cmdPlain h 0x0631 (pk source ++ pk pins ++ pk goose ++ pk latch) fun d =>
    checks [(!engSource source.toNat || 1 < latch.toNat, .badParam)] (fun d =>
      let m : SrcMap := { pins := pins, goose := goose.toNat, latch := latch = 1 }
      okay { d with alm := { d.alm with map := mput {} d.alm.map source.toNat m } }) d

/-- ALM_PIN_CONFIG (R309). -/
def execAlmPinConfig (h : Hdr) (p : AlmPinP) : State → Host.Outcome State Fault Refusal :=
  cmdPlain h 0x0632 p.bytes fun d =>
    checks [(15 < p.pin.toNat || 1 < p.enable.toNat || 1 < p.drive.toNat || 1 < p.active.toNat || 1000000 < p.width.toNat,
      .badParam)] (fun d =>
      let n := p.pin.toNat
      let d := setPin n { pinOf d n with enabled := p.enable = 1, openDrain := p.drive = 1, high := p.active = 1, minWidth := p.width.toNat } d
      okay (if p.enable = 1 then showPin n d else emit (.pin 0 n none) d)) d

/-- The generation by whose entry a channel is monitored. -/
def monitorGen (d : Dev) (chan : Nat) : Gen := if d.alm.oldOnly.contains chan then d.old.getD d.cur else d.cur

/-- Acknowledges one channel: its latch is cleared where its condition is absent. -/
def ackLimit (d : Dev) (chan : Nat) : Dev :=
  let g := monitorGen d chan
  match mfind d.alm.limits chan with
  | some x => if x.raised && x.latched then limitEnd chan (entryOf g chan).limit ((classAt g chan).getD class0) true d else d
  | none => d

/-- Acknowledges one engine source. -/
def ackEngine (d : Dev) (n : Nat) : Dev := let x := sourceOf d n; if x.raised && x.latched then engEnd n true d else d

/-- The sources whose latch an acknowledgement of a kind would clear. -/
def latchedBy (d : Dev) (kind which : Nat) : List Nat × List Nat :=
  let l := (d.alm.limits.filter fun e => e.2.raised && e.2.latched).map Prod.fst
  let s := (d.alm.sources.filter fun e => e.2.raised && e.2.latched).map Prod.fst
  match kind with
  | 0 => (l.filter (· = which), [])
  | 1 => ([], s.filter (· = which))
  | _ => (l, s)

/-- ALM_ACK (R308). -/
def execAlmAck (h : Hdr) (kind : Byte) (which : W32) : State → Host.Outcome State Fault Refusal :=
  cmdPlain h 0x0633 (pk kind ++ pk which) fun d =>
    checks [(2 < kind.toNat || (kind = 0 && dirSize ≤ which.toNat) || (kind = 1 && 128 ≤ which.toNat), .badParam)] (fun d =>
      let x := latchedBy d kind.toNat which.toNat
      let n := x.1.length + x.2.length
      let d1 := almSettle d (x.2.foldl ackEngine (x.1.foldl ackLimit d))
      okayWith (leBytes 4 n) (logEv 0x0205 kind.toNat which.toNat n (bump d1 0x02 5))) d

/-- A string of a descriptor: 1 to 64 visible characters, padded with 0. -/
def visible (b : Bytes) : Bool :=
  let s := unpad b
  1 ≤ s.length && s.all (fun c => 0x21 ≤ c.toNat && c.toNat ≤ 0x7E) && allZero (b.drop s.length)

/-- The descriptor is one that ALM_GOOSE refuses (R313, and a field outside Table 10-10, R554). -/
def gooseBad (d : Dev) (x : Bytes) : Bool :=
  let n := leAt x 68 1
  let port := leAt x 1 1
  n = 0 || 32 < n || leAt x 64 4 < leAt x 62 2 || 12 ≤ port || !portOwns d port (BitVec.ofNat 128 (beAt x 32 16)) ||
  !visible (cut x 256 64) || !visible (cut x 320 64) || !visible (cut x 384 64) ||
  1 < leAt x 0 1 || 5 < leAt x 2 1 || leAt x 3 1 = 0 || 63 < leAt x 4 1 || 2 < leAt x 5 1 ||
  leAt x 54 2 = 0 || leAt x 56 2 = 0 || leAt x 62 2 = 0 || 1000 < leAt x 62 2 || leAt x 64 4 < 100 || 60000 < leAt x 64 4 ||
  (List.range (leAt x 5 1)).any (fun k => 2 < leAt x (6 + 4 * k) 1 || 15 < leAt x (7 + 4 * k) 1 || 4095 < leAt x (8 + 4 * k) 2) ||
  (List.range n).any (fun k => 1 < leAt x (72 + 5 * k) 1) ||
  !allZero (cut x 69 3) || !allZero (cut x 232 24) || !allZero (cut x 448 64)

/-- A template loaded: its bindings and SPDU number stay, and an enabled one sends its first message with stNum 1 and sqNum 0
(R315). -/
def loadGoose (t : Nat) (x : Bytes) (d : Dev) : Dev :=
  let was := mfind d.alm.goose t
  let g : Goose := { desc := x, members := (List.range (leAt x 68 1)).map fun k => (leAt x (72 + 5 * k) 1, leAt x (73 + 5 * k) 4),
                     stNum := 1, sqNum := 0, changed := nowStamp d, interval := leAt x 62 2,
                     spdu := (was.map Goose.spdu).getD 0, quar := (was.map Goose.quar).getD false,
                     cur := was.bind Goose.cur, next := was.bind Goose.next }
  if leAt x 0 1 = 1 then sendGoose t (tellPeer t (setGoose t g d)) else setGoose t g d

/-- ALM_GOOSE (R313). -/
def execAlmGoose (h : Hdr) (template : Byte) (addr : W64) (desc : Bytes) (readOk : Bool) :
    State → Host.Outcome State Fault Refusal :=
  cmd h 0x0634 (pk template ++ pk addr) true fun d =>
    let x := cut desc 0 512
    checks [(!readOk, .internalFault), (gooseBad d x, .badParam)] (fun d => okay (loadGoose template.toNat x d)) d

/-- A GOOSE template is quarantined (R316). -/
def quarGooseOne (t slot cause : Nat) (g : Goose) (d : Dev) : Dev :=
  logEv 0x0204 t slot cause (setFlag 0x02 5 (setGoose t { g with quar := true } d))
/-- GOOSE templates whose current Pip can no longer be used (R316). -/
def quarGoose (slot cause : Nat) (d : Dev) : Dev :=
  (d.alm.goose.filter fun e => !e.2.quar && e.2.cur.any (·.slot == slot)).foldl (fun d e => quarGooseOne e.1 slot cause e.2 d) d
/-- The bindings of a GOOSE template take effect: a current Pip that can be used releases it, one that cannot quarantines it (R209). -/
def bindGoose (t : Nat) (g : Goose) (d : Dev) : Dev :=
  match g.cur.filter fun y => (pipFault d y.slot 1).isSome with
  | none => setGoose t { g with quar := false } d
  | some y => if g.quar then setGoose t g d else quarGooseOne t y.slot (pipCause d y.slot) g d
/-- ALM_GOOSE_SIGKEY (R316, R209). -/
def execAlmGooseSigkey (h : Hdr) (p : SigKeyP) : State → Host.Outcome State Fault Refusal :=
  cmdPlain h 0x0635 (leBytes 1 p.index.toNat ++ pk p.binding ++ pk p.keyId ++ pk p.slot ++ pk p.timeOfKey ++ pk p.timeToNext ++
      pk p.swap) fun d =>
    let t := p.index.toNat
    match pipFault d p.slot.toNat 1, mfind d.alm.goose t with
    | some st, _ => checks [(255 < t || 1 < p.binding.toNat || 1 < p.swap.toNat, .badParam)] (fun d => reject st (countOrphan st d)) d
    | none, none => reject .badParam d
    | none, some g =>
      checks [(1 < p.binding.toNat || 1 < p.swap.toNat, .badParam)] (fun d =>
        let x : Binding := { keyId := p.keyId, slot := p.slot.toNat, timeOfKey := p.timeOfKey, timeToNext := p.timeToNext }
        let b := setBinding (p.binding = 1) (p.swap = 1) x g.cur g.next
        okay (bindGoose t { g with cur := b.1, next := b.2 } d)) d

/-- The reply of ALM_STATUS: raised and latch states, condition counts, last x, and the time of the last change. -/
def almStatusReply (raised latched : Bool) (onN offN : Nat) (x : W64) (t : Option Stamp) : Bytes :=
  leBytes 1 (b2n raised) ++ leBytes 1 (b2n latched) ++ leBytes 1 onN ++ leBytes 1 offN ++ leBytes 8 x.toNat ++ (t.getD {}).bytes

/-- ALM_STATUS (Table 10-13). -/
def execAlmStatus (h : Hdr) (kind : Byte) (which : W32) : State → Host.Outcome State Fault Refusal :=
  cmdPlain h 0x0636 (pk kind ++ pk which) fun d =>
    let n := which.toNat
    checks [(1 < kind.toNat || (kind = 0 && dirSize ≤ n) || (kind = 1 && 128 ≤ n), .badParam)] (fun d =>
      if kind = 0 then
        let x := mget {} d.alm.limits n
        okayWith (almStatusReply x.raised x.latched x.onN x.offN x.lastX x.changed) d
      else
        let x := sourceOf d n
        okayWith (almStatusReply x.raised x.latched 0 0 x.value x.changed) d) d

end Sys2Proof.Machine
end

