-- ==== Sys2Proof/Machine/History.lean ====
section
/-!
DEFINITION. The history ring (R229 to R233): groups, the plan, and the writing and reading of blocks.
-/
namespace Sys2Proof.Machine

/-! ### Groups and the plan (R229, R230) -/

/-- A list cut into runs of at most 15. -/
def fifteens : Nat → List Nat → List (List Nat)
  | 0, _ => []
  | _ + 1, [] => []
  | f + 1, l => l.take 15 :: fifteens f (l.drop 15)
/-- A group that a generation's directory asks for: its stream, rate and channels. -/
structure HistWant where
  stream : Nat
  rate   : Nat
  chans  : List Nat
  deriving DecidableEq, Repr
/-- The groups of one stream, by HRATE code and first channel. -/
def groupsFor (g : Gen) (stream : Nat) : List HistWant :=
  ((rangeFrom 1 16).map fun code =>
    let l := (chansOf g stream).filter fun c => (entryOf g c).hrate = code
    (fifteens (l.length + 1) l).map fun cs => ({ stream := stream, rate := hrateOf code, chans := cs } : HistWant)).flatten
/-- The groups of a generation in number order. -/
def groupsOf (g : Gen) : List HistWant := (g.streams.map fun e => groupsFor g e.1).flatten
/-- H_g: 1 plus the largest HOLD_MAX of a HOLD channel, or 1. -/
def holdNeed (g : Gen) (w : HistWant) : Nat :=
  1 + (w.chans.map fun c => if (entryOf g c).subst = 1 then (entryOf g c).holdMax else 0).foldl max 0
/-- The depth of a group at T_h ms. -/
def depthAt (g : Gen) (tH : Nat) (w : HistWant) : Nat := max (holdNeed g w) (tH * w.rate / 1000)
/-- Blocks that the groups take at T_h ms. -/
def blocksAt (g : Gen) (l : List HistWant) (tH : Nat) : Nat := (l.map (depthAt g tH)).sum
/-- Blocks of the history region. -/
def histBlocks : Nat := 201326592
/-- The largest T_h in `[lo, hi]` whose blocks fit, by halving; `lo` fits. -/
def searchT (g : Gen) (l : List HistWant) : Nat → Nat → Nat → Nat
  | 0, lo, _ => lo
  | f + 1, lo, hi =>
    if hi ≤ lo then lo
    else
      let m := (lo + hi + 1) / 2
      if blocksAt g l m ≤ histBlocks then searchT g l f m hi else searchT g l f lo (m - 1)
/-- The groups laid out one after another. -/
def layGroups (g : Gen) (tH : Nat) : Nat → List HistWant → List HistGroup
  | _, [] => []
  | base, w :: t =>
    let n := depthAt g tH w
    { stream := w.stream, rate := w.rate, chans := w.chans, base := base, depth := n } :: layGroups g tH (base + n) t
/-- PUB_HIST_PLAN's result: none where the least depths exceed the region. -/
def histPlan (g : Gen) (tMax : Nat) : Option HistPlan :=
  let l := groupsOf g
  if histBlocks < blocksAt g l 0 then none
  else if l.isEmpty then some { tH := 0, groups := [] }
  else
    let t := searchT g l 64 0 (if tMax = 0 then histBlocks * 1000 + 999 else tMax * 1000)
    some { tH := t, groups := layGroups g t 0 l }
/-- The planned ring of a group; none where the plan has none. -/
def planned (g : Gen) (w : HistWant) : Option (HistGroup × Nat) :=
  match g.hist with
  | none => none
  | some p =>
    match (p.groups.zipIdx).find? fun e => e.1.stream = w.stream && e.1.rate = w.rate && e.1.chans = w.chans with
    | some e => some e
    | none => none
/-- A group keeps its ring across a switch. -/
def keptGroup (a b : Gen) (x : HistGroup) : Bool :=
  (a.hist.any fun p => p.groups.contains x) && (b.hist.any fun p => p.groups.contains x)

/-! ### Blocks -/

/-- A block's header word. -/
def histHead (gen : W16) (sec : W48) (tick : Nat) (late : Bool) (group : Nat) : W64 :=
  BitVec.ofNat 64 (gen.toNat * 2 ^ 48 + tick % 4096 * 2 ^ 36 + sec.toNat % 1024 * 2 ^ 26 + b2n late * 2 ^ 25 + group % 2 ^ 25)
/-- The header is that of an instant. -/
def headIs (h : W64) (sec : W48) (tick : Nat) : Bool := bits h.toNat 36 12 = tick && bits h.toNat 26 10 = sec.toNat % 1024
/-- The block position of an instant in a group's ring. -/
def histPos (x : HistGroup) (sec : W48) (tick : Nat) : Nat :=
  x.base + (sec.toNat * x.rate + tick / periodTicks x.rate) % max 1 x.depth
/-- The block of an instant, where the ring holds it. -/
def histAt (d : Dev) (x : HistGroup) (sec : W48) (tick : Nat) : Option HistBlock :=
  (mfind d.pub.hist (histPos x sec tick)).filter fun b => headIs b.head sec tick
/-- The first channel of a generation's groups without a ring, and how many lack one. -/
def unplanned (g : Gen) : List HistWant := (groupsOf g).filter fun w => (planned g w).isNone
/-- A group without a planned ring writes nothing (R230). -/
def histMissing (g : Gen) (d : Dev) : Dev :=
  let d := setFlag 0x0A 7 (bump d 0x0A 23)
  if d.pub.histLogged then d
  else
    let l := unplanned g
    logEv 0x0A08 l.length (((l.map fun w => w.chans.headD 0).foldl min 0xFFFFFFFF)) 0 { d with pub := { d.pub with histLogged := true } }
/-- Writes the blocks of a stream's groups at an instant (R231): `val` gives each channel's value as it landed. -/
def histWrite (g : Gen) (gen : W16) (stream : Nat) (sec : W48) (tick : Nat) (val : Nat → W64) (d : Dev) : Dev :=
  (groupsFor g stream).foldl (fun d w =>
    if tick % periodTicks w.rate != 0 then d
    else match planned g w with
      | none => histMissing g d
      | some e =>
        if gen != d.clk.gen && !keptGroup g d.cur e.1 then bump d 0x0A 23
        else
          let b : HistBlock := { head := histHead gen sec tick false e.2, vals := padVals (w.chans.map val) }
          bump { d with pub := { d.pub with hist := mset d.pub.hist (histPos e.1 sec tick) b } } 0x0A 20) d
where
  /-- Positions beyond the group's size are 0. -/
  padVals (l : List W64) : List W64 := l ++ List.replicate (15 - l.length) 0
/-- Late values replace those absent in the block of their instant (R232). -/
def histLate (g : Gen) (gen : W16) (stream : Nat) (sec : W48) (tick : Nat) (val : Nat → W64) (d : Dev) : Dev :=
  (groupsFor g stream).foldl (fun d w =>
    if tick % periodTicks w.rate != 0 then d
    else match planned g w with
      | none => histMissing g d
      | some e =>
        if gen != d.clk.gen && !keptGroup g d.cur e.1 then bump d 0x0A 23
        else match histAt d e.1 sec tick with
          | none => bump d 0x0A 22
          | some b =>
            let fix (x : W64 × Nat) : W64 :=
              if isInvalid x.1 && 0x10 ≤ reasonOf x.1 && reasonOf x.1 ≤ 0x13 then
                (match w.chans[x.2]? with | some c => val c | none => x.1)
              else x.1
            let y : HistBlock := { head := setBit b.head 25, vals := b.vals.zipIdx.map fix }
            bump { d with pub := { d.pub with hist := mset d.pub.hist (histPos e.1 sec tick) y } } 0x0A 21) d
/-- The value that HOLD takes (R154): the most recent valid record of the stream's own instants within HOLD_MAX
periods before the slot. -/
def heldValue (d : Dev) (g : Gen) (chan : Nat) (sec : W48) (tick : Nat) : Option W64 :=
  let e := entryOf g chan
  match (groupsFor g e.stream).find? fun w => w.chans.contains chan with
  | none => none
  | some w => match planned g w with
    | none => none
    | some x =>
      let per := periodTicks w.rate
      (List.range e.holdMax).findSome? fun i =>
        let k := ((tickOrd sec tick - 1) / per - i) * per
        match histAt d x.1 (BitVec.ofNat 48 (k / 3600)) (k % 3600) with
        | some b => (b.vals[w.chans.idxOf chan]?).filter fun v => !isInvalid v
        | none => none
/-- At a switch tick every group that does not keep its ring starts empty (R230). -/
def histSwitch (old : Gen) (d : Dev) : Dev :=
  let kept := ((d.cur.hist.map HistPlan.groups).getD []).filter (keptGroup old d.cur)
  let inKept (p : Nat) : Bool := kept.any fun x => x.base ≤ p && p < x.base + x.depth
  { d with pub := { d.pub with hist := d.pub.hist.filter fun e => inKept e.1, histLogged := false } }

end Sys2Proof.Machine
end

