-- ==== Sys2Proof/Machine/Capture.lean ====
section
/-!
DEFINITION. Disturbance capture (chapter 12): what the lanes of a session record, triggers, mask tests, the end of a capture,
its chunks and its summary.
-/
namespace Sys2Proof.Machine

/-! ### Value cells (R226) -/

/-- The mark byte of a value. -/
def markOf (v : PubVal) : Byte := BitVec.ofNat 8 (b2n v.subst * 128 + v.reason % 32)
/-- One value cell: seven marks, a zero byte, seven canonical values. -/
def valueCell (l : List PubVal) : Bytes :=
  padTo 8 (padTo 7 (l.map markOf)) ++ padTo 56 (l.map fun v => leBytes 8 v.word.toNat).flatten
/-- The values laid into cells of seven. -/
def valueCells : Nat → List PubVal → List Bytes
  | 0, _ => []
  | _ + 1, [] => []
  | f + 1, l => valueCell (l.take 7) :: valueCells f (l.drop 7)
/-- The value cells of a list of values. -/
def cellsOf (l : List PubVal) : List Bytes := valueCells (l.length + 1) l
/-- The values of a record in the order of R226. -/
def recVals (r : Record) : List PubVal := (r.contribs.map fun c => c.blocks.flatten).flatten

/-! ### Grids in ninths of a nanosecond -/

/-- A sample instant by its ordinal (R5). -/
def sample9 (q : Nat) : Nat := q * 312500
/-- A tick instant by its ordinal. -/
def tick9 (k : Nat) : Nat := k * 2500000
/-- The first sample at or after an instant. -/
def sampleFrom (t9 : Nat) : Nat := ceilDiv t9 312500
/-- A time in ninths in the format of R42, the fraction truncated. -/
def stamp9 (t9 : Nat) : Stamp := stampOfFine (t9 * 65536 / 9)

/-! ### Lanes (R336 to R339) -/

/-- The selected lanes of a session, 1 to 6. -/
def lanesOf (c : CapDef) : List Nat := (rangeFrom 1 6).filter fun l => bit c.lanes.toNat (l - 1)
/-- The local channels of a session. -/
def localChans (c : CapDef) : List Nat := (List.range 48).filter fun k => bit c.locMask.toNat k
/-- Channels per item of a lane (Table 12-1); in whole-record mode the record's values. -/
def laneChans (c : CapDef) (lane values : Nat) : Nat :=
  if lane ≤ 3 then (localChans c).length else if c.wideAll then values else c.list.length
/-- Bytes per item of a lane (Table 12-1). -/
def itemSize (c : CapDef) (lane values : Nat) : Nat :=
  let n := laneChans c lane values
  match lane with
  | 1 => 4 * n | 2 => 8 * n | 3 => 4 * n | 4 => 64 * ceilDiv n 7 | 5 => 16 * n | _ => 8 * n
/-- A lane's state. -/
def laneOf (x : CapSession) (l : Nat) : CapLane := mget {} x.lanes l
/-- A lane's state replaced. -/
def setLane (l : Nat) (y : CapLane) (x : CapSession) : CapSession := { x with lanes := mput {} x.lanes l y }
/-- A session's REACH in ticks, rounded up (R341). -/
def reachTicks (c : CapDef) : Nat := ceilDiv (c.reach * 18) 5
/-- Chunks that a list of items takes: items of one size fill a chunk, another size begins a new one (R351). -/
def cutChunks : List CapItem → List (List CapItem)
  | l => (l.foldl (fun (acc : List (List CapItem)) x =>
      match acc with
      | [] => [[x]]
      | c :: t =>
        let size := (c.head?.map fun y => y.data.length).getD 0
        if !x.chg && size = x.data.length && (c.length + 1) * size ≤ 65472 then (c ++ [x]) :: t else [x] :: c :: t) []).reverse
/-- Chunks that a session's lanes hold and have in flight. -/
def chunksHeld (x : CapSession) : Nat := x.flight + (x.lanes.map fun e => (cutChunks e.2.items).length).sum

/-! ### Chunk and summary records (R350, R351) -/

/-- The capture's first trigger item in a chunk: at or after TP. -/
def trigIndex (tp : Nat) (items : List CapItem) : Option Nat := items.findIdx? fun i => 9 * tp ≤ i.t9
/-- A chunk's record (Table 12-8). `seen` says that an earlier chunk held the trigger item. -/
def chunkRec (s lane : Nat) (c : CapDef) (k : Capture) (seq : Nat) (seen last over_ : Bool) (items : List CapItem) : HostRec :=
  let data := (items.map CapItem.data).flatten
  let n := items.length
  let size := if n = 0 then 0 else data.length / n
  let trig := if seen then none else trigIndex k.tp items
  let chans := if lane ≤ 3 then (localChans c).length else if c.wideAll then (if lane = 4 then size / 64 * 7 else size / (if lane = 5 then 16 else 8))
    else c.list.length
  let first := items.head?
  let flags := b2n last + 2 * b2n over_ + 4 * b2n trig.isSome + 8 * b2n (first.any CapItem.chg) + 16 * b2n (items.any CapItem.bad)
  { type := 5, prio := 1,
    head := leBytes 1 s ++ leBytes 1 lane ++ leBytes 2 k.number ++ leBytes 4 seq ++
      ((first.map fun i => stamp9 i.t9).getD {}).bytes ++ leBytes 4 n ++ leBytes 2 chans ++ leBytes 2 flags ++
      leBytes 4 (trig.getD 0xFFFFFFFF) ++ leBytes 2 (if lane ≤ 3 then 0 else ((first.map fun i => i.gen.toNat).getD 0)) ++
      leBytes 2 (if lane = 2 || lane = 3 then c.nLocal else if lane = 5 || lane = 6 then c.nWide else 0) ++
      leBytes 4 data.length ++ List.replicate 16 0,
    more := chunksOf 64 (data.length / 64 + 1) data }
/-- The summary's record (Table 12-7). -/
def summaryRec (s : Nat) (k : Capture) (cause : Nat) (end_ : Stamp) (preL postL preW postW : Nat) (counts : List Nat) : HostRec :=
  let flags := b2n (cause = 2) + 2 * b2n k.moved + 4 * b2n k.preShort + 8 * b2n k.extCap + 16 * b2n k.genChg +
    32 * b2n k.modFault + 64 * b2n k.lost
  { type := 5, prio := 1,
    head := leBytes 1 s ++ [0] ++ leBytes 2 k.number ++ leBytes 1 cause ++ leBytes 1 k.kind ++ leBytes 1 k.term ++ leBytes 1 flags ++
      (stampOfNs k.tp).bytes ++ (stampOfNs k.raw).bytes ++ leBytes 4 preL ++ leBytes 4 postL ++ leBytes 4 preW ++ leBytes 4 postW ++
      leBytes 4 k.duringN ++ leBytes 4 k.co,
    more := [padTo 64 (end_.bytes ++ leBytes 4 k.sel.toNat ++ leBytes 4 (sampleFrom (9 * k.tp) % 28800) ++
      (counts.map (leBytes 4)).flatten ++ leBytes 4 (k.mask.getD 0xFFFFFFFF) ++
      ((k.during.take 4).map fun t => leBytes 4 (t % secNs)).flatten)] }
/-- A CAPTURE record posted to the ring that PUB_ROUTE names for TYPE 5. -/
def postCapture (x : HostRec) (d : Dev) : Dev := feed (mget 255 d.pub.routes 5) x d

/-! ### The end of a capture (R349 to R352) -/

/-- The chunks of one lane at the end. -/
def endChunks (s lane : Nat) (c : CapDef) (k : Capture) (y : CapLane) (over_ : Bool) : List HostRec :=
  let l := cutChunks (y.items.filter fun i => i.t9 < k.stop)
  let trigSeen (i : Nat) : Bool := y.posted != 0 && (y.items.head?.any fun z => 9 * k.tp < z.t9) ||
    (l.take i).any fun z => (trigIndex k.tp z).isSome
  l.zipIdx.map fun e => chunkRec s lane c k (y.posted + e.2) (trigSeen e.2) (e.2 + 1 = l.length) (over_ && e.2 + 1 = l.length) e.1
/-- Ticks between the slots of a session's O-stream. -/
def slotStep (d : Dev) (c : CapDef) : Nat := ((mfind d.cur.os c.ostream).map fun o => periodTicks o.rate).getD 1
/-- A capture ends with a cause of Table 12-6; `lane` is the one that overflowed. What lies at or after the capture end is not recorded, and
the summary follows the chunks, so that it tells of those that were discarded (R348, R351). -/
def endCapture (s cause : Nat) (lane : Option Nat) (d : Dev) : Dev :=
  let x := sessOf d s
  match x.defn, x.cap with
  | some c, some k =>
    let recs := (lanesOf c).map fun l => (l, endChunks s l c k (laneOf x l) (lane = some l))
    let all := (recs.map Prod.snd).flatten
    let counts := (rangeFrom 1 6).map fun l => (laneOf x l).posted + ((recs.find? fun e => e.1 = l).map fun e => e.2.length).getD 0
    let q0 := sampleFrom (9 * k.tp)
    let preL := match x.locals with
      | some w => min (8 * c.pre) (q0 - w.1)
      | none => 0
    let postL := match x.locals with
      | some w => min (w.2 + 1) (sampleFrom k.stop) - q0
      | none => 0
    let step := slotStep d c
    let slots (t9 : Nat) : Nat := ceilDiv t9 (tick9 step)
    let preW := match x.wides with
      | some w => slots (9 * k.tp) - max (w.1 / step) (slots (9 * k.tp - tick9 c.pre))
      | none => 0
    let postW := match x.wides with
      | some w => min (w.2 / step + 1) (slots k.stop) - slots (9 * k.tp)
      | none => 0
    let y : CapSession := { x with state := .rearm, lastEnd := cause, lastNum := k.number, nextNum := (k.number + 1) % 65536,
                                   held := if c.stream then [] else recs.foldl (fun m e => mset m e.1 e.2) [],
                                   flight := x.flight + (if c.hold then 0 else all.length) }
    let d := bumpN (setSess s y d) 0x12 10 all.length
    let d := if cause = 2 then logEv 0x1201 s k.number (lane.getD 0) (setFlag 0x12 2 (bump d 0x12 9)) else d
    let d := if c.hold then d else all.foldl (fun d r => postCapture r d) d
    let k := ((sessOf d s).cap).getD k
    postCapture (summaryRec s k cause (nowStamp d) preL postL preW postW counts) d
  | _, _ => d

/-! ### Recording -/

/-- Posts the full chunks of a lane of a capture in STREAM mode. -/
def streamChunks (s lane : Nat) (c : CapDef) (k : Capture) (d : Dev) : Dev :=
  let x := sessOf d s
  let y := laneOf x lane
  match (cutChunks y.items).reverse with
  | [] => d
  | part :: full =>
    let full := full.reverse
    let recs := full.zipIdx.map fun e =>
      chunkRec s lane c k (y.posted + e.2) ((full.take e.2).any fun z => (trigIndex k.tp z).isSome) false false e.1
    let z : CapLane := { y with items := part, posted := y.posted + full.length }
    recs.foldl (fun d r => postCapture r d)
      (bumpN (setSess s { setLane lane z x with flight := x.flight + full.length } d) 0x12 10 full.length)
/-- An item of a lane: kept while its span can be wanted in ARMED; in CAPTURING kept in the range, and a session without a free
chunk for it overflows (R346, R352). -/
def pushItem (s lane : Nat) (i : CapItem) (d : Dev) : Dev :=
  let x := sessOf d s
  match x.defn with
  | none => d
  | some c =>
    let y := laneOf x lane
    let i := { i with chg := 4 ≤ lane && c.wideAll && y.items.getLast?.any fun z => z.gen != i.gen && z.data.length != i.data.length }
    match x.state, x.cap with
    | .armed, _ =>
      let keep := tick9 (c.pre + reachTicks c)
      setSess s (setLane lane { y with items := (y.items ++ [i]).dropWhile fun z => z.t9 + keep < i.t9 } x) d
    | .capturing, some k =>
      if k.stop ≤ i.t9 || i.t9 + tick9 c.pre < 9 * k.tp then d
      else
        let k := { k with modFault := k.modFault || i.bad, genChg := k.genChg || i.chg }
        let first := k.began = nowNs d
        let z : CapLane := mget {} x.before lane
        let x1 := setLane lane { y with items := y.items ++ [i] } { x with
          cap := some k, before := if first then mput {} x.before lane { z with items := z.items ++ [i] } else x.before }
        if x.alloc < chunksHeld x1 then endCapture s 2 (some lane) (setSess s { x with cap := some k } d)
        else if c.stream && !first then streamChunks s lane c k (setSess s x1 d)
        else setSess s x1 d
    | _, _ => d

/-- Rounded to nearest, ties away from zero. -/
def roundAway (n : Int) (m : Nat) : Int :=
  if n < 0 then -(((2 * n.natAbs + m) / (2 * m) : Nat) : Int) else ((2 * n.natAbs + m) / (2 * m) : Nat)
/-- The int32 of a local sample kept in a group. -/
def int32 (v : W64) : Int := signed 32 v.toNat
/-- The item of a local group: min and max, or the mean, of each channel. -/
def localGroup (mean : Bool) (g : CapGroup) : CapItem :=
  let one (l : List W64) : Bytes :=
    let v := l.map int32
    let a := v.foldl min (v.headD 0)
    let b := v.foldl max (v.headD 0)
    if mean then leBytes 4 (unsigned 32 (roundAway v.sum (max 1 v.length)))
    else leBytes 4 (unsigned 32 a) ++ leBytes 4 (unsigned 32 b)
  { t9 := g.t9, data := (g.vals.map one).flatten, bad := g.bad }
/-- The reduction of a wide channel by its canonical form (R339): minimum, maximum and mean. -/
def wideReduce (form : Nat) (l : List W64) : W64 × W64 × W64 :=
  let n := f64Int l.length
  let least (v : List W64) : W64 := v.foldl (fun m x => if f64Lt x m then x else m) (v.headD 0)
  let most (v : List W64) : W64 := v.foldl (fun m x => if f64Lt m x then x else m) (v.headD 0)
  if l.isEmpty then (invalidVal 1, invalidVal 1, invalidVal 1)
  else match form with
    | 0 => (least (l.map phMag), most (l.map phMag),
        phasor (f64Div (f64Sum (l.reverse.map phRe)) n) (f64Div (f64Sum (l.reverse.map phIm)) n))
    | 1 => (least l, most l, f64Div (f64Sum l.reverse) n)
    | _ => (l.foldl (· &&& ·) (l.headD 0), l.foldl (· ||| ·) 0, l.headD 0)
/-- The item of a wide group. -/
def wideGroup (mean : Bool) (forms : List Nat) (gen : W16) (g : CapGroup) : CapItem :=
  let one (e : List W64 × Nat) : Bytes :=
    let r := wideReduce (forms.getD e.2 1) e.1
    if mean then leBytes 8 r.2.2.toNat else leBytes 8 r.1.toNat ++ leBytes 8 r.2.1.toNat
  { t9 := g.t9, gen := gen, data := (g.vals.zipIdx.map one).flatten, bad := g.bad }
/-- Gathers one instant into a reduction lane's group; the group of the ordinals before it gives its item (R339). `vals` holds
the usable values of each channel at the instant. -/
def intoGroup (s lane n ord t9 t9of : Nat) (vals : List (List W64)) (bad : Bool) (item : CapGroup → CapItem) (d : Dev) : Dev :=
  let x := sessOf d s
  let y := laneOf x lane
  let g := ord / n
  let old : Option CapGroup := y.group.filter fun z => z.ord != g
  let d := match old with
    | some z => pushItem s lane (item z) d
    | none => d
  let x := sessOf d s
  let y := laneOf x lane
  let grown : Option CapGroup := match y.group with
    | some z => if z.ord = g then some { z with vals := z.vals.zipWith (fun a b => b ++ a) vals, bad := z.bad || bad } else none
    | none => none
  let fresh : CapGroup := { t9 := t9of, ord := g, vals := vals, bad := bad }
  let z := grown.getD fresh
  if (ord + 1) % n = 0 then
    let d := setSess s (setLane lane { y with group := none } x) d
    pushItem s lane (item z) d
  else if t9of ≤ t9 then setSess s (setLane lane { y with group := some z } x) d
  else d

/-! ### Mask tests (R347, R348) -/

/-- A bound of the envelope at `x` ninths of a nanosecond after TP: interpolated between points, held after the last. -/
def envelope (pick : Nat × W32 × W32 → W32) (pts : List (Nat × W32 × W32)) (x : Nat) : Int × Nat :=
  let before := pts.filter fun p => p.1 * 9000 ≤ x
  let after := (pts.filter fun p => x < p.1 * 9000).head?
  match before.getLast?, after with
  | some a, some b =>
    let u := f32Q (pick a)
    let v := f32Q (pick b)
    let n : Nat := x - a.1 * 9000
    let m : Nat := (b.1 - a.1) * 9000
    -- u + (v - u) * n / m
    (u.1 * v.2 * m + (v.1 * u.2 - u.1 * v.2) * n, u.2 * v.2 * m)
  | some a, none => f32Q (pick a)
  | none, some b => f32Q (pick b)
  | none, none => (0, 1)
/-- A value violates the envelope: above upper or below lower. -/
def violates (pts : List (Nat × W32 × W32)) (x : Nat) (v : Int × Nat) : Bool :=
  let up := envelope (fun p => p.2.1) pts x
  let lo := envelope (fun p => p.2.2) pts x
  decide (up.1 * v.2 < v.1 * up.2) || decide (v.1 * lo.2 < lo.1 * v.2)
/-- A STOP mask is violated (R348): where the new end has passed already, the capture ends at once. -/
def maskStop (s mk t9 : Nat) (m : CapMask) (d : Dev) : Dev :=
  let x := sessOf d s
  match x.cap with
  | some k =>
    let e := t9 + tick9 m.stopPost
    if k.mask.isNone && e < k.stop then
      let d := logEv 0x1203 s mk (t9 / 9 % secNs) (setFlag 0x12 3
        (bump (setSess s { x with cap := some { k with mask := some mk, stop := e } } d) 0x12 8))
      if e ≤ 9 * nowNs d then endCapture s 1 none d else d
    else d
  | none => d
/-- The STOP masks of a capture against the values of one instant, by channel (R348); the first violation stops. -/
def stopMasks (s : Nat) (wide : Bool) (t9 : Nat) (val : CapMask → Option (Int × Nat)) (d : Dev) : Dev :=
  let x := sessOf d s
  match x.defn, x.cap with
  | some c, some k =>
    if 9 * k.tp ≤ t9 && t9 < k.stop && decide (x.state = .capturing) then
      (x.masks.filter fun e => bit c.maskEn.toNat e.1 && e.2.stop && e.2.wide = wide).foldl (fun d e =>
        match val e.2 with
        | some v => if violates e.2.points (t9 - 9 * k.tp) v then maskStop s e.1 t9 e.2 d else d
        | none => d) d
    else d
  | _, _ => d

/-- The TRIGGER masks of an ARMED session against the values of one instant: a violation of the bounds of point 0 is a trigger of each term
that names the mask (R348). A local mask's point is less its channel's SKEW. -/
def trigMasks (s : Nat) (wide : Bool) (t9 : Nat) (val : CapMask → Option (Int × Nat)) (d : Dev) : Dev :=
  let x := sessOf d s
  match x.defn, x.state with
  | some c, .armed =>
    let t := t9 / 9
    sendTriggers ((x.masks.filter fun e => bit c.maskEn.toNat e.1 && e.2.trig && e.2.wide = wide &&
        (val e.2).any (violates (e.2.points.take 1) 0)).map fun e =>
      termHits d s 4 (fun w => w.toNat = e.1) none t (if wide then t else unskew d e.2.chan t)).flatten d
  | _, _ => d

/-! ### The two sources -/

/-- One sample instant reaches the sessions (R337, R339): ordinal, the 48 values, and the channels in FAULT, SETTLING or OVER. -/
def capLocal (q : Nat) (vals : List (BitVec 32)) (bad : List Nat) (d : Dev) : Dev :=
  (List.range 32).foldl (fun d s =>
    let x := sessOf d s
    match x.defn with
    | some c =>
      if c.isLocal && (decide (x.state = .armed) || decide (x.state = .capturing)) then
        let ch := localChans c
        let v := ch.map fun k => vals.getD k 0
        let isBad := ch.any bad.contains
        let d := setSess s { x with locals := some ((x.locals.map Prod.fst).getD q, q) } d
        let val (m : CapMask) : Option (Int × Nat) := some (signed 32 (vals.getD m.chan 0).toNat, 1)
        let d := trigMasks s false (sample9 q) val (stopMasks s false (sample9 q) val d)
        let d := if bit c.lanes.toNat 0 then
            pushItem s 1 { t9 := sample9 q, data := (v.map fun w => leBytes 4 w.toNat).flatten, bad := isBad } d else d
        let one := v.map fun w => [BitVec.ofNat 64 w.toNat]
        let group (l : Nat) (mean : Bool) (d : Dev) : Dev :=
          if bit c.lanes.toNat (l - 1) then
            intoGroup s l c.nLocal q (sample9 q) (sample9 (q / c.nLocal * c.nLocal)) one isBad (localGroup mean) d
          else d
        group 3 true (group 2 false d)
      else d
    | none => d) d

/-- The value of a channel in a record, as the record carries it. -/
def recVal (r : Record) (chan : Nat) : Option PubVal := (recVals r).find? fun v => v.chan = chan
/-- What a reduction or a mask may use of a value: a valid one, not substituted. -/
def usable (v : PubVal) : Bool := !v.subst && !isInvalid v.word
/-- The number a mask tests: the value, or a phasor's magnitude. -/
def maskValue (g : Gen) (magn : Bool) (v : PubVal) : Int × Nat :=
  match formOf (entryOf g v.chan) with
  | 0 => if magn then f64Q (phMag v.word) else f64Q (phRe v.word)
  | 1 => f64Q v.word
  | _ => (bits v.word.toNat 0 16, 1)

/-- One commit's record reaches the sessions of its O-stream (R338, R339). -/
def capWide (g : Gen) (r : Record) (d : Dev) : Dev :=
  (List.range 32).foldl (fun d s =>
    let x := sessOf d s
    match x.defn, mfind g.os r.summary.ostream with
    | some c, some o =>
      if c.isWide && c.ostream = r.summary.ostream && (decide (x.state = .armed) || decide (x.state = .capturing)) then
        let k := tickOrd r.summary.sec r.summary.tick
        let ord := k / periodTicks o.rate
        let t9 := tick9 k
        let missing := if c.wideAll then 0 else (c.list.filter fun ch => (recVal r ch).isNone).length
        let vals := if c.wideAll then recVals r
          else c.list.map fun ch => (recVal r ch).getD { chan := ch, word := invalidVal 1, subst := false, reason := 1 }
        let d := bumpN (setSess s { x with wides := some ((x.wides.map Prod.fst).getD k, k) } d) 0x12 14 missing
        let val (m : CapMask) : Option (Int × Nat) :=
          ((vals.find? fun v => v.chan = m.chan).filter usable).map fun v => maskValue g m.magn v
        let d := trigMasks s true t9 val (stopMasks s true t9 val d)
        let d := if bit c.lanes.toNat 3 then pushItem s 4 { t9 := t9, gen := r.summary.gen, data := (cellsOf vals).flatten } d else d
        let one := vals.map fun v => if usable v then [v.word] else []
        let forms := vals.map fun v => formOf (entryOf g v.chan)
        let group (l : Nat) (mean : Bool) (d : Dev) : Dev :=
          if bit c.lanes.toNat (l - 1) then
            intoGroup s l c.nWide ord t9 (tick9 (ord / c.nWide * c.nWide * periodTicks o.rate)) one false (wideGroup mean forms r.summary.gen) d
          else d
        group 6 true (group 5 false d)
      else d
    | _, _ => d) d

/-! ### Triggers (R344, R345) -/

/-- A capture starts: the range is fixed by TP, and the lanes keep what lies in it (R345, R346). `was` is the capture of the same cycle that
it replaces; what that one counted does not count again. In STREAM mode the full chunks go out from the next item. -/
def startCapture (s : Nat) (c : CapDef) (kind term : Nat) (sel : W32) (raw tp : Nat) (was : Option Capture) (d : Dev) : Dev :=
  let x := sessOf d s
  let now := nowNs d
  let least := now - c.reach * 1000000
  let moved := decide (tp < least)
  let tp := max tp least
  let start9 := 9 * tp - tick9 c.pre
  let shortL := c.isLocal && (match x.locals with
    | some w => start9 + 312500 ≤ sample9 w.1
    | none => c.pre != 0)
  let step := match mfind d.cur.os c.ostream with
    | some o => tick9 (periodTicks o.rate)
    | none => 0
  let shortW := c.isWide && (match x.wides with
    | some w => start9 + step ≤ tick9 w.1
    | none => c.pre != 0)
  let k : Capture := { number := x.nextNum, tp := tp, raw := raw, kind := kind, term := term, sel := sel, began := now,
                       stop := 9 * tp + tick9 c.post, co := (was.map fun k => k.co + 1).getD 0, moved := moved, preShort := shortL || shortW }
  let trim (y : CapLane) : CapLane := { y with items := y.items.filter fun i => start9 ≤ i.t9 && i.t9 < k.stop }
  let grew (y : CapLane) : Bool := (y.items.drop 1).any CapItem.chg
  let lanes : NMap CapLane := x.lanes.map fun e => (e.1, trim e.2)
  let k := { k with modFault := lanes.any (fun e => e.2.items.any CapItem.bad), genChg := lanes.any fun e => grew e.2 }
  let d := setSess s { x with state := .capturing, cap := some k, before := x.lanes, lanes := lanes } d
  let d := if moved && !(was.any Capture.moved) then setFlag 0x12 5 (bump d 0x12 6) else d
  let d := if k.preShort && !(was.any Capture.preShort) then setFlag 0x12 4 (bump d 0x12 7) else d
  setFlag 0x12 0 d
/-- A trigger in the cycle in which the capture started (R345): the earlier point is TP; on equal points a command or launch
trigger, else the lower term. -/
def coTrigger (s : Nat) (c : CapDef) (k : Capture) (kind term : Nat) (sel : W32) (raw tp : Nat) (d : Dev) : Dev :=
  let x := sessOf d s
  let d := bump d 0x12 5
  let rank (kd tm : Nat) : Nat := if 5 ≤ kd then 0 else tm + 1
  let p := max tp (k.began - c.reach * 1000000)
  if p < k.tp || (p = k.tp && rank kind term < rank k.kind k.term) then
    startCapture s c kind term sel raw tp (some k) (setSess s { x with lanes := x.before } d)
  else setSess s { x with cap := some { k with co := k.co + 1 } } d
/-- A trigger in CAPTURING (R345): it extends the capture, or is only counted and listed. -/
def duringTrigger (s : Nat) (c : CapDef) (k : Capture) (tp : Nat) (d : Dev) : Dev :=
  let x := sessOf d s
  let k := { k with during := if k.during.length < 8 then k.during ++ [tp] else k.during, duringN := k.duringN + 1 }
  let e := 9 * tp + tick9 c.post
  if k.exts < c.extMax then
    if k.mask.isNone && k.stop < e then bump (setSess s { x with cap := some { k with exts := k.exts + 1, stop := e } } d) 0x12 13
    else bump (setSess s { x with cap := some k } d) 0x12 3
  else bump (setSess s { x with cap := some { k with extCap := true } } d) 0x12 3
/-- A trigger reaches a session (R344, R345): kind 1 to 6, term or 0xFF, SELECTOR, its unmoved instant and its point, in ns. -/
def capTrigger (s kind term : Nat) (sel : W32) (raw tp : Nat) (d : Dev) : Dev :=
  let x := sessOf d s
  match x.defn with
  | none => d
  | some c =>
    let d := bump d 0x12 0
    match x.state, x.cap with
    | .undefined, _ => d
    | .idle, _ => bump d 0x12 2
    | .armed, _ => bump (startCapture s c kind term sel raw tp none d) 0x12 1
    | .capturing, some k =>
      if k.began = nowNs d then coTrigger s c k kind term sel raw tp d else duringTrigger s c k tp d
    | .capturing, none => d
    | .rearm, _ => tally tallyCap s 1 0 (setFlag 0x12 1 (bump d 0x12 4))

/-- The capture's range has been covered: every sample and slot before its end has been seen (R346). -/
def rangeDone (d : Dev) (x : CapSession) : Bool :=
  match x.defn, x.cap with
  | some c, some k =>
    let localNeed := if bit c.lanes.toNat 1 || bit c.lanes.toNat 2 then ceilDiv (sampleFrom k.stop) c.nLocal * c.nLocal else sampleFrom k.stop
    let local_ := !c.isLocal || x.locals.any fun w => localNeed ≤ w.2 + 1
    let wide_ := !c.isWide || (match mfind d.cur.os c.ostream, x.wides with
      | some o, some w =>
        let p := periodTicks o.rate
        let n := if bit c.lanes.toNat 4 || bit c.lanes.toNat 5 then c.nWide else 1
        ceilDiv k.stop (tick9 (p * n)) * (p * n) ≤ w.2 + p
      | _, _ => false)
    local_ && wide_
  | _, _ => false

/-- A generation retires: a wide session in CAPTURING whose O-stream the current generation lacks ends (Table 12-6). -/
def capGenLost (d : Dev) : Dev :=
  (List.range 32).foldl (fun d s =>
    let x := sessOf d s
    match x.defn with
    | some c =>
      if c.isWide && decide (x.state = .capturing) && (mfind d.cur.os c.ostream).isNone then
        logEv 0x1205 s c.ostream 0 (endCapture s 6 none d)
      else d
    | none => d) d

end Sys2Proof.Machine
end

