-- ==== Sys2Proof/Machine/Units.lean ====
section
/-!
DEFINITION. The shedding units (R15 to R19, Table 1-3): the commit notice of a slot, and the shed of one whose work has not been
delivered.
-/
namespace Sys2Proof.Machine

/-- Bytes 8 to 19 of a slot's records: TAI second, tick, O-stream and generation (R225). -/
def slotBytes (s : Summary) : Bytes :=
  leBytes 6 s.sec.toNat ++ leBytes 2 s.tick ++ leBytes 2 s.ostream ++ leBytes 2 s.gen.toNat
/-- Entries of zeros. -/
def zeroEntries (n : Nat) : List Bytes := List.replicate n (List.replicate 64 0)
/-- A shed slot's quality record: status 5, the flags, and zeros in the rest of entry 0; `tail` are its further entries (R251, R276, R297). -/
def shedRecord (engine unit flags : Nat) (tail : List Bytes) (r : Record) (d : Dev) : Dev :=
  postRecord 8 (slotBytes r.summary ++ leBytes 1 engine ++ leBytes 1 (5 + 16 * unit) ++ leBytes 2 flags) tail d
/-- A shed notice of a DERIVED stream in place of its report (R175). -/
def shedNotice (stream : Nat) (r : Record) (d : Dev) : Dev :=
  match (genByNum d r.summary.gen).bind fun g => mfind g.streams stream with
  | none => d
  | some s =>
    let x : Report := { stream := stream, sec := r.summary.sec, ns := BitVec.ofNat 32 (tickStartNs r.summary.tick), arrival := nowStamp d,
                        defn := s, parsed := false, gen := r.summary.gen, leap := none, values := [], shed := true }
    { d with ing := { d.ing with alnQ := d.ing.alnQ ++ [x] } }
/-- A shed counts in CLK_SHED of its unit and in the summary of its second (R16, R18, R19). -/
def countShed (unit : Nat) (r : Record) (d : Dev) : Dev := tally tallyShed unit 1 (r.summary.tick + 4096 * r.summary.ostream) (bump d 0x15 unit)
/-- A shed that delivers: the notice, and a quality record of status 5 and zeros. -/
def shedDeliver (unit engine entries stream : Nat) (r : Record) (d : Dev) : Dev :=
  shedRecord engine unit 0 (zeroEntries (entries - 1)) r (shedNotice stream r (countShed unit r d))
/-- A record is of an O-stream. -/
def ofStream (o : Nat) (r : Record) : Bool := r.summary.ostream = o
/-- The pending work of a unit that the commit of an O-stream's next slot leaves: that of other O-streams (R16). -/
def notOf (o : Nat) (x : Option Record) : Option Record := x.filter fun r => !ofStream o r

/-! ### The estimator, unit 0 -/

/-- The estimator's configuration of a generation, where it is enabled. -/
def estConfig (g : Gen) : Option EstConfig := if g.est.config.enable then some g.est.config else none
/-- A stream is DERIVED at a rate. -/
def derivedAt (g : Gen) (stream rate : Nat) : Bool :=
  match mfind g.streams stream with
  | some s => decide (s.kind = .derived) && s.rate = rate
  | none => false
/-- A stream is DERIVED and at the rate of an O-stream (R240, R253). -/
def derivedFits (g : Gen) (stream ostream : Nat) : Bool :=
  match mfind g.streams stream, mfind g.os ostream with
  | some s, some o => decide (s.kind = .derived) && s.rate = o.rate
  | _, _ => false
/-- The estimator is disabled for a generation (R253). -/
def estOff (g : Gen) : Bool := !derivedFits g g.est.config.stream g.est.config.ostream
/-- A slot with or without an alarm condition. -/
def AlarmCount.next (x : AlarmCount) (on : Bool) : AlarmCount :=
  if on then { onN := min 255 (x.onN + 1), offN := 0 } else { onN := 0, offN := min 255 (x.offN + 1) }
/-- A source is raised after `n` slots with its condition and cleared after `k` without. -/
def judgeAlarm (src n k : Nat) (c : AlmCtx) (x : AlarmCount) (detail : Nat) (value lim : W64) (d : Dev) : Dev :=
  if x.onN != 0 && n ≤ x.onN then engRaise src c detail value lim d
  else if x.offN != 0 && k ≤ x.offN then engClear src c detail value d
  else d
/-- The estimator's alarm sources after a slot of a status, with the rows it removed (R256). -/
def estAlarms (c : EstConfig) (ctx : AlmCtx) (status : Nat) (removed : List (Nat × W64)) (j chi : W64) (unobs : Nat) (d : Dev) : Dev :=
  let counts : NMap Nat := removed.foldl (fun m e => mset m e.1 (min 255 (mget 0 d.est.suspects e.1 + 1))) []
  let worst := removed.find? fun e => c.suspectN ≤ mget 0 counts e.1
  let a := d.est.chi.next (status = 1)
  let u := d.est.unsolved.next (2 ≤ status)
  let s := d.est.suspect.next worst.isSome
  let d := { d with est := { d.est with chi := a, unsolved := u, suspect := s, suspects := counts } }
  let d := judgeAlarm 0 c.chiN c.chiN ctx a 0 j chi d
  let w := worst.getD ((sourceOf d 1).detail.toNat, (sourceOf d 1).value)
  let d := judgeAlarm 1 1 c.suspectN ctx s w.1 w.2 (f32To64 c.rnLimit) d
  let d := judgeAlarm 2 c.unsolvedN c.unsolvedN ctx u status 0 0 d
  if 3 ≤ status then d
  else if c.obsLimit < unobs then engRaise 3 ctx unobs 0 (f64Int c.obsLimit) d
  else engClear 3 ctx unobs 0 d
/-- The estimator's run for slots of a generation. -/
def estRunOf (d : Dev) (n : W16) : EstRun := if n = d.clk.gen then d.est.run else d.est.oldRun
/-- The flags of a quality record that do not rest on a solve: WARMING, REFACTOR and COLD (Table 8-7). -/
def estBaseFlags (r : Record) (cold : Bool) (d : Dev) : Nat :=
  b2n r.summary.warming + 128 * b2n ((d.est.running.any fun f => !f.prep) || d.est.pending) + 256 * b2n cold
/-- The estimator sheds a slot (R255); status 5 counts among the unsolved slots (R256). Entry 1 of the record names no row. -/
def estShed (r : Record) (d : Dev) : Dev :=
  match genByNum d r.summary.gen with
  | none => countShed 0 r d
  | some g =>
    let c := g.est.config
    let d := countShed 0 r d
    let d := if estOff g then d else shedNotice c.stream r d
    let d := shedRecord 0x0B 0 (estBaseFlags r (estRunOf d r.summary.gen).cold d) [List.replicate 32 0xFF ++ List.replicate 32 0] r d
    almSettle d (estAlarms c (recCtx r) 5 [] 0 0 0 d)
/-- At the commit of an O-stream's next slot the estimator sheds what it has not delivered of that O-stream (R16, R255). -/
def estLate (o : Nat) (d : Dev) : Dev :=
  let late := (d.est.working.toList ++ d.est.notices).filter (ofStream o)
  late.foldl (fun d x => estShed x d)
    { d with est := { d.est with working := notOf o d.est.working, notices := d.est.notices.filter fun r => !ofStream o r } }
/-- The estimator takes a commit notice. -/
def estNotice (r : Record) (d : Dev) : Dev :=
  let d := bump d 0x0B 0
  { d with est := { d.est with notices := d.est.notices ++ [r], slotNo := d.est.slotNo + 1 } }

/-! ### The mode engine, units 1 and 2 -/

/-- The mode engine's configuration of a generation, where it is enabled. -/
def oscConfig (g : Gen) : Option OscConfig := g.osc.config.filter OscConfig.enable
/-- The slot is an update instant (R269). -/
def isUpdate (c : OscConfig) (s : Summary) : Bool := c.update != 0 && tickOrd s.sec s.tick % c.update = 0
/-- The configuration under which a slot is an update, if it is one. -/
def oscUpdateOf (d : Dev) (r : Record) : Option OscConfig :=
  ((genByNum d r.summary.gen).bind oscConfig).filter fun c => isUpdate c r.summary
/-- The shared stages of a slot in work have run: its generation's engine is not disabled. -/
def oscRan (d : Dev) (r : Record) : Bool := (genByNum d r.summary.gen).any fun g => !g.osc.prep.off
/-- Unit 1 sheds a slot. `begun`: its shared stages have ended, so its inputs become as they are with the slot absent (R278). -/
def oscShed1 (begun : Bool) (r : Record) (d : Dev) : Dev :=
  let up := oscUpdateOf d r
  let begun := begun && oscRan d r
  let d := match up with
    | some c => shedDeliver 1 0x0C 9 c.modeStream r d
    | none => countShed 1 r d
  { d with osc := { d.osc with
    shed1 := true, stMode := if up.isSome then 5 else d.osc.stMode, late1 := d.osc.late1 || begun
    inputs := if begun then d.osc.inputsAbs else d.osc.inputs } }
/-- Unit 2 sheds a slot; `begun`: its branches become as they are with the slot absent (R278). -/
def oscShed2 (begun : Bool) (r : Record) (d : Dev) : Dev :=
  let up := oscUpdateOf d r
  let begun := begun && oscRan d r
  let d := match up with
    | some c => shedDeliver 2 0x0C 3 c.foStream r d
    | none => countShed 2 r d
  { d with osc := { d.osc with
    shed2 := true, stFo := if up.isSome then 5 else d.osc.stFo, late2 := d.osc.late2 || begun
    branches := if begun then d.osc.branchesAbs else d.osc.branches } }
/-- At the commit of an O-stream's next slot the mode engine sheds what it has not delivered of that O-stream: a slot whose shared stages have
not ended by both units, one in a unit's own stages by that unit (R16, R278). -/
def oscLate (o : Nat) (d : Dev) : Dev :=
  let early := d.osc.notices.filter (ofStream o)
  let in1 := d.osc.update1.filter (ofStream o)
  let in2 := (d.osc.update2.or d.osc.eval2).filter (ofStream o)
  let d := { d with osc := { d.osc with
    notices := d.osc.notices.filter (fun r => !ofStream o r), lost := d.osc.lost ++ early
    update1 := notOf o d.osc.update1, update2 := notOf o d.osc.update2, eval2 := notOf o d.osc.eval2 } }
  let d := in1.toList.foldl (fun d x => oscShed1 true x d) d
  let d := in2.toList.foldl (fun d x => oscShed2 true x d) d
  early.foldl (fun d x => oscShed2 false x (oscShed1 false x d)) d
/-- The mode engine takes a commit notice; one of a generation older than the newest it has taken is ignored (R280). -/
def oscNotice (r : Record) (d : Dev) : Dev :=
  if r.summary.gen + 1 = d.osc.seenGen then bump d 0x0C 12
  else
    let d := bump d 0x0C 0
    { d with osc := { d.osc with notices := d.osc.notices ++ [r], seenGen := r.summary.gen } }

/-! ### The island engine, units 3 and 4 -/

/-- The island engine's configuration of a generation, where it is enabled. -/
def islConfig (g : Gen) : Option IslConfig := g.isl.config.filter IslConfig.enable
/-- Unit 3 sheds a slot. -/
def islShed3 (r : Record) (d : Dev) : Dev :=
  let d := match (genByNum d r.summary.gen).bind islConfig with
    | some c => shedDeliver 3 0x0D 1 c.topoStream r d
    | none => countShed 3 r d
  { d with isl := { d.isl with shed3 := true, stTopo := 5 } }
/-- Unit 4 sheds a slot; its inputs are absent for R292. -/
def islShed4 (r : Record) (d : Dev) : Dev :=
  let d := match (genByNum d r.summary.gen).bind islConfig with
    | some c => shedDeliver 4 0x0D 1 c.cohStream r d
    | none => countShed 4 r d
  { d with isl := { d.isl with missed4 := d.isl.missed4 + 1, shed4 := true, stCoh := 5 } }
/-- At the commit of an O-stream's next slot the island engine sheds what it has not delivered of that O-stream (R16, R299). -/
def islLate (o : Nat) (d : Dev) : Dev :=
  let early := d.isl.notices.filter (ofStream o)
  let in3 := (d.isl.topo.filter (ofStream o)).toList
  let in4 := (d.isl.coh.filter (ofStream o)).toList
  let d := { d with isl := { d.isl with
    notices := d.isl.notices.filter (fun r => !ofStream o r), lost := d.isl.lost ++ early
    topo := notOf o d.isl.topo, coh := notOf o d.isl.coh } }
  (in4 ++ early).foldl (fun d x => islShed4 x d) ((in3 ++ early).foldl (fun d x => islShed3 x d) d)
/-- The island engine takes a commit notice; one of a generation older than the newest it has taken is ignored (R300). -/
def islNotice (r : Record) (d : Dev) : Dev :=
  if r.summary.gen + 1 = d.isl.seenGen then bump d 0x0D 11
  else
    let d := bump d 0x0D 0
    { d with isl := { d.isl with notices := d.isl.notices ++ [r], seenGen := r.summary.gen } }

/-- The commit of a record: each analytics unit sheds what it has not delivered of that O-stream, whatever configuration it was for, and the
engines whose configuration of the slot's generation names the O-stream take the notice (R16, R176). -/
def notifyUnits (g : Gen) (r : Record) (d : Dev) : Dev :=
  let o := r.summary.ostream
  let d := islLate o (oscLate o (estLate o d))
  let d := if (estConfig g).any fun c => c.ostream = o then estNotice r d else d
  let d := if (oscConfig g).any fun c => c.ostream = o then oscNotice r d else d
  if (islConfig g).any fun c => c.ostream = o then islNotice r d else d

/-- Every analytics unit has delivered or shed its last slot of a generation (R24). -/
def unitsDone (d : Dev) (n : W16) : Bool :=
  let old (r : Record) : Bool := r.summary.gen = n
  !((d.est.working.toList ++ d.est.notices ++ d.osc.notices ++ d.osc.update1.toList ++ d.osc.update2.toList ++ d.osc.eval2.toList ++
    d.isl.notices ++ d.isl.topo.toList ++ d.isl.coh.toList).any old)

end Sys2Proof.Machine
end

