-- ==== Sys2Proof/Machine/Publish.lean ====
section
/-!
DEFINITION. Publishing (R194 to R212): the encoding of Table 4-12, C37.118.2 and sampled-value frames, output staging, and the
aligned and late-correction records of host delivery (R225 to R227).
-/
namespace Sys2Proof

open Sys2Proof.Machine (bit)

/-- START_ON. -/
def TemplateP.startOn (t : TemplateP) : Bool := bit t.bits.toNat 0
/-- AMEND_OUT. -/
def TemplateP.amendOut (t : TemplateP) : Bool := bit t.bits.toNat 1

end Sys2Proof

namespace Sys2Proof.Machine

/-! ### Encoding (Table 4-12) -/

/-- An integer result, halves away from zero, saturated to a range. -/
def satRound (lo hi : Int) (x : W64) : Int × Bool :=
  if !f64Fin x then (if bit x.toNat 63 then lo else hi, true)
  else
    let n := roundAway (f64Q x).1 (f64Q x).2
    if n < lo then (lo, true) else if hi < n then (hi, true) else (n, false)
/-- A signed 16-bit field, saturated to ±32,767. -/
def int16Out (x : W64) : Bytes × Nat := let r := satRound (-32767) 32767 x; (beBytes 2 (unsigned 16 r.1), b2n r.2)
/-- A binary32 field. -/
def f32Out (x : W64) : Bytes := beBytes 4 (f64To32 x).toNat
/-- The invalid encodings. -/
def nan32 : Bytes := beBytes 4 0x7FC00000
/-- See `nan32`. -/
def absent16 : Bytes := [0x80, 0]
/-- The largest finite binary32 value of a sign. -/
def f32Max (neg : Bool) : W32 := BitVec.ofNat 32 (b2n neg * 2 ^ 31 + 0x7F7FFFFF)
/-- (x - B) / K. -/
def unscale (s : ScaleEntry) (x : W64) : W64 := f64Div (f64Sub x s.b) s.k
/-- A binary32 analogue field: a result beyond the range is the largest finite value, counted as saturated. -/
def analog32 (x : W64) : Bytes × Nat :=
  let y := f64To32 x
  if f32Fin y then (beBytes 4 y.toNat, 0) else (beBytes 4 (f32Max (bit x.toNat 63)).toNat, 1)
/-- The scaling entry of a phasor: VSCALE or ISCALE for 16-bit voltage and current phasors (Table 7-1). -/
def phasorScale (g : Gen) (f : OstreamFmtP) (e : DirEntry) : ScaleEntry :=
  let own := if e.qty = 0 then f.vscale.toNat else if e.qty = 1 then f.iscale.toNat else 0
  scaleOf g (if f.phFmt.toNat < 2 && own != 0 then own else e.scale)
/-- A phasor field by PH_FMT. -/
def phasorField (g : Gen) (f : OstreamFmtP) (e : DirEntry) (v : W64) : Bytes × Nat :=
  let s := phasorScale g f e
  let th := f32To64 s.theta0
  let re := phRe v
  let im := phIm v
  -- rotated by -θ0
  let x := if bits th.toNat 0 63 = 0 then re else f64Add (f64Mul re (cos64 th)) (f64Mul im (sin64 th))
  let y := if bits th.toNat 0 63 = 0 then im else f64Sub (f64Mul im (cos64 th)) (f64Mul re (sin64 th))
  let pair (a b : Bytes × Nat) : Bytes × Nat := (a.1 ++ b.1, a.2 + b.2)
  if isInvalid v then (if f.phFmt.toNat < 2 then absent16 ++ absent16 else nan32 ++ nan32, 0)
  else match f.phFmt.toNat with
    | 0 => pair (int16Out (f64Div x s.k)) (int16Out (f64Div y s.k))
    | 1 =>
      let m := satRound 0 65535 (f64Div (phMag v) (f64Abs s.k))
      let turn := if bit s.k.toNat 63 then angle64 (f64Neg y) (f64Neg x) else angle64 y x
      pair (beBytes 2 m.1.toNat, b2n m.2) (int16Out (f64Mul turn (f64Int 10000)))
    | 2 => (f32Out re ++ f32Out im, 0)
    | _ => (f32Out (phMag v) ++ f32Out (f64Sub (angle64 im re) th), 0)
/-- FREQ, by FR_FMT. -/
def freqField (f : OstreamFmtP) (e : DirEntry) (v : W64) : Bytes × Nat :=
  if f.frFmt = 0 then (if isInvalid v then (absent16, 0) else int16Out (f64Mul (f64Sub v (fnomOf e)) (f64Int 1000)))
  else (if isInvalid v then nan32 else f32Out v, 0)
/-- DFREQ, by FR_FMT. -/
def rocofField (f : OstreamFmtP) (v : W64) : Bytes × Nat :=
  if f.frFmt = 0 then (if isInvalid v then (absent16, 0) else int16Out (f64Mul v (f64Int 100)))
  else (if isInvalid v then nan32 else f32Out v, 0)
/-- FREQ or DFREQ of a block without such a channel (R198). -/
def noFreq (f : OstreamFmtP) : Bytes := if f.frFmt = 0 then absent16 else nan32
/-- An analogue field, by AN_FMT. -/
def analogField (g : Gen) (f : OstreamFmtP) (e : DirEntry) (v : W64) : Bytes × Nat :=
  let s := scaleOf g e.scale
  if f.anFmt = 0 then (if isInvalid v then (absent16, 0) else int16Out (unscale s v))
  else if isInvalid v then (nan32, 0)
  else analog32 (if bit s.flags.toNat 0 then unscale s v else v)
/-- A digital word. -/
def digitalField (v : W64) : Bytes := beBytes 2 (if isInvalid v then 0 else v.toNat % 65536)

/-! ### C37.118.2 blocks and frames (R197 to R201) -/

/-- A channel's value in a contributor's blocks. -/
def valIn (c : Contrib) (chan : Nat) : PubVal :=
  (c.blocks.flatten.find? fun v => v.chan = chan).getD { chan := chan, word := invalidVal 0x15, subst := false, reason := 0x15 }
/-- STAT bits 13, [8:6] and [5:4] of a time-quality code (Tables 2-5 and 2-6). -/
def statOfQual (q : W32) : Nat :=
  b2n (bit q.toNat 7) * 2 ^ 13 + bits q.toNat 4 3 * 64 + bits q.toNat 8 2 * 16
/-- The STAT word of a block (R199). -/
def blockStatOf (r : Record) (c : Contrib) (b : OutBlock) : Nat :=
  let base := match b.stat with
    | some s => let w := (valIn c s).word; if isInvalid w then 0x4000 else w.toNat % 65536
    | none => statOfQual r.qual
  let rest := (b.chans.filter fun k => b.stat != some k).map (valIn c)
  let base := if rest.any PubVal.subst || (r.summary.amend != 0 && c.gained) then base ||| 0x0200 else base
  let bad := b.digitals.any (fun k => isInvalid (valIn c k).word) || (!rest.isEmpty && rest.all fun v => isInvalid v.word)
  if bits base 14 2 = 0 && bad then base + 0x4000 else base
/-- A list of fields joined, and their saturations. -/
def joinFields (l : List (Bytes × Nat)) : Bytes × Nat := ((l.map Prod.fst).flatten, (l.map Prod.snd).sum)
/-- A block's bytes and saturations. -/
def blockBytes (g : Gen) (f : OstreamFmtP) (r : Record) (c : Contrib) (b : OutBlock) : Bytes × Nat :=
  let w (k : Nat) := (valIn c k).word
  joinFields ([(beBytes 2 (blockStatOf r c b), 0)] ++
    b.phasors.map (fun k => phasorField g f (entryOf g k) (w k)) ++
    [match b.freq with | some k => freqField f (entryOf g k) (w k) | none => (noFreq f, 0)] ++
    [match b.rocof with | some k => rocofField f (w k) | none => (noFreq f, 0)] ++
    b.analogs.map (fun k => analogField g f (entryOf g k) (w k)) ++
    b.digitals.map fun k => (digitalField (w k), 0))
/-- round(ns × BASE / 10^9) with halves up. -/
def fracOf (base ns : Nat) : Nat := (2 * ns * base + secNs) / (2 * secNs)
/-- FRACSEC of a frame (R200). -/
def fracSec (d : Dev) (f : OstreamFmtP) (r : Record) : Nat :=
  let l := leapFlags (leapTable d) r.summary.sec.toNat
  b2n l.2.2 * 2 ^ 30 + b2n l.2.1 * 2 ^ 29 + b2n l.1 * 2 ^ 28 + bits r.qual.toNat 0 4 * 2 ^ 24 +
    fracOf f.timeBase.toNat (tickStartNs r.summary.tick)
/-- A data frame of shard `i` from its blocks' bytes. -/
def dataFrame (d : Dev) (f : OstreamFmtP) (r : Record) (i : Nat) (data : Bytes) : Bytes :=
  let body := beBytes 2 (0xAA00 + f.version.toNat) ++ beBytes 2 (16 + data.length) ++ beBytes 2 (f.idcodeBase.toNat + i) ++
    beBytes 4 (utcOf (leapTable d) r.summary.sec.toNat).1 ++ beBytes 4 (fracSec d f r) ++ data
  body ++ beBytes 2 (ccitt body)
/-- The contributor of a membership in a record. -/
def contribIn (r : Record) (m : Nat) : Contrib :=
  (r.contribs.find? fun c => c.memb = m).getD
    { memb := m, stream := 0, here := false, why := 0, gained := false, tests := false, landed := [], all := [], blocks := [] }
/-- The C37.118.2 frames of a record by shard, and their saturations. -/
def c37Frames (d : Dev) (g : Gen) (f : OstreamFmtP) (r : Record) : List Bytes × Nat :=
  let shards := (c37Shards g r.summary.ostream f).1.map fun s => joinFields (s.map fun b => blockBytes g f r (contribIn r b.memb) b)
  (shards.zipIdx.map fun e => dataFrame d f r e.2 e.1.1, (shards.map Prod.snd).sum)

/-! ### Sampled values (R204 to R206) -/

/-- 180 / π as binary64. -/
def perRadian : W64 := 0x404CA5DC1A63C1F8
/-- An element and its quality (R205): substituted is bit 10, validity invalid 01 (log entry 12). -/
def svElement (e : DirEntry) (v : PubVal) : Bytes :=
  let q := if isInvalid v.word then 1 else if v.subst then 0x400 else 0
  let body :=
    match formOf e with
    | 0 => if isInvalid v.word then List.replicate 8 0
      else f32Out (phMag v.word) ++ f32Out (f64Mul (angle64 (phIm v.word) (phRe v.word)) perRadian)
    | 1 => if isInvalid v.word then List.replicate 4 0 else f32Out v.word
    | _ => beBytes 4 (if isInvalid v.word then 0 else v.word.toNat % 65536)
  body ++ beBytes 4 q
/-- The sample field of a shard. -/
def svSample (g : Gen) (r : Record) (shard : List (Nat × Memb)) : Bytes :=
  (shard.map fun e => ((contribIn r e.1).blocks.flatten.map fun v => svElement (entryOf g v.chan) v).flatten).flatten
/-- The SPDU of shard `i` of `n` on a template's state (Table 7-4). -/
def svSpdu (d : Dev) (g : Gen) (f : OstreamFmtP) (r : Record) (sig : Nat) (t : TplRun) (i n : Nat) (sample : Bytes) : Bytes :=
  let rate := ((mfind g.os r.summary.ostream).map OstreamDef.rate).getD 1
  signSpdu d sig t.cur (Config.svBuild
    ([0xA2, 2, t.spdu.toNat] ++ keyFields sig t.cur ++ [0, (f.appidBase.toNat + i) % 65536, r.summary.tick / periodTicks rate,
      f.confRev.toNat, (utcOf (leapTable d) r.summary.sec.toNat).1, fracOf (2 ^ 24) (tickStartNs r.summary.tick), timeQuality d,
      bits r.qual.toNat 10 2, rate]) [svName f i n, sample])

/-! ### Templates (R207 to R212) -/

/-- A template's running state. -/
def tplOf (d : Dev) (t : Nat) : TplRun := mget {} d.pub.tpl t
/-- A template's running state replaced. -/
def setTpl (t : Nat) (x : TplRun) (d : Dev) : Dev := { d with pub := { d.pub with tpl := mput {} d.pub.tpl t x } }
/-- The tags of a template, outer first; the inner tag's TPID is 0x8100 (R83). -/
def tplTags (d : Dev) (t : TemplateP) : Bytes :=
  let one (x : TagP) (tpid : Nat) := tagBytes tpid (tciOf x.pcp.toNat x.vid.toNat)
  match t.tags.toNat with
  | 0 => []
  | 1 => one t.outer (tpidOf (portOf d t.port.toNat) t.outer.tpid.toNat)
  | _ => one t.outer (tpidOf (portOf d t.port.toNat) t.outer.tpid.toNat) ++ one t.inner 0x8100
/-- The destination of a template. -/
def tplDest (d : Dev) (t : TemplateP) : Dest :=
  { dstIp := t.dstIp, srcIp := t.srcIp, dstMac := t.dstMac, udpSrc := t.udpSrc.toNat, udpDst := t.udpDst.toNat, ttl := t.ttl.toNat,
    dscp := t.dscp.toNat, tags := tplTags d t }
/-- The templates of an O-stream in ascending index; those with AMEND_OUT for an amended issue (R212). -/
def tplsOf (g : Gen) (r : Record) : List (Nat × TemplateP) :=
  g.tpls.filter fun e => e.2.ostream.toNat = r.summary.ostream && (r.summary.amend = 0 || e.2.amendOut)
/-- A frame of template `t` that is not sent: its counter. -/
def tplDrop (t : Nat) (x : TemplateP) (cnt : Nat) (d : Dev) : Dev :=
  setTpl t { tplOf d t with dropped := (tplOf d t).dropped + 1 } (egressDrop x.port.toNat cnt d)
/-- A frame of template `t` enqueued: `cnt` is C37_FRAMES or SV_FRAMES (log entry 16). -/
def tplSend (r : Record) (held : Option (Nat × Nat)) (cnt t : Nat) (x : TemplateP) (bytes : Bytes) (d : Dev) : Dev :=
  let d := bump d 0x0A cnt
  let d := if r.summary.amend = 0 then d else bump d 0x0A 3
  let f : TxFrame := { kind := 1, source := t, bytes := udpFrame d x.port.toNat (tplDest d x) bytes, mark := none, held := held }
  sendItem x.port.toNat { prio := x.prio.toNat, template := some t, frame := f, amend := r.summary.amend != 0, proto := cnt - 1,
                          bornUs := optUs d - (nowNs d - r.commitNs) / 1000, maxAgeUs := some x.maxAge.toNat } d
/-- The frames of a C37.118.2 template. -/
def sendC37 (r : Record) (held : Option (Nat × Nat)) (frames : List Bytes) (d : Dev) (e : Nat × TemplateP) : Dev :=
  if (tplOf d e.1).on then frames.foldl (fun d b => tplSend r held 1 e.1 e.2 b d) d
  else frames.foldl (fun d _ => tplDrop e.1 e.2 10 d) d
/-- One SPDU of a sampled-value template. -/
def sendSv (g : Gen) (f : OstreamFmtP) (r : Record) (held : Option (Nat × Nat)) (e : Nat × TemplateP) (i n : Nat) (sample : Bytes)
    (d : Dev) : Dev :=
  let t := tplOf d e.1
  if !t.on then tplDrop e.1 e.2 10 d
  else if t.quar then tplDrop e.1 e.2 11 d
  else tplSend r held 2 e.1 e.2 (svSpdu d g f r e.2.sig.toNat t i n sample) (setTpl e.1 { t with spdu := t.spdu + 1 } d)
/-- Frames by template index, and within one template by shard (R210). -/
def sendAll (g : Gen) (f : OstreamFmtP) (r : Record) (held : Option (Nat × Nat)) (d : Dev) : Dev :=
  let tpls := tplsOf g r
  if f.proto = 0 then
    let x := c37Frames d g f r
    let sat := if tpls.any fun e => (tplOf d e.1).on then x.2 else 0
    tpls.foldl (sendC37 r held x.1) (if sat = 0 then d else setFlag 0x0A 6 (bumpN d 0x0A 4 sat))
  else
    let l := (svShards g r.summary.ostream f).1.map (svSample g r)
    tpls.foldl (fun d e => l.zipIdx.foldl (fun d s => sendSv g f r held e s.2 l.length s.1 d) d) d
/-- How many frames one template of an O-stream sends. -/
def shardCount (g : Gen) (o : Nat) (f : OstreamFmtP) : Nat :=
  if f.proto = 0 then (c37Shards g o f).1.length else (svShards g o f).1.length
/-- Blocks or contributors that no frame carries count at each commit (R201, R206). -/
def countSkips (g : Gen) (f : OstreamFmtP) (r : Record) (d : Dev) : Dev :=
  let n := if f.proto = 0 then (c37Shards g r.summary.ostream f).2 else (svShards g r.summary.ostream f).2
  if n = 0 || r.summary.amend != 0 then d else setFlag 0x0A 5 (bumpN d 0x0A 5 n)

/-! ### Host records (R225 to R227) -/

/-- The code of a commit cause (Table 6-3). -/
def causeNum (c : Cause) : Nat := match c with | .complete => 0 | .deadline => 1 | .forced => 2
/-- The aligned record for a ring. -/
def alignedRec (r : Record) : HostRec :=
  let s := r.summary
  let vals := recVals r
  { type := 2, prio := typePrio 2,
    head := padTo 56 (slotBytes s ++ [BitVec.ofNat 8 (b2n s.warming + s.amend % 16 * 2 + causeNum s.cause * 32), 0, 0, 0] ++
      ((List.range 6).map fun i => leBytes 4 (lget 0 s.absent i)).flatten ++ leBytes 4 vals.length ++
      leBytes 4 r.contribs.length ++ leBytes 4 (r.commitNs - tickInst s.sec s.tick)),
    more := cellsOf vals }
/-- The late-correction record of a membership: the values are never substituted. -/
def lateRec (s : Summary) (memb : Nat) (arrival : Stamp) (pos : Nat) (vals : List PubVal) : HostRec :=
  { type := 3, prio := typePrio 3,
    head := padTo 56 (slotBytes s ++ leBytes 4 memb ++ arrival.bytes ++ leBytes 4 vals.length ++ leBytes 4 pos),
    more := cellsOf vals }

/-! ### Output staging (R194, R195) -/

/-- Bytes of output staging. -/
def stagingSize : Nat := 2 ^ 31
/-- The records in output staging that some consumer still holds, with the bytes of each. -/
def stagingHeld (d : Dev) : NMap Nat :=
  let rings := (d.pub.feeders.map fun e => e.2.filterMap HostRec.held).flatten ++
    d.pub.rings.filterMap fun e => e.2.part.bind fun p => p.1.held
  let frames := (d.pub.egress.map fun e => e.2.filterMap fun x => x.frame.held).flatten ++
    (d.ports.map fun e => e.2.txBuf.filterMap TxFrame.held).flatten
  (rings ++ frames).foldl (fun m x => mset m x.1 x.2) []
/-- Bytes of output staging in use. -/
def stagingUsed (d : Dev) : Nat := ((stagingHeld d).map Prod.snd).sum
/-- Output staging has no room for even one header entry. -/
def stagingFull (d : Dev) : Bool := stagingSize < stagingUsed d + 64
/-- The ring of an O-stream's aligned records in a generation. -/
def ringFor (g : Gen) (o : Nat) : Nat := match mfind g.fmts o with | some f => f.ring.toNat | none => 255
/-- A record that finds output staging full: its frames and ring entries are dropped and counted. -/
def stagingDrop (g : Gen) (r : Record) (entries : Nat) (d : Dev) : Dev :=
  let ring := ringFor g r.summary.ostream
  let frames := match mfind g.fmts r.summary.ostream with
    | some f => if r.sends then shardCount g r.summary.ostream f * (tplsOf g r).length else 0
    | none => 0
  let lost := frames + if ring < 32 then entries else 0
  let d := tally tallyStaging 0 1 0 (setFlag 0x0A 0 (if lost = 0 then d else bumpN d 0x0A 6 lost))
  if ring < 32 then ringDrop ring 2 d else d
/-- The assembled record goes to output staging, to its ring and to its templates. A record of a unit that did not send at the
commit makes no frames (R477). -/
def publishRecord (r : Record) (d : Dev) : Dev :=
  let d := bump d 0x0A 0
  match genByNum d r.summary.gen with
  | none => d
  | some g =>
    let x := alignedRec r
    let size := 64 * (1 + x.more.length)
    let d := match mfind g.fmts r.summary.ostream with
      | some f => countSkips g f r d
      | none => d
    if stagingSize < stagingUsed d + size then stagingDrop g r (1 + x.more.length) d
    else
      let held := some (d.pub.recNum, size)
      let d := { d with pub := { d.pub with recNum := d.pub.recNum + 1 } }
      let d := feed (ringFor g r.summary.ostream) { x with held := held } d
      match mfind g.fmts r.summary.ostream with
      | some f => if r.sends then sendAll g f r held d else d
      | none => d

/-! ### The cross-check cell (R487) -/

/-- The record that a commit leaves for the cross-check. -/
def xrecordOf (r : Record) : XRecord :=
  { ostream := r.summary.ostream, sec := r.summary.sec, tick := r.summary.tick, amend := r.summary.amend,
    complete := decide (r.summary.cause = .complete), absent := r.summary.absent,
    crc := BitVec.ofNat 32 (crc32 (cellsOf (recVals r)).flatten) }
/-- Records kept for the cross-check: the newest 65,536 (log entry 17). -/
def keepXrecord (r : Record) (d : Dev) : Dev :=
  { d with hrd := { d.hrd with xrecords := (xrecordOf r :: d.hrd.xrecords).take 65536 } }
/-- Each unit of a pair keeps its record, and the active unit sends the digest cell. -/
def crossCheck (r : Record) (d : Dev) : Dev :=
  if !d.hrd.enabled then d
  else
    let d := keepXrecord r d
    let x := xrecordOf r
    if decide (d.hrd.role = .active) && decide (d.hrd.lane = .up) then
      emit (.xchkCell x.ostream x.sec x.tick x.amend x.complete x.absent x.crc) d
    else d

end Sys2Proof.Machine
end

