-- ==== Sys2Proof/Machine/Aln.lean ====
section
/-!
DEFINITION. The alignment engine (chapter 6): slots and their commits, arrivals, landing rings, the latency state and adaptive
deadlines, and what a generation switch does to them.
-/
namespace Sys2Proof.Machine

/-! ### State access -/

/-- An O-stream's running state. -/
def osRun (d : Dev) (o : Nat) : OsRun := mget {} d.aln.os o
/-- An O-stream's running state replaced. -/
def setOs (o : Nat) (x : OsRun) (d : Dev) : Dev := { d with aln := { d.aln with os := mput {} d.aln.os o x } }
/-- LAG and MISS of a membership. -/
def membRun (d : Dev) (m : Nat) : MembRun := mget {} d.aln.membs m
/-- LAG and MISS of a membership replaced. -/
def setMembRun (m : Nat) (x : MembRun) (d : Dev) : Dev := { d with aln := { d.aln with membs := mput {} d.aln.membs m x } }
/-- A stream's alignment state. -/
def streamAln (d : Dev) (k : Nat) : StreamAln := mget {} d.aln.streams k
/-- A stream's alignment state replaced. -/
def setStreamAln (k : Nat) (x : StreamAln) (d : Dev) : Dev := { d with aln := { d.aln with streams := mput {} d.aln.streams k x } }
/-- Alignment counter `i`. -/
def alnCnt (i : Nat) (d : Dev) : Dev := bump d 0x09 i

/-- The entries that a chain of NEXT visits from an index, at most so many. -/
def nextChain (g : Gen) : Nat → Nat → List Nat
  | 0, _ => []
  | n + 1, i => i :: (match mfind g.next i with | some j => nextChain g n j | none => [])
/-- The entries of a stream, as NEXT chains them from the lowest (R168). -/
def membChain (g : Gen) (stream : Nat) : List (Nat × Memb) :=
  match g.membs.find? fun e => e.2.stream = stream with
  | none => []
  | some e => (nextChain g g.membs.length e.1).filterMap fun i => (mfind g.membs i).map fun m => (i, m)
/-- The entries of a stream chained anew, in ascending index (log entry 33). -/
def relink (stream : Nat) (g : Gen) : Gen :=
  let l := (g.membs.filter fun e => e.2.stream = stream).map Prod.fst
  { g with next := (l.zip (l.drop 1)).foldl (fun m e => mset m e.1 e.2) (l.foldl mdel g.next) }
/-- A membership entry written, and the chains that it leaves and joins. -/
def putMemb (i : Nat) (m : Memb) (g : Gen) : Gen :=
  let left := (mfind g.membs i).map Memb.stream
  let g := { g with membs := mset g.membs i m, next := mdel g.next i }
  relink m.stream (match left with | some k => relink k g | none => g)
/-- A range of membership entries cleared, and the chains that they leave. -/
def clearMembs (first count : Nat) (g : Gen) : Gen :=
  let left := (g.membs.filter fun e => first ≤ e.1 && e.1 < first + count).map fun e => e.2.stream
  left.eraseDups.foldl (fun g k => relink k g) { g with membs := mclear g.membs first count, next := mclear g.next first count }
/-- The memberships of a stream that may contribute, in the order of their chain: entries within the range of the O-stream they name. -/
def membsFrom (g : Gen) (stream : Nat) : List (Nat × Memb) :=
  (membChain g stream).filter fun e => (contribOf g e.2).isSome &&
    (match mfind g.os e.2.ostream with
      | some x => x.firstMemb ≤ e.1 && e.1 < x.firstMemb + x.membCount
      | none => false)

/-! ### Latency (R180 to R182) -/

/-- The histogram bin of a latency in ns. -/
def latBin (l : Int) : Nat :=
  if l < 0 then 0
  else
    let q := l.toNat / 16384
    if q < 4 then q else min 63 (4 * (Nat.log2 q - 1) + bits q (Nat.log2 q - 2) 2)
/-- The lower edge of a bin in ns. -/
def binLower (b : Nat) : Nat := if b < 4 then b * 16384 else 2 ^ (b / 4 + 1 - 2) * (4 + b % 4) * 16384
/-- U_b, the upper edge of a bin in ns. -/
def binUpper (b : Nat) : Nat := if b = 63 then 2147483648 else binLower (b + 1)
/-- QTAIL of a stream: the largest over the O-streams it feeds. -/
def qtailOf (g : Gen) (stream : Nat) : Nat :=
  ((membsFrom g stream).map fun e => ((mfind g.os e.2.ostream).map OstreamDef.qtail).getD 0).foldl max 0
/-- LQ: the lowest bin above which the sum is within the tail allowance. -/
def quantile (bins : List Nat) (qtail : Nat) : Nat :=
  let allowed := bins.sum * qtail / 10000
  ((List.range 64).find? fun b => (bins.drop (b + 1)).sum ≤ allowed).getD 63
/-- A report updates its stream's latency state (R181). -/
def noteLatency (g : Gen) (k : Nat) (lat : Int) (d : Dev) : Dev :=
  let x := streamAln d k
  let b := latBin lat
  let full := 255 ≤ lget 0 x.bins b
  let bins := if full then x.bins.map (· / 2) else x.bins
  let bins := lset bins b (lget 0 bins b + 1)
  setStreamAln k { x with bins := bins, arrivals := min 512 (x.arrivals + 1), lq := quantile bins (qtailOf g k) }
    (if full then alnCnt 29 d else d)
/-- A membership's term in ns (R182). -/
def termNs (x : OstreamDef) (s : StreamAln) : Nat :=
  if s.arrivals < 512 then x.defWait * 1000 else binUpper s.lq + x.guardUs * 1000
/-- A wait in µs, to the nearest. -/
def toUs (ns : Nat) : Nat := (ns + 500) / 1000
/-- The memberships that an O-stream waits for: WAIT 1 and LAG 0, not in breach (R172). -/
def waiters (d : Dev) (g : Gen) (o : Nat) : List (Nat × Memb) :=
  (membsOf g o).filter fun e => e.2.wait && !(membRun d e.1).lag && (contribOf g e.2).isSome
/-- D_o in µs. -/
def waitOf (d : Dev) (g : Gen) (o : Nat) (x : OstreamDef) : Nat :=
  match waiters d g o with
  | [] => x.defWait
  | l => min x.maxWait (toUs ((l.map fun e => termNs x (streamAln d e.2.stream)).foldl max 0))
/-- The WARMING condition (R185). -/
def isWarm (d : Dev) (g : Gen) (o : Nat) : Bool := (waiters d g o).any fun e => (streamAln d e.2.stream).arrivals < 512

/-! ### Laggards (R183, R184) -/

/-- Logs a laggard change, for at most 64 memberships per TAI second. -/
def lagLog (m : Nat) (f : Dev → Dev) (d : Dev) : Dev :=
  let l := if d.aln.lagLog.1 = d.tod.sec then d.aln.lagLog.2 else []
  if l.contains m || l.length < 64 then f { d with aln := { d.aln with lagLog := (d.tod.sec, addTo m l) } } else d
where
  /-- A set with one more element. -/
  addTo (m : Nat) (l : List Nat) : List Nat := if l.contains m then l else m :: l
/-- LAG set: `by_` is 0 by term, 1 by MISS. -/
def lagOn (m term by_ : Nat) (d : Dev) : Dev :=
  lagLog m (logEv 0x0902 m term by_) (setFlag 0x09 5 (alnCnt 27 (setMembRun m { membRun d m with lag := true } d)))
/-- LAG cleared. -/
def lagOff (m term : Nat) (d : Dev) : Dev :=
  lagLog m (logEv 0x0903 m term 0) (alnCnt 28 (setMembRun m { membRun d m with lag := false } d))
/-- LAG of the memberships of an O-stream by their terms. -/
def judgeTerms (g : Gen) (o : Nat) (x : OstreamDef) (d : Dev) : Dev :=
  ((membsOf g o).filter fun e => (contribOf g e.2).isSome).foldl (fun d e =>
    let r := membRun d e.1
    let t := termNs x (streamAln d e.2.stream)
    if !r.lag && x.lagLimit * 1000 < t then lagOn e.1 (toUs t) 0 d
    else if r.lag && 8 * t ≤ 7 * (x.lagLimit * 1000) && r.miss = 0 then lagOff e.1 (toUs t) d
    else d) d
/-- The end of a sweep of an O-stream's range: laggard states, D_o and WARMING (R183, R185). -/
def finishSweep (o : Nat) (d : Dev) : Dev :=
  match mfind d.cur.os o with
  | none => d
  | some x =>
    let d := judgeTerms d.cur o x d
    let r := osRun d o
    let warm := isWarm d d.cur o
    let d := setOs o { r with wait := waitOf d d.cur o x, warming := warm } d
    if r.warming && !warm then logEv 0x0907 o 0 0 d else d
/-- WARMING set at once where its condition holds. -/
def noteWarm (g : Gen) (o : Nat) (d : Dev) : Dev := if isWarm d g o then setOs o { osRun d o with warming := true } d else d

/-! ### Slots -/

/-- A slot of an O-stream by its instant. -/
def slotOf (d : Dev) (o : Nat) (sec : W48) (tick : Nat) : Option Slot :=
  (osRun d o).slots.find? fun s => s.sec = sec && s.tick = tick
/-- A slot replaced, by its ordinal. -/
def putSlot (o : Nat) (s : Slot) (d : Dev) : Dev :=
  let r := osRun d o
  setOs o { r with slots := r.slots.map fun x => if x.ord = s.ord then s else x } d
/-- An instant lies after the newest opened slot of an O-stream; with none opened, after the wheel's tick (R178). -/
def isAhead (d : Dev) (o : Nat) (sec : W48) (tick : Nat) : Bool :=
  match (osRun d o).slots with
  | s :: _ => decide (tickOrd s.sec s.tick < tickOrd sec tick)
  | [] => decide (tickOrd d.clk.sec d.clk.tick < tickOrd sec tick)
/-- The slot of an instant is done with: committed, aged out, or never to be opened. -/
def slotPast (d : Dev) (o : Nat) (sec : W48) (tick : Nat) : Bool :=
  match slotOf d o sec tick with
  | some s => decide (s.state = .committed)
  | none => !isAhead d o sec tick
/-- Every slot that takes a stream's report at an instant is done with (R177 step 5). -/
def slotsPast (d : Dev) (gen : W16) (stream : Nat) (sec : W48) (tick : Nat) : Bool :=
  match genByNum d gen with
  | none => true
  | some g => (membsFrom g stream).all fun e => !osExpects g e.2 tick || slotPast d e.2.ostream sec tick
where
  /-- The O-stream has a slot at the tick, at which the membership is expected. -/
  osExpects (g : Gen) (m : Memb) (tick : Nat) : Bool :=
    match mfind g.os m.ostream with
    | some x => tick % periodTicks x.rate = 0 && expectedAt g m tick
    | none => false

/-! ### Records -/

/-- Why a contributor is absent from a slot (Table 6-4); none where its bit is set by a report. -/
def whyAbsent (g : Gen) (s : Slot) (e : Nat × Memb) : Option Nat :=
  if s.shed.contains e.1 then some 0x16
  else if s.bits.contains e.1 then none
  else if (contribOf g e.2).isNone then some 0x13
  else if !expectedAt g e.2 s.tick then some 0x12
  else if !e.2.wait then some 0x13
  else if s.counted.contains e.1 then some 0x10
  else some 0x11
/-- A channel's value in a slot: the invalid value of an absent contributor or of a position that yields none. -/
def slotVal (def_ : StreamDef) (why : Option Nat) (vals : List W64) (chan : Nat) : W64 :=
  match why with
  | some y => invalidVal y
  | none => let v := lget noValue vals (chan - def_.firstChan); if v = noValue then invalidVal 0x15 else v
/-- The value that a substitution policy puts in place of an invalid one, with its directory counter (R153, R154, Table 5-5). -/
def substitute (d : Dev) (g : Gen) (sec : W48) (tick chan : Nat) (w : W64) : PubVal × Option Nat :=
  let e := entryOf g chan
  let why := if isInvalid w then reasonOf w else 0
  let keep : PubVal := { chan := chan, word := w, subst := false, reason := why }
  let put (v : W64) : PubVal := { chan := chan, word := v, subst := true, reason := why }
  if !isInvalid w || e.subst = 0 || (why < 0x10 && !e.substSrc) then (keep, none)
  else match e.subst with
    | 1 =>
      if !holdUsable g chan then (keep, none)
      else match heldValue d g chan sec tick with
        | some v => (put v, some 2)
        | none => (keep, some 3)
    | 2 =>
      if e.type = 2 then (put (fnomOf e), some 4)
      else if e.type = 3 then (put 0, some 4)
      else if e.type = 4 then (put (f32To64 e.nominal), some 4)
      else (keep, none)
    | 3 => (put (scaleOf g e.scale).const, some 5)
    | 4 => (put 0, some 6)
    | _ => (keep, none)
/-- The output protocol of an O-stream is sampled values. -/
def isSvOut (g : Gen) (o : Nat) : Bool := match mfind g.fmts o with | some f => f.proto != 0 | none => false
/-- This commit is the first that is expected to take a stream's report at the slot's instant (R231, R303). -/
def firstTaker (d : Dev) (g : Gen) (o : Nat) (s : Slot) (e : Nat × Memb) : Bool :=
  expectedAt g e.2 s.tick &&
  (membsFrom g e.2.stream).all fun x =>
    if x.2.ostream = o then e.1 ≤ x.1 || !expectedAt g x.2 s.tick
    else !slotsPast.osExpects g x.2 s.tick || !slotPast d x.2.ostream s.sec s.tick
/-- A contributor of a slot's record, the directory counters of its substitutions, and the selected values (R148) that the commit
fills under Table 6-4 (R192). -/
def contribRec (d : Dev) (g : Gen) (o : Nat) (s : Slot) (gained : List Nat) (first : Bool) (e : Nat × Memb) :
    Contrib × List Nat × Nat :=
  let why := whyAbsent g s e
  let pair := mget ([], []) s.carried e.1
  let val (c : Nat) : W64 := match mfind g.streams e.2.stream with
    | some x => slotVal x why pair.2 c
    | none => invalidVal (why.getD 0x13)
  let subs := (contribChans g (isSvOut g o) e.1 e.2).map fun b => b.map fun c => substitute d g s.sec s.tick c (val c)
  let fills := (subs.flatten.filter fun v => selected g e.2 v.1.chan && (why.isSome || v.1.reason = 0x15)).length
  ({ memb := e.1, stream := e.2.stream, here := why.isNone, why := why.getD 0, gained := gained.contains e.1,
     tests := first && firstTaker d g o s e, landed := pair.1,
     all := (chansOf g e.2.stream).map fun c => (c, val c), blocks := subs.map fun b => b.map Prod.fst },
   subs.flatten.filterMap Prod.snd, fills)
/-- The contributors absent under each reason of Table 6-4, and those present with a position that yields no value. -/
def absentCounts (l : List Contrib) : List Nat :=
  let by_ (y : Nat) : Nat := (l.filter fun c => !c.here && c.why = y).length
  [by_ 0x10, by_ 0x11, by_ 0x12, by_ 0x13, (l.filter fun c => c.here && c.blocks.flatten.any fun v => v.reason = 0x15).length, by_ 0x16]
/-- The record of a slot, with the substitutions counted (Table 5-9); `first` on its first issue. -/
def buildRecord (g : Gen) (o : Nat) (s : Slot) (gained : List Nat) (first : Bool) (d : Dev) : Record × Nat × Dev :=
  let l := (membsOf g o).map (contribRec d g o s gained first)
  let cs := l.map fun x => x.1
  let subs := (l.map fun x => x.2.1).flatten
  let sum : Summary := { ostream := o, sec := s.sec, tick := s.tick, gen := s.gen, cause := s.cause, absent := absentCounts cs,
                         warming := (osRun d o).warming, amend := s.amend }
  let r : Record := { summary := sum, commitNs := nowNs d, sends := publishes d, qual := d.tod.qualCode, contribs := cs }
  let d := bumpN d 0x08 0 (recVals r).length
  let d := (rangeFrom 2 5).foldl (fun d i => let n := (subs.filter (· = i)).length; if n = 0 then d else bumpN d 0x08 i n) d
  (r, (l.map fun x => x.2.2).sum, d)

/-! ### Commits (R174 to R176, R184) -/

/-- A membership's pair is that of the current generation too, so that its LAG and MISS are its own (R189). -/
def samePair (d : Dev) (gen : W16) (e : Nat × Memb) : Bool :=
  gen = d.clk.gen || (match mfind d.cur.membs e.1 with
    | some x => x.ostream = e.2.ostream && x.stream = e.2.stream
    | none => false)
/-- MISS after a commit (R184). -/
def missStep (g : Gen) (s : Slot) (x : OstreamDef) (d : Dev) (e : Nat × Memb) : Dev :=
  if !e.2.wait || !expectedAt g e.2 s.tick || !samePair d s.gen e then d
  else
    let r := membRun d e.1
    if s.bits.contains e.1 then setMembRun e.1 { r with miss := 0 } d
    else if s.counted.contains e.1 then
      let n := min 63 (r.miss + 1)
      let d := setMembRun e.1 { r with miss := n } d
      if x.missLimit ≤ n && !r.lag then lagOn e.1 (toUs (termNs x (streamAln d e.2.stream))) 1 d else d
    else d
/-- The history blocks of a commit (R231). -/
def commitHistory (g : Gen) (r : Record) (d : Dev) : Dev :=
  (r.contribs.filter Contrib.tests).foldl (fun d c =>
    match mfind g.streams c.stream with
    | some s => histWrite g r.summary.gen c.stream r.summary.sec r.summary.tick (landedAt s c) d
    | none => d) d
/-- The record goes to the assembly lanes (R191). -/
def toAssembly (r : Record) (d : Dev) : Dev := { d with aln := { d.aln with asmQueue := d.aln.asmQueue ++ [r] } }
/-- A slot commits with a cause. -/
def commitSlot (o : Nat) (s : Slot) (cause : Cause) (d : Dev) : Dev :=
  match (genByNum d s.gen).bind fun g => (mfind g.os o).map fun x => (g, x) with
  | none => putSlot o { s with state := .committed, cause := cause, carried := [] } d
  | some (g, x) =>
    let s := { s with state := .committed, cause := cause }
    let b := buildRecord g o s [] true d
    let d := putSlot o (if x.amend then s else { s with carried := [] }) b.2.2
    let d := alnCnt 21 (alnCnt (18 + causeNum cause) (bumpN d 0x09 23 b.2.1))
    let d := (membsOf g o).foldl (missStep g s x) d
    let d := setOs o { osRun d o with last := some b.1.summary } d
    toAssembly b.1 (gzCommit b.1 (notifyUnits g b.1 (commitHistory g b.1 d)))
/-- Everything a slot waited for is in. -/
def slotFull (s : Slot) : Bool := s.waited && s.remain = 0
/-- The counter has reached a slot's deadline. -/
def slotDue (d : Dev) (s : Slot) : Bool := tickInst s.sec s.tick + s.deadline * 1000 ≤ nowNs d
/-- The slot before one has committed, or is no longer kept. -/
def predDone (d : Dev) (o : Nat) (s : Slot) : Bool :=
  (osRun d o).slots.all fun x => x.ord + 1 != s.ord || decide (x.state = .committed)
/-- A slot that is full or due commits, or waits for its predecessor and counts in ORDER_WAIT (R174). -/
def tryCommit (o : Nat) (s : Slot) (d : Dev) : Dev :=
  if !decide (s.state = .opened) || !(slotFull s || slotDue d s) then d
  else if predDone d o s then commitSlot o s (if slotFull s then .complete else .deadline) d
  else if s.orderWait then d
  else alnCnt 22 (putSlot o { s with orderWait := true } d)
/-- When a slot's DEADLINE falls, in ns of the counter. -/
def Slot.dueAt (s : Slot) : Nat := tickInst s.sec s.tick + s.deadline * 1000
/-- The open slots of O-streams below one whose DEADLINE falls at an instant, ascending. -/
def dueBelow (d : Dev) (os t : Nat) : List (Nat × Slot) :=
  (d.aln.os.filter fun e => e.1 < os).filterMap fun e =>
    (e.2.slots.find? fun s => decide (s.state = .opened) && s.dueAt = t).map fun s => (e.1, s)
/-- SLOT_DEADLINE (R174): the counter reaches the instant plus DEADLINE. Slots of lower O-streams that are due in the same cycle commit
before it, so that the lowest tests (R303). -/
def execSlotDeadline (os : Fin 4096) (sec : W48) (tick : Fin 3600) : State → Host.Outcome State Fault Refusal := runCore fun d =>
  match slotOf d os sec tick with
  | some s =>
    if decide (s.state = .opened) then
      let d := bringTo d s.dueAt
      tryCommit os s ((dueBelow d os s.dueAt).foldl (fun d e => tryCommit e.1 e.2 d) d)
    else d
  | none => d
/-- ORDER_WAIT_COMMIT (R174): a slot that waited for its predecessor commits in the cycle after it. -/
def execOrderWaitCommit (os : Fin 4096) (sec : W48) (tick : Fin 3600) : State → Host.Outcome State Fault Refusal := runCore fun d =>
  match slotOf d os sec tick with
  | some s => if s.orderWait then tryCommit os s d else d
  | none => d
/-- ASSEMBLY_START (R191): a lane assembles the oldest commit; an amended issue goes to publishing and host delivery only (R187). -/
def execAssemblyStart : State → Host.Outcome State Fault Refusal := runCore fun d =>
  match d.aln.asmQueue with
  | [] => d
  | r :: rest =>
    let d := { d with aln := { d.aln with asmQueue := rest } }
    if r.summary.amend = 0 then
      let d := testRecord false r d
      let d := match genByNum d r.summary.gen with
        | some g => capWide g r d
        | none => d
      crossCheck r (publishRecord r d)
    else crossCheck r (publishRecord r d)

/-- What arrives at a membership: the report as it landed, the values the slot takes, and whether it is a shed notice. -/
structure Arrival where
  landed  : List W64
  vals    : List W64
  shed    : Bool
  arrival : Stamp
  deriving DecidableEq, Repr

/-! ### Late values and amendment (R186, R187) -/

/-- W_m of an O-stream with AMEND set, in ns. -/
def amendWindow (x : OstreamDef) : Nat := min (2 * secNs) (255 * secNs / x.rate)
/-- An amendment of a committed slot, or its refusal. -/
def amendSlot (g : Gen) (o : Nat) (x : OstreamDef) (s : Slot) (m : Nat) (arrival : Stamp) (d : Dev) : Dev :=
  if !x.amend then d
  else if 15 ≤ s.amend || tickInst s.sec s.tick + amendWindow x < arrival.toNs then setFlag 0x09 6 (alnCnt 26 d)
  else
    let s := { s with amend := s.amend + 1 }
    let b := buildRecord g o s [m] false (putSlot o s d)
    toAssembly b.1 (alnCnt 25 b.2.2)
/-- The late-correction record of a membership. -/
def lateRecord (g : Gen) (o : Nat) (s : Slot) (e : Nat × Memb) (a : Arrival) (d : Dev) : Dev :=
  match mfind g.streams e.2.stream with
  | none => d
  | some x =>
    let sv := isSvOut g o
    let before := ((membsOf g o).filter fun y => y.1 < e.1).map fun y => ((contribChans g sv y.1 y.2).flatten).length
    let out := ((contribChans g sv e.1 e.2).flatten).map fun c =>
      let w := slotVal x (if a.shed then some 0x16 else none) a.vals c
      ({ chan := c, word := w, subst := false, reason := if isInvalid w then reasonOf w else 0 } : PubVal)
    let sum : Summary := { ostream := o, sec := s.sec, tick := s.tick, gen := s.gen, cause := s.cause, absent := [], warming := false,
                           amend := s.amend }
    let ring := match mfind g.fmts o with | some f => f.lateRing.toNat | none => 255
    feed ring (lateRec sum e.1 a.arrival before.sum out) (alnCnt 24 d)

/-! ### Arrivals (R173, R178) -/

/-- A membership's bit set in a slot with what arrived. -/
def markBit (m : Nat) (a : Arrival) (s : Slot) : Slot :=
  { s with bits := m :: s.bits, shed := if a.shed then m :: s.shed else s.shed, carried := mset s.carried m (a.landed, a.vals) }
/-- An arrival in an OPEN slot; `early` where it counted on arrival and is applied at the opening. -/
def arriveOpen (o : Nat) (e : Nat × Memb) (a : Arrival) (early : Bool) (s : Slot) (d : Dev) : Dev :=
  let s := markBit e.1 a s
  let s := { s with remain := if s.counted.contains e.1 then s.remain - 1 else s.remain }
  if early then putSlot o s d
  else tryCommit o s (putSlot o s (alnCnt (if s.laggards.contains e.1 then 12 else 11) d))
/-- An arrival at a membership whose slot is kept: duplicate, on time or late. The flag says that it was late. -/
def arriveAt (g : Gen) (o : Nat) (e : Nat × Memb) (a : Arrival) (early : Bool) (s : Slot) (d : Dev) : Dev × Bool :=
  if s.bits.contains e.1 then (alnCnt 14 d, false)
  else if decide (s.state = .opened) then (arriveOpen o e a early s d, false)
  else
    let x := mfind g.os o
    let s1 := markBit e.1 a s
    let s1 := if x.any OstreamDef.amend then s1 else { s1 with carried := [] }
    let d := lateRecord g o s e a (alnCnt 13 (putSlot o s1 d))
    (match x with
      | some y => amendSlot g o y s1 e.1 a.arrival d
      | none => d, true)
/-- One membership of a report: its case of Table 6-5. The flag says that it was late. -/
def applyMemb (g : Gen) (gen : W16) (sec : W48) (tick : Nat) (e : Nat × Memb) (a : Arrival) (d : Dev) : Dev × Bool :=
  let o := e.2.ostream
  match slotOf d o sec tick with
  | some s => arriveAt g o e a false s d
  | none =>
    if isAhead d o sec tick then
      if 65536 ≤ d.aln.early.length then (tally tallyEarly 0 1 e.1 (setFlag 0x09 4 (alnCnt 17 d)), false)
      else
        let y : Early := { memb := e.1, stream := e.2.stream, ostream := o, sec := sec, tick := tick, gen := gen, shed := a.shed,
                           carried := (a.landed, a.vals) }
        (alnCnt 16 { d with aln := { d.aln with early := d.aln.early ++ [y] } }, false)
    else (alnCnt 15 d, false)

/-! ### Opening slots (R173) -/

/-- An early entry is applied at the opening of its slot. -/
def applyEarly (g : Gen) (o : Nat) (sec : W48) (tick : Nat) (d : Dev) (y : Early) : Dev :=
  match mfind g.membs y.memb, slotOf d o sec tick with
  | some m, some s =>
    if m.ostream = o && m.stream = y.stream && expectedAt g m tick then
      (arriveAt g o (y.memb, m) { landed := y.carried.1, vals := y.carried.2, shed := y.shed, arrival := nowStamp d } true s d).1
    else d
  | _, _ => d
/-- A slot position opens. -/
def openSlot (gen : W16) (g : Gen) (o : Nat) (sec : W48) (tick : Nat) (d : Dev) : Dev :=
  let r := osRun d o
  let k := if r.opened then r.newest + 1 else 0
  let d := match r.slots.find? fun s => s.ord + 256 = k && decide (s.state = .opened) with
    | some s => logEv 0x0906 o (k % 256) 0 (setFlag 0x09 7 (commitSlot o s .forced d))
    | none => d
  let r := osRun d o
  let exp := (membsOf g o).filter fun e => expectedAt g e.2 tick && e.2.wait
  let counted := (exp.filter fun e => !(membRun d e.1).lag).map Prod.fst
  let s : Slot := { ord := k, sec := sec, tick := tick, gen := gen, deadline := r.wait, state := .opened, waited := !counted.isEmpty,
                    remain := counted.length, counted := counted,
                    laggards := (exp.filter fun e => (membRun d e.1).lag).map Prod.fst }
  let d := setOs o { r with newest := k, opened := true, slots := (s :: r.slots).take 256 } d
  let mine (y : Early) : Bool := y.ostream = o && tickOrd y.sec y.tick ≤ tickOrd sec tick
  let due := d.aln.early.filter fun y => mine y && y.sec = sec && y.tick = tick
  let d := due.foldl (applyEarly g o sec tick) { d with aln := { d.aln with early := d.aln.early.filter fun y => !mine y } }
  match slotOf d o sec tick with
  | some s => tryCommit o s d
  | none => d
/-- Opens the slots of a tick: those of the current generation's O-streams that have an instant there. -/
def openSlots (sec : W48) (tick : Nat) (d : Dev) : Dev :=
  d.cur.os.foldl (fun d e =>
    if tick % periodTicks e.2.rate = 0 then openSlot d.clk.gen d.cur e.1 sec tick d else d) d
/-- Every slot of a generation has committed (R24). -/
def slotsDone (d : Dev) (gen : W16) : Bool :=
  d.aln.os.all fun e => e.2.slots.all fun s => s.gen != gen || decide (s.state = .committed)

/-! ### Reports (R177 to R179) -/

/-- The landing ring that reports of a generation use: the stream's ring where the generation is current or its plan is the
current one's, else the other one (R172). -/
def mainRing (d : Dev) (gen : W16) (g : Gen) (k : Nat) : Bool :=
  gen = d.clk.gen || (match mfind g.land k, mfind d.cur.land k with
    | some a, some b => a.depth = b.depth && a.bpr = b.bpr
    | _, _ => false)
/-- A stream's landing ring. -/
def ringAln (main : Bool) (x : StreamAln) : NMap Landed := if main then x.ring else x.oldRing
/-- Outcomes of step 5 of the report checks. -/
inductive Landing where
  | none | landed | dup | busy | carried | unplanned
  deriving DecidableEq, Repr
/-- The ordinal of an instant on a stream's grid. -/
def gridOrd (rate : Nat) (sec : W48) (tick : Nat) : Nat := tickOrd sec tick / periodTicks rate
/-- Step 5: what the landing position of the instant holds. -/
def landing (d : Dev) (gen : W16) (g : Gen) (k rate : Nat) (sec : W48) (tick : Nat) : Landing :=
  if (membsFrom g k).isEmpty then .none
  else match mfind g.land k with
    | none => .unplanned
    | some p =>
      match mfind (ringAln (mainRing d gen g k) (streamAln d k)) (gridOrd rate sec tick % max 1 p.depth) with
      | none => .landed
      | some y =>
        if y.sec = sec && y.tick = tick then .dup
        else if tickOrd sec tick < tickOrd y.sec y.tick then .carried
        else if slotsPast d y.gen k y.sec y.tick then .landed
        else .busy
/-- The report lands. -/
def land (gen : W16) (g : Gen) (k rate : Nat) (sec : W48) (tick : Nat) (vals : List W64) (d : Dev) : Dev :=
  match mfind g.land k with
  | none => d
  | some p =>
    let x := streamAln d k
    let y : Landed := { sec := sec, tick := tick, gen := gen, values := vals }
    let main := mainRing d gen g k
    let ring := mset (ringAln main x) (gridOrd rate sec tick % max 1 p.depth) y
    bumpN (setStreamAln k (if main then { x with ring := ring } else { x with oldRing := ring }) d) 0x09 10
      (vals.filter (· != noValue)).length
/-- A restart of a stream (R179). -/
def restartStream (g : Gen) (k : Nat) (byRun : Bool) (d : Dev) : Dev :=
  let d := setStreamAln k { streamAln d k with bins := List.replicate 64 0, arrivals := 0, lq := 0 } d
  let ms := (d.cur.membs.filter fun e => e.2.stream = k).map Prod.fst
  let d := ms.foldl (fun d m => setMembRun m {} (if (membRun d m).lag then alnCnt 28 d else d)) d
  let d := logEv 0x0904 k (b2n byRun) 0 (alnCnt 30 d)
  ((membsFrom g k).map fun e => e.2.ostream).foldl (fun d o => noteWarm g o d) d
/-- The restart check of a passing report. -/
def checkRestart (g : Gen) (k : Nat) (arrival : Stamp) (d : Dev) : Dev :=
  let x := streamAln d k
  let gap := x.lastPass.any fun t => t.toFine + d.aln.restartGap * secNs * 65536 ≤ arrival.toFine
  let d := if gap || x.returned then restartStream g k (!gap) d else d
  setStreamAln k { streamAln d k with lastPass := some arrival, returned := false } d
/-- The leap bits of a report against the table (R188). -/
def checkLeap (r : Report) (sec : W48) (d : Dev) : Dev :=
  let want := leapFlags (leapTable d) sec.toNat
  let code (b : Bool × Bool × Bool) : Nat := b2n b.1 + 2 * b2n b.2.1 + 4 * b2n b.2.2
  match r.leap with
  | none => d
  | some b =>
    if b = want then d
    else
      let d := setFlag 0x09 2 (alnCnt 31 d)
      let x := streamOf d r.stream
      if x.leapLogAt.all fun t => 3600000 ≤ optSince d t then
        logEv 0x0905 r.stream (code b) (code want) (setStream r.stream { x with leapLogAt := some d.log.opt } d)
      else d
/-- The mean of valid values by canonical form, or the coincident value (R169). -/
def meanOf (e : DirEntry) (own : W64) (l : List W64) : W64 :=
  let v := l.filter fun w => !isInvalid w
  let n := f64Int v.length
  if v.isEmpty || 1 < formOf e then own
  else if formOf e = 0 then phasor (f64Div (f64Sum (v.map phRe)) n) (f64Div (f64Sum (v.map phIm)) n)
  else f64Div (f64Sum v) n
/-- The values a slot takes from a report for a membership: the mean over the ring where DECIMATE is set for a higher-rate
contributor. -/
def decimate (d : Dev) (gen : W16) (g : Gen) (s : StreamDef) (m : Memb) (sec : W48) (tick : Nat) (vals : List W64) : List W64 :=
  match mfind g.os m.ostream, mfind g.land m.stream with
  | some x, some p =>
    let pc := periodTicks s.rate
    let po := periodTicks x.rate
    if !m.decimate || po ≤ pc then vals
    else
      let ring := ringAln (mainRing d gen g m.stream) (streamAln d m.stream)
      let at_ (j : Nat) : Option (List W64) :=
        let k := tickOrd sec tick - j * pc
        (mfind ring (k / pc % max 1 p.depth)).bind fun y => if tickOrd y.sec y.tick = k then some y.values else none
      let all := vals :: (rangeFrom 1 (po / pc - 1)).filterMap at_
      vals.zipIdx.map fun v =>
        if v.1 = noValue then v.1 else meanOf (entryOf g (s.firstChan + v.2)) v.1 (all.filterMap fun l => l[v.2]?)
  | _, _ => vals
/-- A report is applied to the memberships expected at its instant; the history takes its values at its first late one (R186,
R232). -/
def applyReport (gen : W16) (g : Gen) (s : StreamDef) (r : Report) (sec : W48) (tick : Nat) (d : Dev) : Dev :=
  let ms := (membsFrom g r.stream).filter fun e => slotsPast.osExpects g e.2 tick
  (ms.foldl (fun (acc : Dev × Bool) e =>
    let vals := decimate acc.1 gen g s e.2 sec tick r.values
    let x := applyMemb g gen sec tick e { landed := r.values, vals := vals, shed := r.shed, arrival := r.arrival } acc.1
    if x.2 && !acc.2 && !r.shed then
      (histLate g gen r.stream sec tick (slotVal s none r.values) x.1, true)
    else (x.1, acc.2)) (d, false)).1
/-- The checks of R177 from step 2 on, for a report at an instant of its stream's grid. -/
def checkReport (r : Report) (slot : Option (W16 × Gen × StreamDef)) (sec : W48) (tick : Nat) (d : Dev) : Dev :=
  let k := r.stream
  if r.gone then alnCnt 3 d
  else if r.arrival.toNs + 2 * secNs < tickInst sec tick then tally tallyFuture 0 1 k (setFlag 0x09 1 (alnCnt 4 d))
  else match slot with
    | none => alnCnt 5 d
    | some (gen, g, s) =>
      let x := landing d gen g k s.rate sec tick
      match x with
      | .unplanned => setFlag 0x09 8 (alnCnt 7 d)
      | .dup => alnCnt 6 d
      | .busy => setFlag 0x09 3 (alnCnt 7 d)
      | _ =>
        let d := if decide (x = .landed) then land gen g k s.rate sec tick r.values d else d
        let d := checkRestart g k r.arrival (alnCnt 1 d)
        let d := noteLatency g k (Int.fdiv ((r.arrival.toFine : Int) - (tickInst sec tick * 65536 : Nat)) 65536) d
        applyReport gen g s r sec tick (checkLeap r sec d)
/-- The generation of a report's slot, and its stream's definition there: the one that ingest found, while it lives (R177 step 4); a report
of a switch that was withdrawn since belongs where its time lies now. -/
def slotNow (d : Dev) (r : Report) : Option (W16 × Gen × StreamDef) :=
  match genByNum d r.gen with
  | some g => (mfind g.streams r.stream).map fun s => (r.gen, g, s)
  | none =>
    if r.gen = d.clk.gen + 1 then (reportSlot d r.stream r.sec r.ns.toNat).map fun x => (x.span.num, x.span.gen, x.defn) else none
/-- A report from the head of the alignment input queue (R177). A shed notice takes its place at the memberships without the
checks (R175). -/
def takeReport (r : Report) (d : Dev) : Dev :=
  let slot := slotNow d r
  let s := (slot.map fun x => x.2.2).getD r.defn
  if r.shed then
    match genByNum d r.gen with
    | some g => applyReport r.gen g s r r.sec (tickOfNs r.ns.toNat) d
    | none => d
  else
    let d := alnCnt 0 d
    let p := gridOf s.rate r.sec r.ns.toNat
    if !p.2.2 then checkReport r slot p.1 p.2.1 d
    else if s.snap then checkReport r slot p.1 p.2.1 (alnCnt 8 d)
    else setFlag 0x09 0 (alnCnt 2 d)
/-- REPORT_CHECK: the oldest report of the alignment input queue; back-pressure is released once the queue has drained to half its
threshold (R136). -/
def execReportCheck : State → Host.Outcome State Fault Refusal := runCore fun d =>
  match d.ing.alnQ with
  | [] => d
  | r :: rest =>
    let d := { d with ing := { d.ing with alnQ := rest } }
    let d := if d.ing.alnBp && alnFill d ≤ 8192 then { d with ing := { d.ing with alnBp := false } } else d
    takeReport r d
/-- LATENCY_SWEEP (R183): the sweep finishes an O-stream's range. -/
def execLatencySweep (os : Fin 4096) : State → Host.Outcome State Fault Refusal := runCore fun d =>
  finishSweep os { d with aln := { d.aln with sweep := os } }

/-! ### Generation switch and retirement (R172, R178, R183, R185, R189) -/

/-- The new generation changes an O-stream: its parameters, its memberships, or the streams they name. -/
def osChanged (old new : Gen) (o : Nat) : Bool :=
  !decide (mfind old.os o = mfind new.os o) || !decide (membsOf old o = membsOf new o) ||
  (membsOf new o).any fun e => !decide ((mfind old.streams e.2.stream).map StreamDef.rate = (mfind new.streams e.2.stream).map StreamDef.rate)
/-- Landing rings whose plan changes start empty; the old one stays until retirement. -/
def swapRings (old : Gen) (d : Dev) : Dev :=
  let plan (g : Gen) (k : Nat) := (mfind g.land k).map fun p => (p.depth, p.bpr)
  let step (m : NMap StreamAln) (e : Nat × StreamAln) : NMap StreamAln :=
    if plan old e.1 = plan d.cur e.1 then m else mput {} m e.1 { e.2 with oldRing := e.2.ring, ring := [] }
  { d with aln := { d.aln with streams := d.aln.streams.foldl step d.aln.streams } }
/-- A stream of a generation feeds an O-stream and has no planned ring (R172). -/
def planMissing (g : Gen) : Bool := g.streams.any fun e => (mfind g.land e.1).isNone && !(membsFrom g e.1).isEmpty
/-- The alignment engine at a switch tick; `old` is the generation before it. -/
def alnSwitch (old : Gen) (d : Dev) : Dev :=
  let d := swapRings old (if planMissing d.cur then setFlag 0x09 8 d else d)
  -- a stream new in the generation starts from no latency history (Table 1-5)
  let fresh := (d.cur.streams.filter fun e => (mfind old.streams e.1).isNone).map Prod.fst
  let d := fresh.foldl (fun d k => setStreamAln k { streamAln d k with
    bins := List.replicate 64 0, arrivals := 0, lq := 0, lastPass := none, returned := false } d) d
  -- a membership index whose pair changes starts with LAG 0 and MISS 0
  let pair (g : Gen) (m : Nat) := (mfind g.membs m).map fun x => (x.ostream, x.stream)
  let d := { d with aln := { d.aln with membs := d.aln.membs.filter fun e => decide (pair old e.1 = pair d.cur e.1) } }
  d.cur.os.foldl (fun d e =>
    if osChanged old d.cur e.1 then
      let d := judgeTerms d.cur e.1 e.2 d
      noteWarm d.cur e.1 (setOs e.1 { osRun d e.1 with wait := waitOf d d.cur e.1 e.2 } d)
    else d) d
/-- What the alignment engine frees when a generation retires. -/
def alnRetire (gen : W16) (d : Dev) : Dev :=
  { d with aln := { d.aln with
    streams := d.aln.streams.foldl (fun m e => mput {} m e.1 { e.2 with oldRing := [] }) d.aln.streams
    early := d.aln.early.filter fun y => y.gen != gen } }
/-- What a withdrawn switch leaves behind: reports landed for the staged generation under a plan of its own. -/
def alnWithdraw (d : Dev) : Dev :=
  { d with aln := { d.aln with streams := d.aln.streams.foldl (fun m e => mput {} m e.1 { e.2 with oldRing := [] }) d.aln.streams } }

end Sys2Proof.Machine
end

