-- ==== Sys2Proof/Machine/AlnCmd.lean ====
section
/-!
DEFINITION. The commands and registers of the ALN block (Table 6-12, R167 to R172, R192).
-/
namespace Sys2Proof.Machine

/-- Memberships of the table. -/
def membMax : Nat := 1048576

/-- Parameters of Table 6-1 outside their ranges, or a MAX_WAIT beyond 255 periods (R28, R167). -/
def ostreamBad (p : OstreamDefP) : Bool :=
  let rate := p.rate.toNat
  4096 ≤ p.ostream.toNat || !rates.contains rate || membMax ≤ p.firstMemb.toNat || p.membCount = 0 || membMax ≤ p.membCount.toNat ||
  membMax < p.firstMemb.toNat + p.membCount.toNat || 2000000 < p.maxWait.toNat || 255000000 < p.maxWait.toNat * rate ||
  p.maxWait.toNat < p.lagLimit.toNat || 1000 < p.qtail.toNat || p.lagLimit.toNat < p.defWait.toNat || p.missLimit = 0 ||
  63 < p.missLimit.toNat || 1 < p.amend.toNat
/-- The definition that the parameters give. -/
def ostreamOf (p : OstreamDefP) : OstreamDef :=
  { rate := p.rate.toNat, firstMemb := p.firstMemb.toNat, membCount := p.membCount.toNat, maxWait := p.maxWait.toNat,
    lagLimit := p.lagLimit.toNat, guardUs := p.guardUs.toNat, qtail := p.qtail.toNat, defWait := p.defWait.toNat,
    missLimit := p.missLimit.toNat, amend := p.amend = 1 }
/-- ALN_OSTREAM_DEF (R167). -/
def execAlnOstreamDef (h : Hdr) (p : OstreamDefP) : State → Host.Outcome State Fault Refusal :=
  cmdPlain h 0x0501 p.bytes (stageWith (ostreamBad p) [] [keyOstream p.ostream.toNat] fun g =>
    { g with os := mset g.os p.ostream.toNat (ostreamOf p) })
/-- ALN_OSTREAM_REMOVE: removing an O-stream that is not defined changes nothing (R554). -/
def execAlnOstreamRemove (h : Hdr) (ostream : W16) : State → Host.Outcome State Fault Refusal :=
  cmdPlain h 0x0502 (pk ostream) fun d =>
    let o := ostream.toNat
    stageWith (4096 ≤ o) [] (if (mfind d.staged.os o).isSome then [keyOstream o] else []) (fun g => { g with os := mdel g.os o }) d
/-- A membership whose O-stream does not take it, or whose stream's period does not fit (R168, R169). -/
def memberBad (g : Gen) (p : MemberP) : Bool :=
  let i := p.index.toNat
  membMax ≤ i || streamMax ≤ p.stream.toNat || 15 < p.sel.toNat || 1 < p.wait.toNat || 1 < p.decimate.toNat ||
  (match mfind g.os p.ostream.toNat with
    | none => true
    | some x => i < x.firstMemb || x.firstMemb + x.membCount ≤ i ||
        (match mfind g.streams p.stream.toNat with
          | some s => !ratesFit s.rate x.rate
          | none => false))
/-- ALN_MEMBER_SET. -/
def execAlnMemberSet (h : Hdr) (p : MemberP) : State → Host.Outcome State Fault Refusal :=
  cmdPlain h 0x0503 p.bytes fun d =>
    let m : Memb := { ostream := p.ostream.toNat, stream := p.stream.toNat, sel := p.sel.toNat, wait := p.wait = 1,
                      decimate := p.decimate = 1 }
    stageWith (memberBad d.staged p) [] [keyMemb p.index.toNat] (putMemb p.index.toNat m) d
/-- ALN_MEMBER_CLEAR: each membership written counts in the change set (R20). -/
def execAlnMemberClear (h : Hdr) (first count : BitVec 24) : State → Host.Outcome State Fault Refusal :=
  cmdPlain h 0x0504 (pk first ++ pk count) fun d =>
    let f := first.toNat
    let n := count.toNat
    let keys := ((d.staged.membs.filter fun e => f ≤ e.1 && e.1 < f + n).map Prod.fst).map keyMemb
    stageWith (rangeBad membMax f n) [] keys (clearMembs f n) d
/-- ALN_PARAMS (R179). -/
def execAlnParams (h : Hdr) (restartGap : Byte) : State → Host.Outcome State Fault Refusal :=
  cmdPlain h 0x0505 [restartGap] fun d =>
    checks [(restartGap = 0, .badParam)] (fun d => okay { d with aln := { d.aln with restartGap := restartGap.toNat } }) d
/-- Memberships of an O-stream of the current generation with LAG set. -/
def laggards (d : Dev) (o : Nat) : Nat := ((membsOf d.cur o).filter fun e => (membRun d e.1).lag).length
/-- A commit summary in a reply (log entry 11). -/
def summaryBytes (s : Summary) : Bytes :=
  slotBytes s ++ [BitVec.ofNat 8 (causeNum s.cause), BitVec.ofNat 8 (b2n s.warming), BitVec.ofNat 8 s.amend] ++
  ((List.range 6).map fun i => leBytes 4 (lget 0 s.absent i)).flatten
/-- ALN_OSTREAM_STATUS (R182, R554): all zeros for an O-stream that is not defined. -/
def execAlnOstreamStatus (h : Hdr) (ostream : W16) : State → Host.Outcome State Fault Refusal :=
  cmdPlain h 0x0506 (pk ostream) fun d =>
    let o := ostream.toNat
    checks [(4096 ≤ o, .badParam)] (fun d =>
      if (mfind d.cur.os o).isNone then okayWith (List.replicate 52 0) d
      else
        let r := osRun d o
        okayWith (leBytes 4 r.wait ++ [BitVec.ofNat 8 (b2n r.warming)] ++ leBytes 4 (laggards d o) ++ leBytes 4 r.newest ++
          (match r.last with
            | some s => summaryBytes s
            | none => List.replicate 39 0)) d) d
/-- ALN_MEMBER_STATUS (R181). -/
def execAlnMemberStatus (h : Hdr) (memb : BitVec 24) (half : Byte) : State → Host.Outcome State Fault Refusal :=
  cmdPlain h 0x0507 (pk memb ++ [half]) fun d =>
    let m := memb.toNat
    checks [(membMax ≤ m || 1 < half.toNat, .badParam)] (fun d =>
      match mfind d.cur.membs m with
      | none => okayWith (List.replicate 41 0) d
      | some x =>
        let r := membRun d m
        let s := streamAln d x.stream
        let term := ((mfind d.cur.os x.ostream).map fun y => toUs (termNs y s)).getD 0
        okayWith ([BitVec.ofNat 8 (b2n r.lag), BitVec.ofNat 8 r.miss] ++ leBytes 4 term ++ leBytes 2 s.arrivals ++ leBytes 1 s.lq ++
          ((s.bins.drop (32 * half.toNat)).take 32).map (BitVec.ofNat 8)) d) d

/-! ### The landing plan (R171, R172) -/

/-- What one membership asks of DEPTH. -/
def depthFor (g : Gen) (rate : Nat) (m : Memb) : Nat :=
  match mfind g.os m.ostream with
  | none => 0
  | some x =>
    let w := if x.amend then min (2 * rate) (ceilDiv (255 * rate) x.rate) else ceilDiv (x.maxWait * rate) 1000000
    max 1 (max w (if m.decimate then rate / x.rate else 0))
/-- DEPTH of a stream over the memberships of the current and staged generations; 0 without one. -/
def depthOf (d : Dev) (stream rate : Nat) : Nat :=
  let of_ (g : Gen) := (g.membs.filter fun e => e.2.stream = stream).map fun e => depthFor g rate e.2
  (of_ d.cur ++ of_ d.staged).foldl max 0
/-- Blocks of a plan. -/
def LandPlan.blocks (p : LandPlan) : Nat := p.depth * p.bpr
/-- Blocks of the landing region. -/
def landMax : Nat := 67108864
/-- The lowest base at which so many blocks meet no ring of a list of bases and sizes (log entry 33). -/
def placeRing (used : List (Nat × Nat)) (n : Nat) : Nat :=
  let free (b : Nat) : Bool := used.all fun u => b + n ≤ u.1 || u.1 + u.2 ≤ b
  let ends := used.map fun u => u.1 + u.2
  (ends.filter free).foldl min (if free 0 then 0 else ends.foldl max 0)
/-- The staged plan: a stream whose DEPTH and BPR are those of the current plan keeps its ring; any other one gets blocks that no ring of
either generation has. -/
def landPlan (d : Dev) : NMap LandPlan :=
  (d.staged.streams.foldl (fun (acc : NMap LandPlan × List (Nat × Nat)) e =>
    let depth := depthOf d e.1 e.2.rate
    let bpr := ceilDiv e.2.count 15
    let fresh : LandPlan := { depth := depth, bpr := bpr, base := placeRing acc.2 (depth * bpr) }
    if depth = 0 then acc
    else match (mfind d.cur.land e.1).filter fun p => p.depth = depth && p.bpr = bpr with
      | some p => (mset acc.1 e.1 p, acc.2)
      | none => (mset acc.1 e.1 fresh, (fresh.base, fresh.blocks) :: acc.2)) ([], d.cur.land.map fun e => (e.2.base, e.2.blocks))).1
/-- Every ring of a plan lies in the landing region. -/
def planFits (m : NMap LandPlan) : Bool := m.all fun e => e.2.base + e.2.blocks ≤ landMax
/-- Landing blocks of the current plan and of the staged rings that differ from it. -/
def landBlocks (cur staged : NMap LandPlan) : Nat :=
  (cur.map fun e => e.2.blocks).sum + ((staged.filter fun e => !decide (mfind cur e.1 = some e.2)).map fun e => e.2.blocks).sum
/-- The first membership of a generation in breach of R172. -/
def firstBreach (g : Gen) : Option Nat :=
  (g.membs.find? fun e => (match mfind g.streams e.2.stream, mfind g.os e.2.ostream with
    | none, _ => true
    | some s, some x => !ratesFit s.rate x.rate
    | some _, none => false)).map Prod.fst
/-- ALN_LAND_PLAN (R172): rings that are too many, or that find no room beside those in use (log entry 33), are NO_RESOURCE. -/
def execAlnLandPlan (h : Hdr) : State → Host.Outcome State Fault Refusal :=
  cmdPlain h 0x0508 [] fun d =>
    if stagedShut d then reject .generationConflict d
    else match firstBreach d.staged with
      | some m => (d, some (.badParam, leBytes 3 m))
      | none =>
        let p := landPlan d
        let n := landBlocks d.cur.land p
        if landMax < n || !planFits p then reject .noResource d
        else okayWith (leBytes 4 n) { d with staged := { d.staged with land := p, landed := true } }

/-! ### Registers (R192) -/

/-- ALN_STAT. -/
def alnStat (d : Dev) : Nat :=
  (d.cur.os.filter fun e => (osRun d e.1).warming).length * 65536 + min 65535 d.aln.early.length
/-- A write of ALN_OS_SEL loads the three registers of the O-stream. -/
def selectOs (v : W32) (d : Dev) : Dev :=
  let o := v.toNat % 4096
  let r := osRun d o
  let stat := b2n (mfind d.cur.os o).isSome * 2 ^ 31 + b2n r.warming * 2 ^ 30 +
    ((r.last.map fun s => causeNum s.cause).getD 0) * 2 ^ 28 + r.wait
  let pos := (r.slots.filter fun s => decide (s.state = .opened)).length * 256 + r.newest % 256
  { d with aln := { d.aln with osSel := BitVec.ofNat 12 v.toNat, osStat := BitVec.ofNat 32 stat, osLag := BitVec.ofNat 32 (laggards d o),
                               osPos := BitVec.ofNat 32 pos } }
/-- ALN_OS_SEL_WRITE. -/
def execAlnOsSelWrite (v : W32) : State → Host.Outcome State Fault Refusal := runLive (selectOs v)

end Sys2Proof.Machine
end

