-- ==== Sys2Proof/Machine/CapCmd.lean ====
section
/-!
DEFINITION. The events and commands of the CAP block (Tables 12-2, 12-5 and 12-11).
-/
namespace Sys2Proof.Machine

/-! ### Descriptors -/

/-- The definition of a Table 12-2 descriptor with its channel list. -/
def capDefOf (b : Bytes) (list : List W32) : CapDef :=
  let n (off len : Nat) := leAt b off len
  { isLocal := bit (n 0 1) 0, isWide := bit (n 0 1) 1, contin := bit (n 1 1) 0, hold := bit (n 1 1) 1, stream := bit (n 1 1) 2,
    extMax := n 2 1, wideAll := n 3 1 = 1, locMask := BitVec.ofNat 48 (n 4 6), ostream := n 12 2,
    list := if n 3 1 = 1 then [] else (rangeFrom 0 (n 14 2)).map fun i => (list.getD i 0).toNat,
    pre := n 16 4, post := n 20 4, reach := n 24 4, nLocal := n 28 2, nWide := n 30 2, lanes := BitVec.ofNat 6 (n 32 1),
    maskEn := BitVec.ofNat 8 (n 33 1),
    terms := (List.range 8).map fun i => { kind := n (48 + 8 * i) 1, edge := BitVec.ofNat 2 (n (49 + 8 * i) 1),
                                           sel := BitVec.ofNat 32 (n (52 + 8 * i) 4) } }

/-- A term is outside R342 and Table 12-3; `b` is its 8 bytes. -/
def capTermBad (b : Bytes) : Bool :=
  let sel := leAt b 4 4
  3 < leAt b 1 1 || leAt b 2 2 != 0 || (match leAt b 0 1 with
    | 0 => false
    | 1 => 0x01FFFFFF < sel
    | 2 => !engSource sel
    | 3 => 7 < sel
    | 4 => 7 < sel
    | _ => true)

/-- N of a reduction is out of range: 2 to 65,535 where one of its lanes is chosen, else 0. -/
def reductionBad (chosen : Bool) (n : Nat) : Bool := if chosen then n < 2 else n != 0

/-- A field of a Table 12-2 descriptor is outside its range (R340). The list length is checked for a wide source only. -/
def capDefBad (b : Bytes) (list : List W32) : Bool :=
  let n (off len : Nat) := leAt b off len
  let c := capDefOf b list
  let l := n 32 1
  n 0 1 = 0 || 3 < n 0 1 || 7 < n 1 1 || (c.hold && c.stream) || 15 < c.extMax || 1 < n 3 1 || n 10 2 != 0 || 4095 < c.ostream ||
  (c.isWide && (if c.wideAll then n 14 2 != 0 else n 14 2 = 0)) || 1024 < n 14 2 || 216000 < c.pre || c.post = 0 || 2160000 < c.post ||
  2100 < c.reach || reductionBad (bit l 1 || bit l 2) c.nLocal || reductionBad (bit l 4 || bit l 5) c.nWide || 63 < l ||
  (!c.isLocal && bits l 0 3 != 0) || (!c.isWide && bits l 3 3 != 0) || n 34 2 != 0 ||
  (if c.stream then n 36 4 < 4 * (lanesOf c).length else n 36 4 != 0) ||
  (List.range 8).any (fun i => capTermBad (cut b (48 + 8 * i) 8)) || !allZero (cut b 112 16) || c.list.any (0x01FFFFFF < ·)

/-- The number of values of an O-stream's aligned record in a generation (R226). -/
def recordValues (g : Gen) (o : Nat) : Nat :=
  let sv := match mfind g.fmts o with
    | some f => f.proto = 1
    | none => false
  ((membsOf g o).map fun e => ((contribChans g sv e.1 e.2).map List.length).sum).sum

/-- Chunks that R341 allocates to one lane outside STREAM mode; `f` is F_o and `v` the values of a whole record. -/
def laneAlloc (c : CapDef) (f v lane : Nat) : Nat :=
  let t := c.pre + reachTicks c + (1 + c.extMax) * c.post
  let size := itemSize c lane v
  -- items per tick as a fraction
  let per : Nat × Nat := match lane with
    | 1 => (8, 1) | 2 => (8, c.nLocal) | 3 => (8, c.nLocal) | 4 => (f, 3600) | 5 => (f, 3600 * c.nWide) | _ => (f, 3600 * c.nWide)
  ceilDiv (t * size * per.1) (per.2 * 65472) + 2

/-- Triggers of a session's old definition do not reach the new one. -/
def dropTriggers (s : Nat) (d : Dev) : Dev := { d with cap := { d.cap with waiting := d.cap.waiting.filter fun w => w.session != s } }
/-- A session and its chunks are given up. -/
def dropSession (s : Nat) (d : Dev) : Dev :=
  let x := sessOf d s
  setSess s {} (dropTriggers s { d with cap := { d.cap with free := d.cap.free + x.alloc } })

/-- The session may be redefined or given a mask: it is UNDEFINED or IDLE. -/
def capFixed (d : Dev) (s : Nat) : Bool :=
  let st := (sessOf d s).state
  !(decide (st = .undefined) || decide (st = .idle))

/-- CAP_SESSION (R340, R341). -/
def execCapSession (h : Hdr) (session : Byte) (remove : Byte) (addr : W64) (desc : Bytes) (list : List W32) (readOk : Bool) :
    State → Host.Outcome State Fault Refusal :=
  cmd h 0x0810 ([session, remove] ++ pk addr) (remove = 0) fun d =>
    let s := session.toNat
    let x := sessOf d s
    let head : List (Bool × Status) := [(31 < s || 1 < remove.toNat, .badParam), (capFixed d s, .busy)]
    if remove = 1 then checks head (fun d => okay (dropSession s d)) d
    else
      let b := cut desc 0 128
      let c := capDefOf b list
      let f := ((mfind d.cur.os c.ostream).map OstreamDef.rate).getD 0
      let v := if c.isWide && c.wideAll then recordValues d.cur c.ostream else 0
      let need := if c.stream then leAt b 36 4 else ((lanesOf c).map (laneAlloc c f v)).sum
      checks (head ++ [(!readOk, .internalFault), (capDefBad b list, .badParam), (d.cap.free + x.alloc < need, .noResource)]) (fun d =>
        let y : CapSession := { x.emptied .idle with defn := some c, alloc := need, values := v, nextNum := 0 }
        okayWith (leBytes 4 need) (setSess s y (dropTriggers s { d with cap := { d.cap with free := d.cap.free + x.alloc - need } }))) d

/-- The mask of a Table 12-5 descriptor. -/
def capMaskOf (b : Bytes) : CapMask :=
  { stop := bit (leAt b 0 1) 0, trig := bit (leAt b 0 1) 1, wide := leAt b 1 1 = 1, magn := leAt b 2 1 = 1, chan := leAt b 4 4,
    stopPost := leAt b 8 4,
    points := (List.range (leAt b 12 2)).map fun i =>
      (leAt b (16 + 12 * i) 4, BitVec.ofNat 32 (leAt b (20 + 12 * i) 4), BitVec.ofNat 32 (leAt b (24 + 12 * i) 4)) }

/-- A field of a Table 12-5 descriptor is outside its range, or the session does not record the channel (R347). An UNDEFINED session
has nothing to hold it against (log entry 19). -/
def capMaskBad (b : Bytes) (c : Option CapDef) : Bool :=
  let m := capMaskOf b
  let rising := (m.points.zip (m.points.drop 1)).all fun e => e.1.1 < e.2.1
  3 < leAt b 0 1 || 1 < leAt b 1 1 || 1 < leAt b 2 1 || (m.magn && !m.wide) || leAt b 3 1 != 0 ||
  (if m.wide then 0x01FFFFFF < m.chan else 47 < m.chan) || m.points.length = 0 || 64 < m.points.length || leAt b 14 2 != 0 ||
  (m.points.head?.any fun p => p.1 != 0) || !rising ||
  (match c with
    | some c => c.post < m.stopPost || (if m.wide then !c.isWide || !(c.wideAll || c.list.contains m.chan) else !bit c.locMask.toNat m.chan)
    | none => false)

/-- CAP_MASK (R347). -/
def execCapMask (h : Hdr) (session : Byte) (mask : Byte) (addr : W64) (desc : Bytes) (readOk : Bool) :
    State → Host.Outcome State Fault Refusal :=
  cmd h 0x0811 ([session, mask] ++ pk addr) true fun d =>
    let s := session.toNat
    let x := sessOf d s
    let b := cut desc 0 784
    checks [(31 < s || 7 < mask.toNat, .badParam), (capFixed d s, .busy), (!readOk, .internalFault), (capMaskBad b x.defn, .badParam)]
      (fun d => okay (setSess s { x with masks := mset x.masks mask.toNat (capMaskOf b) } d)) d

/-- CAP_SKEW (R343). -/
def execCapSkew (h : Hdr) (first : Byte) (values : List W32) : State → Host.Outcome State Fault Refusal :=
  cmdPlain h 0x0812 ([first, BitVec.ofNat 8 values.length] ++ (values.map pk).flatten) fun d =>
    let v := values.map fun w => signed 32 w.toNat
    checks [(values.isEmpty || 8 < values.length || 56 < first.toNat + values.length || v.any fun n => 100000 < n.natAbs, .badParam)]
      (fun d => okay { d with cap := { d.cap with
        skews := v.zipIdx.foldl (fun m e => mput 0 m (first.toNat + e.2) e.1) d.cap.skews } }) d

/-! ### Running a session -/

/-- CAPTURE_TRIGGER (R342, R344): the oldest trigger on its way reaches its session. A mask triggers in ARMED only (R348). -/
def execCaptureTrigger : State → Host.Outcome State Fault Refusal := runCore fun d =>
  match d.cap.waiting with
  | [] => d
  | w :: rest =>
    let d := { d with cap := { d.cap with waiting := rest } }
    if w.kind = 4 && !decide ((sessOf d w.session).state = .armed) then d
    else capTrigger w.session w.kind w.term w.sel w.raw w.tp d

/-- The cause of a natural end (Table 12-6). -/
def naturalEnd (x : CapSession) : Nat := if x.cap.any fun k => k.mask.isSome then 1 else 0

/-- CAPTURE_END: every selected lane has written its last item (R346). -/
def execCaptureEnd (session : Fin 32) : State → Host.Outcome State Fault Refusal := runCore fun d =>
  let x := sessOf d session
  if decide (x.state = .capturing) && rangeDone d x then endCapture session (naturalEnd x) none d else d

/-- CAP_ARM (R344). -/
def execCapArm (h : Hdr) (session : Byte) : State → Host.Outcome State Fault Refusal :=
  cmdPlain h 0x0813 [session] fun d =>
    let x := sessOf d session.toNat
    checks [(31 < session.toNat, .badParam), (!decide (x.state = .idle), .notPermitted)]
      (fun d => okay (setSess session.toNat (x.emptied .armed) d)) d

/-- CAP_STOP (R349). -/
def execCapStop (h : Hdr) (session : Byte) : State → Host.Outcome State Fault Refusal :=
  cmdPlain h 0x0814 [session] fun d =>
    let s := session.toNat
    let x := sessOf d s
    if 31 < s then reject .badParam d
    else match x.state with
      | .armed => okay (setSess s (x.emptied .idle) d)
      | .capturing =>
        if rangeDone d x then reject .nothingToAbort (endCapture s (naturalEnd x) none d) else okay (endCapture s 3 none d)
      | _ => reject .nothingToAbort d

/-- CAP_TRIGGER (R345). -/
def execCapTrigger (h : Hdr) (session : Byte) (given : Byte) (sec : W48) (ns : W32) : State → Host.Outcome State Fault Refusal :=
  cmdPlain h 0x0815 ([session, given] ++ pk sec ++ pk ns) fun d =>
    let now := nowNs d
    let at_ := if given = 1 then instNs sec ns.toNat else now
    checks [(31 < session.toNat || 1 < given.toNat || (given = 1 && secNs ≤ ns.toNat) || now < at_ || at_ + 2100000000 < now, .badParam)]
      (fun d => okay (capTrigger session.toNat 5 0xFF 0 at_ at_ d)) d

/-- A chunk as CAP_READ copies it: 64 KiB, its header with RSEQ 0 (log entry 19). -/
def chunkBytes (x : HostRec) : Bytes :=
  padTo 65536 (leBytes 8 (x.type * 2 ^ 60 + x.prio * 2 ^ 57 + (1 + x.more.length) * 2 ^ 32) ++ padTo 56 x.head ++ x.more.flatten)

/-- CAP_READ (R353). -/
def execCapRead (h : Hdr) (session : Byte) (lane : Byte) (first count : W32) (addr : W64) : State → Host.Outcome State Fault Refusal :=
  cmd h 0x0816 ([session, lane] ++ pk first ++ pk count ++ pk addr) true fun d =>
    let x := sessOf d session.toNat
    let l := mget [] x.held lane.toNat
    let bad := 31 < session.toNat || lane = 0 || 6 < lane.toNat || !decide (x.state = .rearm) ||
      l.length < first.toNat + count.toNat
    checks [(bad, .badParam)]
      (fun d => okay (hostWrite addr (((l.drop first.toNat).take count.toNat).map chunkBytes).flatten d)) d

/-- CAP_RELEASE (R353). -/
def execCapRelease (h : Hdr) (session : Byte) : State → Host.Outcome State Fault Refusal :=
  cmdPlain h 0x0817 [session] fun d =>
    let x := sessOf d session.toNat
    checks [(31 < session.toNat, .badParam), (!(decide (x.state = .rearm) && x.defn.any CapDef.hold), .nothingToAbort)]
      (fun d => okay (capFree session.toNat d)) d

/-- The code of a state (Table 12-4). -/
def capStateNum : CapState → Nat
  | .undefined => 0 | .idle => 1 | .armed => 2 | .capturing => 3 | .rearm => 4

/-- Local samples held before the trigger, or before now while ARMED, up to 8 × PRE. -/
def preHeld (x : CapSession) : Nat :=
  match x.defn, x.locals with
  | some c, some w => min (8 * c.pre) (match x.cap with
    | some k => sampleFrom (9 * k.tp) - w.1
    | none => w.2 + 1 - w.1)
  | _, _ => 0

/-- CAP_STATUS: state, pre-trigger fill, allocation, TP, and the triggers in CAPTURING (log entry 11). -/
def execCapStatus (h : Hdr) (session : Byte) : State → Host.Outcome State Fault Refusal :=
  cmdPlain h 0x0818 [session] fun d =>
    let x := sessOf d session.toNat
    let tp := ((x.cap.map fun k => stampOfNs k.tp).getD {}).bytes
    let list := (x.cap.map Capture.during).getD []
    checks [(31 < session.toNat, .badParam)] (fun d => okayWith
      (leBytes 1 (capStateNum x.state) ++ leBytes 4 (preHeld x) ++ leBytes 4 x.alloc ++ tp ++
        leBytes 4 ((x.cap.map Capture.duringN).getD 0) ++ padTo 96 (list.map fun t => (stampOfNs t).bytes).flatten) d) d

/-- A CAP_SEL write loads the three session registers. -/
def capSelect (v : Nat) (d : Dev) : Dev :=
  let s := v % 32
  let x := sessOf d s
  { d with cap := { d.cap with
    sel := BitVec.ofNat 5 s
    sessStat := BitVec.ofNat 32 (capStateNum x.state * 2 ^ 29 + x.lastEnd * 2 ^ 26 + x.lastNum % 65536 * 1024)
    sessFill := BitVec.ofNat 32 (preHeld x)
    sessChunks := BitVec.ofNat 32 x.alloc } }

/-- CAP_SEL_WRITE. -/
def execCapSelWrite (v : W32) : State → Host.Outcome State Fault Refusal := runLive (capSelect v.toNat)

/-! ### Power fail and DORMANT (R349, R354) -/

/-- Every session in CAPTURING ends with a cause. -/
def capEndAll (cause : Nat) (d : Dev) : Dev :=
  (List.range 32).foldl (fun d s => if decide ((sessOf d s).state = .capturing) then endCapture s cause none d else d) d

/-- PFW_N asserted: POWER_FAIL. -/
def capPowerFail (d : Dev) : Dev :=
  let n := (d.cap.sessions.filter fun e => decide (e.2.state = .capturing)).length
  bumpN (capEndAll 4 d) 0x12 15 n

/-- The trailers of the captures not yet delivered or released (R354). -/
def capTrailers (d : Dev) : Dev :=
  (List.range 32).foldl (fun d s =>
    let x := sessOf d s
    match x.cap with
    | some k =>
      if decide (x.state = .rearm) then
        let n := (x.lanes.map fun e => e.2.posted + (cutChunks e.2.items).length).sum
        logEv 0x1204 (s + k.number % 65536 * 256 + capStateNum x.state * 2 ^ 29) (k.tp / secNs % 2 ^ 32) n d
      else d
    | none => d) d

/-- Entry into DORMANT: captures end, and ARMED sessions go to IDLE. -/
def capDormant (d : Dev) : Dev :=
  (List.range 32).foldl (fun d s =>
    let x := sessOf d s
    if decide (x.state = .armed) then setSess s (x.emptied .idle) d else d) (capEndAll 5 d)

end Sys2Proof.Machine
end

