-- ==== Sys2Proof/Machine/Control.lean ====
section
/-!
DEFINITION. What firmware does with the frames it is given (chapters 3, 4 and 7): ARP, neighbour discovery, ICMP echo and multicast
membership (R78, R104), configuration, header, command and GOOSE frames (R115, R116, R122, R203).
-/
namespace Sys2Proof.Machine

/-! ### Frames firmware sends -/

/-- The tags a frame arrived with (Table 3-3): selector and control word of the outer one, control word of the inner one. -/
def arrivalTags (d : Dev) (p tags : Nat) (outer : BitVec 18) (inner : BitVec 16) : Bytes :=
  let one := tagBytes (tpidOf (portOf d p) (outer.toNat / 65536)) (outer.toNat % 65536)
  match tags with
  | 0 => []
  | 1 => one
  | _ => one ++ tagBytes 0x8100 inner.toNat

/-- An IP packet around a payload: `opt` is the IPv4 options or the IPv6 hop-by-hop header (log entry 14). -/
def ipPacket (v6 : Bool) (src dst : BitVec 128) (proto ttl : Nat) (opt pay : Bytes) : Bytes :=
  if v6 then
    beBytes 4 (6 * 2 ^ 28) ++ beBytes 2 (opt.length + pay.length) ++ [if opt.isEmpty then BitVec.ofNat 8 proto else 0, BitVec.ofNat 8 ttl] ++
      beBytes 16 src.toNat ++ beBytes 16 dst.toNat ++ opt ++ pay
  else
    let hl := 20 + opt.length
    let head (sum : Nat) : Bytes := [BitVec.ofNat 8 (0x40 + hl / 4), 0] ++ beBytes 2 (hl + pay.length) ++ [0, 0, 0x40, 0,
      BitVec.ofNat 8 ttl, BitVec.ofNat 8 proto] ++ beBytes 2 sum ++ beBytes 4 src.toNat ++ beBytes 4 dst.toNat ++ opt
    head (inetSum (head 0)) ++ pay

/-- An ICMP, ICMPv6 or IGMP message with its checksum in bytes 2 and 3. -/
def icmpSum (v6 : Bool) (src dst : BitVec 128) (msg : Bytes) : Bytes :=
  let z := msg.take 2 ++ [0, 0] ++ msg.drop 4
  let ps := if v6 then beBytes 16 src.toNat ++ beBytes 16 dst.toNat ++ beBytes 4 z.length ++ [0, 0, 0, 58] else []
  msg.take 2 ++ beBytes 2 (inetSum (ps ++ z)) ++ msg.drop 4

/-- A reply of the kind that R104 limits: at most 100 in one second on one port. -/
def limitedReply (p : Nat) (bytes : Bytes) (d : Dev) : Dev :=
  let x := mget (0, 0) d.ing.replies p
  let n := if x.1 = d.tod.sec then x.2 else 0
  if 100 ≤ n then d
  else sendFw p bytes none { d with ing := { d.ing with replies := mset d.ing.replies p (d.tod.sec, n + 1) } }

/-! ### ARP, neighbour discovery, echo (R78, R104) -/

/-- The tags of ARP replies, as PORT_CONFIG sets them (R83). -/
def arpTagBytes (d : Dev) (p : Nat) : Bytes :=
  let x := portOf d p
  let one := tagBytes (tpidOf x x.arpTpid.toNat) x.arpOuter.toNat
  match x.arpTags with
  | 0 => []
  | 1 => one
  | _ => one ++ tagBytes 0x8100 x.arpInner.toNat

/-- An ARP frame: a request for an IPv4 address of the port is answered. -/
def answerArp (p : Nat) (m : PortFrame) (d : Dev) : Dev :=
  let b := m.payload
  let own := ownAddr d p
  if 28 ≤ b.length && beAt b 0 2 = 1 && beAt b 2 2 = 0x0800 && beAt b 4 2 = 0x0604 && beAt b 6 2 = 1 &&
      isOwnIp d p false (mapped (beAt b 24 4)) then
    let reply := b.take 6 ++ [0, 2] ++ beBytes 6 own.toNat ++ cut b 24 4 ++ cut b 8 10
    limitedReply p (etherFrame (BitVec.ofNat 48 (beAt b 8 6)) own (arpTagBytes d p) 0x0806 reply) d
  else d

/-- A frame back to the sender of one, with the tags it arrived with. -/
def replyFrame (d : Dev) (p : Nat) (m : PortFrame) (dst : W48) (v6 : Bool) (packet : Bytes) : Bytes :=
  etherFrame dst (ownAddr d p) (arrivalTags d p m.info.tags m.info.outer m.info.inner) (if v6 then 0x86DD else 0x0800) packet

/-- An echo request for an address of the port; its TTL is a free value, since the spec gives none. -/
def answerEcho (p : Nat) (m : PortFrame) (i : IpInfo) (d : Dev) : Dev :=
  let w := drawWord d
  let msg := icmpSum i.v6 i.dst i.src ([if i.v6 then 129 else 0, 0, 0, 0] ++ i.pay.drop 4)
  let packet := ipPacket i.v6 i.dst i.src (if i.v6 then 58 else 1) (w.1.toNat % 255 + 1) [] msg
  limitedReply p (replyFrame w.2 p m m.src i.v6 packet) w.2

/-- A neighbour solicitation for an address of the port: solicited, override, target link-layer address. -/
def answerSolicit (p : Nat) (m : PortFrame) (i : IpInfo) (d : Dev) : Dev :=
  let target := BitVec.ofNat 128 (beAt i.pay 8 16)
  if 24 ≤ i.pay.length && isOwnIp d p true target then
    let anon := i.src = 0
    let dst := if anon then BitVec.ofNat 128 (0xFF02 * 2 ^ 112 + 1) else i.src
    let msg := icmpSum true target dst ([136, 0, 0, 0, if anon then 0x20 else 0x60, 0, 0, 0] ++ beBytes 16 target.toNat ++ [2, 1] ++
      beBytes 6 (ownAddr d p).toNat)
    limitedReply p (replyFrame d p m ((mcastMac dst).getD m.src) true (ipPacket true target dst 58 255 [] msg)) d
  else d

/-! ### Multicast membership (R104) -/

/-- The multicast groups that the stream keys of a generation name on a port. -/
def groupsOn (g : Gen) (p : Nat) : List (BitVec 128) :=
  (g.keys.filterMap fun e =>
    if isMcast (!isMappedV4 e.2.dstAddr) e.2.dstAddr && e.2.qPort.all (· == p) then some e.2.dstAddr else none).dedup

/-- A membership report of one group: a record of type 2 in answer to a query, 4 for a change (log entry 14). -/
def sendMembership (p : Nat) (tags : Bytes) (kind : Byte) (a : BitVec 128) (d : Dev) : Dev :=
  let frame (dst : BitVec 128) (v6 : Bool) (packet : Bytes) :=
    etherFrame ((mcastMac dst).getD 0) (ownAddr d p) tags (if v6 then 0x86DD else 0x0800) packet
  if isMappedV4 a then
    let src := ((List.range 4).findSome? fun e => (mfind d.ing.addrs (addrKey p false e)).map IpEntry.addr).getD (mapped 0)
    let dst := mapped 0xE0000016
    let msg := icmpSum false src dst ([0x22, 0, 0, 0, 0, 0, 0, 1, kind, 0, 0, 0] ++ beBytes 4 a.toNat)
    sendFw p (frame dst false (ipPacket false src dst 2 1 [0x94, 4, 0, 0] msg)) none d
  else
    let src := linkLocal d p
    let dst := BitVec.ofNat 128 (0xFF02 * 2 ^ 112 + 0x16)
    let msg := icmpSum true src dst ([143, 0, 0, 0, 0, 0, 0, 1, kind, 0, 0, 0] ++ beBytes 16 a.toNat)
    sendFw p (frame dst true (ipPacket true src dst 58 1 [58, 0, 5, 2, 0, 0, 1, 0] msg)) none d

/-- A query for one group, or for all of them (group 0), is answered for the groups of the port. -/
def answerQuery (p : Nat) (m : PortFrame) (v6 : Bool) (group : BitVec 128) (d : Dev) : Dev :=
  let tags := arrivalTags d p m.info.tags m.info.outer m.info.inner
  ((groupsOn d.cur p).filter fun a => isMappedV4 a != v6 && (group = 0 || group = mapped 0 || group = a)).foldl
    (fun d a => sendMembership p tags 2 a d) d

/-- The groups that a switch names anew are reported on the ports that are up. -/
def groupSwitch (old : Gen) (d : Dev) : Dev :=
  (List.range 12).foldl (fun d p =>
    if portUp d p then
      ((groupsOn d.cur p).filter fun a => !(groupsOn old p).contains a).foldl (fun d a => sendMembership p (arpTagBytes d p) 4 a d) d
    else d) d

/-- An IP frame of a control queue. -/
def answerIp (p : Nat) (m : PortFrame) (i : IpInfo) (d : Dev) : Dev :=
  let type := beAt i.pay 0 1
  if i.pay.length < 8 then d
  else if i.proto = 2 then if type = 0x11 then answerQuery p m false (mapped (beAt i.pay 4 4)) d else d
  else if !i.v6 then if type = 8 && isOwnIp d p false i.dst then answerEcho p m i d else d
  else match type with
    | 128 => if isOwnIp d p true i.dst then answerEcho p m i d else d
    | 130 => if 24 ≤ i.pay.length then answerQuery p m true (BitVec.ofNat 128 (beAt i.pay 8 16)) d else d
    | 135 => answerSolicit p m i d
    | _ => d

/-- FW_CONTROL_QUEUE: firmware takes the oldest frame of a port's control queue and answers it. -/
def execFwControlQueue (port : Fin 12) : State → Host.Outcome State Fault Refusal := runLive fun d =>
  let p : Nat := port
  let x := portOf d p
  match x.ctrlQ with
  | [] => d
  | m :: rest =>
    if !d.cmd.fwUp || d.cmd.fwRestarting then d
    else
      let d := setPort d p { x with ctrlQ := rest }
      if m.etype = 0x0806 then answerArp p m d
      else match ipParse m.etype m.payload with
        | .inl _ => d
        | .inr i => answerIp p m i d

/-! ### Configuration, header, command and GOOSE frames (R115, R116, R122, R203) -/

/-- The control record of a frame (R228); a record without a port has 0xFF there (DESIGN CHOICE, log entry 18). -/
def controlRec (kind : Nat) (stream : Option Nat) (f : TaskFrame) (d : Dev) : Dev :=
  let head := leBytes 2 kind ++ leBytes 3 (stream.getD 0x3FFFF) ++ [BitVec.ofNat 8 (f.port.getD 0xFF)] ++ leBytes 2 f.data.length ++
    f.ts.bytes ++ beBytes 16 f.srcIp.toNat ++ leBytes 2 f.srcPort.toNat
  postRecord 7 head (chunksOf 64 1024 f.data) d

/-- The key of a stored image (R202): kinds 0 CFG-1, 1 CFG-2, 2 CFG-3, 3 header. -/
def imgKey (o shard kind : Nat) : Nat := (o * 4 + kind) * 65536 + shard

/-- Bytes of a frame replaced from an offset. -/
def overlay (b : Bytes) (off : Nat) (x : Bytes) : Bytes := b.take off ++ x ++ b.drop (off + x.length)

/-- An image as it is sent (R202): SOC and FRACSEC at the sending time, CHK anew. -/
def stampImage (d : Dev) (f : OstreamFmtP) (img : Bytes) : Bytes :=
  let q := fracOf f.timeBase.toNat d.tod.ns.toNat
  let full := q = f.timeBase.toNat
  let sec := d.tod.sec.toNat + b2n full
  let l := leapFlags (leapTable d) sec
  let frac := b2n l.2.2 * 2 ^ 30 + b2n l.2.1 * 2 ^ 29 + b2n l.1 * 2 ^ 28 + bits d.tod.qualCode.toNat 0 4 * 2 ^ 24 + if full then 0 else q
  let b := overlay img 6 (beBytes 4 (utcOf (leapTable d) sec).1 ++ beBytes 4 frac)
  let body := b.take (img.length - 2)
  body ++ beBytes 2 (ccitt body)

/-- The image goes back to the commander (R203); TTL and DSCP are free values, since the spec gives none. -/
def sendImage (f : TaskFrame) (p : Nat) (fmt : OstreamFmtP) (img : Bytes) (d : Dev) : Dev :=
  let w := drawWord d
  let x : Dest :=
    { dstIp := f.srcIp, srcIp := f.dstIp, dstMac := f.srcMac, udpSrc := f.dstPort.toNat, udpDst := f.srcPort.toNat,
      ttl := bits w.1.toNat 0 8 % 255 + 1, dscp := bits w.1.toNat 8 6, tags := arrivalTags w.2 p f.tags f.outer f.inner }
  sendFw p (udpFrame w.2 p x (stampImage w.2 fmt img)) none w.2

/-- Transmission turned on or off for the commander's templates; none where no template matches (Table 7-3). -/
def turnTemplates (o : Nat) (f : TaskFrame) (on : Bool) (d : Dev) : Option Dev :=
  let l := d.cur.tpls.filter fun e => e.2.ostream.toNat = o && e.2.dstIp = f.srcIp && e.2.udpDst = f.srcPort
  if l.isEmpty then none
  else some (l.foldl (fun d e =>
    logEv 0x0A07 e.1 (b2n on) (f.srcIp.toNat % 2 ^ 32) (setTpl e.1 { tplOf d e.1 with on := on } d)) d)

/-- The answer of a command frame (Table 7-3); none where it is not answered. -/
def answerCommand (f : TaskFrame) (d : Dev) : Option Dev :=
  let b := f.data
  if b.length < 18 || ccitt (b.take (b.length - 2)) != beAt b (b.length - 2) 2 then none
  else match shardOf d.cur (beAt b 4 2) with
    | none => none
    | some (o, shard) => match mfind d.cur.fmts o, f.port with
      | some fmt, some p =>
        let image (kind : Nat) := (mfind d.cur.images (imgKey o shard kind)).map fun img => sendImage f p fmt img d
        match beAt b 14 2 with
        | 1 => turnTemplates o f false d
        | 2 => turnTemplates o f true d
        | 3 => image 3
        | 4 => image 0
        | 5 => image 1
        | 6 => if fmt.version = 1 then none else image 2
        | _ => none
      | _, _ => none

/-- A command frame, answered or delivered to the host (R203). -/
def commandFrame (x : FwFrame) (d : Dev) : Dev :=
  match answerCommand x.frame d with
  | some e => controlRec 5 x.stream x.frame (bump e 0x0A 12)
  | none => controlRec 4 x.stream x.frame (bump d 0x0A 13)

/-- A PMU block of a CFG-1 or CFG-2 frame (PRESUMED, IEEE C37.118.2; log entry 12): FORMAT, the units of its phasors, the number of its
analogues, the masks of its digital words, and FNOM. -/
structure CfgBlock where
  format : Nat
  phUnits : List Nat
  analogs : Nat
  digUnits : List Nat
  fnom : Nat

/-- The blocks of a configuration frame, and what follows them. -/
def cfgBlocks : Nat → Bytes → Option (List CfgBlock × Bytes)
  | 0, b => some ([], b)
  | n + 1, b =>
    let ph := beAt b 20 2
    let an := beAt b 22 2
    let dg := beAt b 24 2
    let u := 26 + 16 * (ph + an + 16 * dg)
    let len := u + 4 * (ph + an + dg) + 4
    if b.length < len then none
    else
      let x : CfgBlock :=
        { format := beAt b 18 2, phUnits := (List.range ph).map fun i => beAt b (u + 4 * i) 4, analogs := an
          digUnits := (List.range dg).map fun i => beAt b (u + 4 * (ph + an + i)) 4, fnom := beAt b (len - 4) 2 }
      (cfgBlocks n (b.drop len)).map fun r => (x :: r.1, r.2)

/-- The index in the list of R116 of the first field of a block that differs from the block's channels and their scaling entries: FORMAT 3,
PHNMR 4, ANNMR 5, DGNMR 6, PHUNIT 7, DIGUNIT 9, FNOM 10. -/
def blockDiffers (g : Gen) (chans : List DirEntry) (x : CfgBlock) : Option Nat :=
  let of_ (t : Nat) : List DirEntry := chans.filter fun e => e.type = t && !e.statusRole
  let real := if bit x.format 1 then (if bit x.format 0 then 4 else 3) else if bit x.format 0 then 2 else 1
  let fmt (i : Nat) : Nat := if bit x.format i then 6 else 5
  let bad (t f : Nat) : Bool := (of_ t).any fun e => e.format != f
  let units := ((of_ 1).zip x.phUnits).any fun e => e.1.format ≤ 2 && (scaleOf g e.1.scale).k != ofQ64 (e.2 % 2 ^ 24 : Nat) 100000
  let masks := ((of_ 5).zip x.digUnits).any fun e => (scaleOf g e.1.scale).mask.toNat != e.2 % 65536
  if bad 1 real || bad 2 (fmt 3) || bad 3 (fmt 3) || bad 4 (fmt 2) then some 3
  else if (of_ 1).length != x.phUnits.length then some 4
  else if (of_ 4).length != x.analogs then some 5
  else if (of_ 5).length != x.digUnits.length then some 6
  else if units then some 7
  else if masks then some 9
  else if chans.any fun e => e.fnom == bit x.fnom 0 then some 10
  else none

/-- The first field of a CFG-1 or CFG-2 frame that differs from the stream's definition (R116): NUM_PMU 0, those of its blocks, DATA_RATE 11,
TIME_BASE 12. -/
def cfgDiffers (g : Gen) (k : Nat) (s : StreamDef) (b : Bytes) : Option Nat :=
  if beAt b 18 2 != s.blocks then some 0
  else match cfgBlocks s.blocks (b.drop 20) with
    | none => some 0
    | some (l, rest) =>
      let run := ((rangeFrom s.firstChan s.count).filter (yields g k)).map (entryOf g)
      let of_ (i : Nat) := run.filter fun e => e.block = i
      let rate := signed 16 (beAt rest 0 2)
      match (l.zipIdx.filterMap fun e => blockDiffers g (of_ e.2) e.1).min? with
      | some i => some i
      | none => if rate != (s.rate : Int) then some 11 else if bits (beAt b 14 4) 0 24 != s.timeBase then some 12 else none

/-- The lower of two indices. -/
def firstOf (a b : Option Nat) : Option Nat :=
  match a, b with
  | some x, some y => some (min x y)
  | some x, none => some x
  | none, y => y

/-- A configuration frame that differs from the definition holds its stream (R116). -/
def compareCfg (k type : Nat) (b : Bytes) (c : CfgCompare) (d : Dev) : Dev :=
  match mfind d.cur.streams k with
  | none => d
  | some s =>
    match firstOf (if type = 5 then none else cfgDiffers d.cur k s b) c.differs with
    | some i => logEv 0x0701 k type i (setFlag 0x07 3 (setStream k { streamOf d k with held := true } d))
    | none => d

/-- FW_FRAME_QUEUE: firmware takes the oldest frame of the shared queue. -/
def execFwFrameQueue (c : CfgCompare) : State → Host.Outcome State Fault Refusal := runLive fun d =>
  match d.ing.fwQueue with
  | [] => d
  | x :: rest =>
    if !d.cmd.fwUp || d.cmd.fwRestarting then d
    else
      let d := queueRead fwQueueId { d with ing := { d.ing with fwQueue := rest } }
      let type := beAt x.frame.data 0 2 / 16 % 16
      let cfg (kind : Nat) : Dev :=
        controlRec kind x.stream x.frame (match x.stream with | some k => compareCfg k type x.frame.data c d | none => d)
      if x.frame.data.head? = some 0xA1 then controlRec 6 x.stream x.frame d
      else match type with
        | 1 => controlRec 3 x.stream x.frame d
        | 2 => cfg 0
        | 3 => cfg 1
        | 5 => cfg 2
        | _ => commandFrame x d

end Sys2Proof.Machine
end

