-- ==== Sys2Proof/Machine/Converters.lean ====
section
/-!
DEFINITION. The auxiliary converters (chapter 13, R373 to R380): lanes, injected groups, calibration, the spare and the result buffers.
-/
namespace Sys2Proof.Machine

/-- A lane. -/
def auxLaneOf (d : Dev) (l : Nat) : AuxLane := mget {} d.aux.lanes l
/-- A lane replaced. -/
def auxSetLane (l : Nat) (x : AuxLane) (d : Dev) : Dev := { d with aux := { d.aux with lanes := mput {} d.aux.lanes l x } }
/-- A result buffer. -/
def auxBuf (d : Dev) (b : Nat) : AuxBuf := mget {} d.aux.bufs b
/-- A result buffer replaced. -/
def setAuxBuf (b : Nat) (x : AuxBuf) (d : Dev) : Dev := { d with aux := { d.aux with bufs := mput {} d.aux.bufs b x } }
/-- The slice that serves a lane. -/
def auxSliceOf (d : Dev) (l : Nat) : Nat := lget 0 d.aux.map l

/-- The spare takes over a lane (R376): the displaced slice becomes the spare, which is calibrated anew. -/
def auxTakeOver (l : Nat) (d : Dev) : Dev :=
  let slice := auxSliceOf d l
  let d := auxSetLane l { auxLaneOf d l with takeover := false, swap := true } d
  bump { d with aux := { d.aux with map := lset d.aux.map l d.aux.spare, spare := slice, spareOk := false, nextLane := (l + 1) % 8 } } 0x0F 5
/-- A lane begins a conversion, or a calibration of 12 conversion periods (R373, R376). -/
def auxBegin (l : Nat) (w : AuxWork) (d : Dev) : Dev :=
  let x := auxLaneOf d l
  let period := secNs / x.odr
  auxSetLane l { x with work := w, doneOp := opNs d + (if w = .calibrating then 12 * period else period) } d
/-- A lane's next work at an entry boundary (R375, R376): what is pending in order of arrival, else the regular sequence. A takeover
waits for injected groups. -/
def auxLaneNext (l : Nat) (d : Dev) : Dev :=
  let x := auxLaneOf d l
  let d := if x.takeover && !x.pend.contains false && d.aux.spare < 9 then auxTakeOver l d else d
  let x := auxLaneOf d l
  match x.pend with
  | [] => auxBegin l (.regular x.next) d
  | false :: t => auxBegin l (.injected 0) (auxSetLane l { x with pend := t } d)
  | true :: t => auxBegin l .calibrating (auxSetLane l { x with pend := t } d)
/-- The word of a result (Table 13-8). -/
def auxResultWord (v : Int) (input : Nat) (inj ovr swap : Bool) (mid : Nat) : W64 :=
  BitVec.ofNat 64 (unsigned 24 v + input * 2 ^ 24 + b2n inj * 2 ^ 29 + b2n ovr * 2 ^ 30 + b2n swap * 2 ^ 31 +
    mid % secNs * 2 ^ 32 + mid / secNs % 4 * 2 ^ 62)
/-- A result enters its buffer (R378); a buffer that is not defined takes none. -/
def auxBufWrite (b : Nat) (w : W64) (d : Dev) : Dev :=
  let x := auxBuf d b
  if x.len = 0 then d
  else
    let full := x.unread = x.len - 1
    let before := x.unread
    let y : AuxBuf := { x with rd := if full then (x.rd + 1) % x.len else x.rd, wr := (x.wr + 1) % x.len }
    let d := setAuxBuf b y { d with aux := { d.aux with store := mput 0 d.aux.store (x.first + x.wr) w } }
    let d := if full then tally tallyAux b 1 0 (setFlag 0x0F 2 (bump d 0x0F 7)) else d
    if before < x.watermark && x.watermark ≤ y.unread then sendMsix false 45 d else d
/-- A conversion's result is delivered: saturated, stamped at the midpoint of the conversion (R374, R377). -/
def auxDeliver (l : Nat) (e : AuxEntry) (inj : Bool) (raw : Int) (d : Dev) : Dev :=
  let x := auxLaneOf d l
  let v := max (-8388608) (min 8388607 raw)
  let ovr := v != raw
  let mid := nowNs d - 500000000 / x.odr
  let d := bump (auxSetLane l { x with swap := false } d) 0x0F 0
  let d := if ovr then setFlag 0x0F 0 (bump d 0x0F 8) else d
  auxBufWrite e.buffer (auxResultWord v e.input inj ovr x.swap mid) d
/-- The conversion in progress on a running lane ends. -/
def auxConverted (l : Nat) (raw : Int) (d : Dev) : Dev :=
  let x := auxLaneOf d l
  match x.work with
    | .regular i => match x.entries[i]? with
      | none => d
      | some e =>
        let d := auxDeliver l e false raw d
        auxLaneNext l (auxSetLane l { auxLaneOf d l with next := (i + 1) % x.entries.length, gaveOp := some (opNs d) } d)
    | .injected i => match x.injected[i]? with
      | none => d
      | some e =>
        let d := auxDeliver l e true raw d
        if i + 1 < x.injected.length then auxBegin l (.injected (i + 1)) d else auxLaneNext l (bump d 0x0F 1)
    | .calibrating => d
/-- AUX_CONVERSION_DONE: 1 / ODR has passed since the conversion began. -/
def execAuxConversionDone (lane : Fin 8) (raw : Int) : State → Host.Outcome State Fault Refusal := runEng fun d =>
  let x := auxLaneOf d lane
  if x.run && !decide (x.work = .calibrating) then auxConverted lane raw (waitUntil d x.doneOp) else d
/-- A trigger of a lane's injected group (R375). In the cycle in which a regular result completed, the entry that has just begun is the
interrupted one, and nothing is abandoned. -/
def auxTrigger (l : Nat) (d : Dev) : Dev :=
  let x := auxLaneOf d l
  if !x.run || x.injected.isEmpty then d
  else match x.work with
    | .regular i =>
      let d := auxBegin l (.injected 0) (auxSetLane l { x with next := i } d)
      if x.gaveOp = some (opNs d) then d else bump d 0x0F 2
    | .injected _ => if x.pend.contains false then setFlag 0x0F 1 (bump d 0x0F 4) else auxSetLane l { x with pend := x.pend ++ [false] } d
    | .calibrating =>
      if x.pend.contains false then setFlag 0x0F 1 (bump d 0x0F 4) else bump (auxSetLane l { x with pend := x.pend ++ [false] } d) 0x0F 3
/-- AUX_INJ: bit L triggers lane L. -/
def auxInj (v : W32) (d : Dev) : Dev := ((List.range 8).filter (bit v.toNat)).foldl (fun d l => auxTrigger l d) d
/-- AUX_INJ_WRITE. -/
def execAuxInjWrite (v : W32) : State → Host.Outcome State Fault Refusal := runEng (auxInj v)
/-- A rising edge of EVENT input `n` (R375). -/
def auxEventEdge (n : Nat) (d : Dev) : Dev :=
  ((List.range 8).filter fun l => (auxLaneOf d l).trigger = 8 + n).foldl (fun d l => auxTrigger l d) d
/-- AUX_CAL_DONE: a foreground calibration ends. -/
def execAuxCalDone (lane : Fin 8) (coefs : List W32) : State → Host.Outcome State Fault Refusal := runEng fun d =>
  let l : Nat := lane
  let x := auxLaneOf d l
  if x.run && decide (x.work = .calibrating) then
    let d := waitUntil d x.doneOp
    auxLaneNext l (bump { d with aux := { d.aux with coefs := mset d.aux.coefs (auxSliceOf d l) coefs } } 0x0F 6)
  else d
/-- AUX_SPARE_TAKEOVER: CAL_PERIOD has passed; where the spare is calibrated, a running lane is taken over at its next entry boundary. -/
def execAuxSpareTakeover : State → Host.Outcome State Fault Refusal := runEng fun d =>
  if d.aux.calPeriod = 0 || 9 ≤ d.aux.spare then d
  else
    let d := waitUntil d d.aux.rotateOp
    let d := { d with aux := { d.aux with rotateOp := d.aux.rotateOp + d.aux.calPeriod * secNs } }
    let l := d.aux.nextLane
    if !d.aux.spareOk then d else
    if (auxLaneOf d l).run then auxSetLane l { auxLaneOf d l with takeover := true } d else auxTakeOver l d
/-- AUX_SPARE_CALIBRATED: the background calibration of the spare ends, or the spare has FAILED: gain code, and whether by gain error. -/
def execAuxSpareCalibrated (coefs : List W32) (failed : Option (Byte × Bool)) : State → Host.Outcome State Fault Refusal := runEng fun d =>
  let s := d.aux.spare
  if 9 ≤ s then d
  else match failed with
    | none => { d with aux := { d.aux with coefs := mset d.aux.coefs s coefs, spareOk := true } }
    | some f => logEv 0x0F01 s f.1.toNat (b2n f.2) (setFlag 0x0F 4 { d with aux := { d.aux with spare := 15, spareOk := false } })
/-- A host value of RD (R378). -/
def auxBufRd (b : Nat) (v : W32) (d : Dev) : Dev :=
  let x := auxBuf d b
  let i := v.toNat % 8192
  let fits := if x.len = 0 then decide (i = 0) else decide (i < x.len) && decide ((i + x.len - x.rd) % x.len ≤ x.unread)
  if fits then setAuxBuf b { x with rd := i } d else setFlag 0x0F 3 (bump d 0x0F 9)
/-- AUX_BUF_RD_WRITE. -/
def execAuxBufRdWrite (buffer : Fin 16) (v : W32) : State → Host.Outcome State Fault Refusal := runLive (auxBufRd buffer v)

/-! ### Commands (Table 13-11) and DORMANT -/

/-- A lane stops at once (R373); a takeover that waits happens now. -/
def auxLaneStop (l : Nat) (d : Dev) : Dev :=
  let x := auxLaneOf d l
  let d := if x.takeover && d.aux.spare < 9 then auxTakeOver l d else d
  auxSetLane l { auxLaneOf d l with run := false, work := .regular 0, next := 0, pend := [] } d
/-- A lane starts at its first regular entry. -/
def auxLaneStart (l : Nat) (d : Dev) : Dev :=
  auxBegin l (.regular 0) (auxSetLane l { auxLaneOf d l with run := true, next := 0, pend := [], gaveOp := none } d)
/-- AUX_LANE (R373). -/
def execAuxLane (h : Hdr) (lane : Byte) (odr : W16) (run : Byte) : State → Host.Outcome State Fault Refusal :=
  cmdPlain h 0x0710 (pk lane ++ pk odr ++ pk run) fun d =>
    checks [(7 < lane.toNat || !([10, 20, 50, 100, 200, 500, 1000, 2000, 4000].contains odr.toNat) || 1 < run.toNat, .badParam)] (fun d =>
      let l := lane.toNat
      let was := (auxLaneOf d l).run
      let d := auxSetLane l { auxLaneOf d l with odr := odr.toNat } d
      okay (if run = 1 then (if was then d else auxLaneStart l d) else auxLaneStop l d)) d
/-- A sequence entry (R374). -/
def auxEntry (w : W32) : AuxEntry := { input := bits w.toNat 0 8, gain := bits w.toNat 8 8, buffer := bits w.toNat 16 8 }
/-- A sequence entry is outside its range. -/
def auxEntryBad (w : W32) : Bool := 18 < bits w.toNat 0 8 || 7 < bits w.toNat 8 8 || 15 < bits w.toNat 16 8 || bits w.toNat 24 8 != 0
/-- The entries of a list parameter as bytes. -/
def words32 (l : List W32) : Bytes := (l.map fun w => leBytes 4 w.toNat).flatten
/-- AUX_SEQ (R374). -/
def execAuxSeq (h : Hdr) (lane : Byte) (entries : List W32) : State → Host.Outcome State Fault Refusal :=
  cmdPlain h 0x0711 (pk lane ++ leBytes 1 entries.length ++ words32 entries) fun d =>
    checks [(7 < lane.toNat || entries.isEmpty || 16 < entries.length || entries.any auxEntryBad, .badParam), ((auxLaneOf d lane.toNat).run, .busy)]
      (fun d => okay (auxSetLane lane.toNat { auxLaneOf d lane.toNat with entries := entries.map auxEntry } d)) d
/-- AUX_INJECTED (R374, R375). -/
def execAuxInjected (h : Hdr) (lane : Byte) (trigger : Byte) (entries : List W32) : State → Host.Outcome State Fault Refusal :=
  cmdPlain h 0x0712 (pk lane ++ leBytes 1 entries.length ++ pk trigger ++ words32 entries) fun d =>
    let trigBad := trigger != 0 && (trigger.toNat < 8 || 15 < trigger.toNat)
    checks [(7 < lane.toNat || 4 < entries.length || trigBad || entries.any auxEntryBad, .badParam), ((auxLaneOf d lane.toNat).run, .busy)]
      (fun d => okay (auxSetLane lane.toNat { auxLaneOf d lane.toNat with injected := entries.map auxEntry, trigger := trigger.toNat } d)) d
/-- AUX_BUFFER (R377). -/
def execAuxBuffer (h : Hdr) (buffer : Byte) (first len watermark : W16) : State → Host.Outcome State Fault Refusal :=
  cmdPlain h 0x0713 (pk buffer ++ pk first ++ pk len ++ pk watermark) fun d =>
    let a := first.toNat
    let n := len.toNat
    let clash := d.aux.bufs.any fun e => e.1 != buffer.toNat && a < e.2.first + e.2.len && e.2.first < a + n
    let used := d.aux.lanes.any fun e => e.2.run && (e.2.entries ++ e.2.injected).any fun y => y.buffer == buffer.toNat
    checks [(15 < buffer.toNat || n < 16 || 8192 < n || 8192 < a + n || clash, .badParam), (used, .busy)] (fun d =>
      okay (setAuxBuf buffer.toNat { first := a, len := n, watermark := watermark.toNat } d)) d
/-- AUX_CAL (R376): a foreground calibration, or CAL_PERIOD. -/
def execAuxCal (h : Hdr) (lane : Byte) (period : Option W16) : State → Host.Outcome State Fault Refusal :=
  cmdPlain h 0x0714 (pk lane ++ ((period.map pk).getD [])) fun d =>
    match period with
    | some p => checks [(lane != 0xFF, .badLength), (3600 < p.toNat, .badParam)] (fun d =>
        okay { d with aux := { d.aux with calPeriod := p.toNat, rotateOp := opNs d + p.toNat * secNs } }) d
    | none => checks [(lane = 0xFF, .badLength), (7 < lane.toNat, .badParam), (!(auxLaneOf d lane.toNat).run, .notPermitted)] (fun d =>
        let l := lane.toNat
        let x := auxLaneOf d l
        okay (match x.work with
          | .regular i => auxBegin l .calibrating (auxSetLane l { x with next := i } d)
          | _ => auxSetLane l { x with pend := x.pend ++ [true] } d)) d
/-- AUX_STATUS (log entry 11): slice, ODR, current entry (bit 6 injected, 0x80 calibrating, 0xFF stopped), pending items (bit 0 an
injected group, 1 a calibration, 2 a takeover), then the coefficients of the slice. -/
def execAuxStatus (h : Hdr) (lane : Byte) : State → Host.Outcome State Fault Refusal :=
  cmdPlain h 0x0715 (pk lane) fun d => checks [(7 < lane.toNat, .badParam)] (fun d =>
    let l := lane.toNat
    let x := auxLaneOf d l
    let cur := if !x.run then 255 else match x.work with | .regular i => i | .injected i => 64 + i | .calibrating => 128
    let pend := b2n (x.pend.contains false) + 2 * b2n (x.pend.contains true) + 4 * b2n x.takeover
    let co := mget [] d.aux.coefs (auxSliceOf d l)
    okayWith (leBytes 1 (auxSliceOf d l) ++ leBytes 2 x.odr ++ leBytes 1 cur ++ leBytes 1 pend ++
      ((List.range 16).map fun i => pk (co.getD i 0)).flatten) d) d
/-- Entry into DORMANT (R379). -/
def auxDormant (d : Dev) : Dev :=
  let on := (List.range 8).filter fun l => (auxLaneOf d l).run
  let d := on.foldl (fun d l => auxLaneStop l (auxSetLane l { auxLaneOf d l with takeover := false } d)) d
  { d with aux := { d.aux with running := BitVec.ofNat 8 (on.foldl (fun m l => m + 2 ^ l) 0) } }
/-- Exit from DORMANT (R379). -/
def auxWake (d : Dev) : Dev :=
  let d := ((List.range 8).filter (bit d.aux.running.toNat)).foldl (fun d l => auxLaneStart l d) d
  { d with aux := { d.aux with running := 0, spareOk := false, rotateOp := opNs d + d.aux.calPeriod * secNs } }

end Sys2Proof.Machine
end

