-- ==== Sys2Proof/Machine/Linear.lean ====
section
/-!
DEFINITION. Complex linear algebra in binary64, as the state estimator uses it (R239, R243, R245, R246): the gain matrix of weighted rows,
its factor L D L^H, solutions, and the dense factor of the exclusion set. Each formula is evaluated in one order, the order of
its definition here (log entry 20).
-/
namespace Sys2Proof.Machine

/-! ### Complex numbers -/

/-- A complex value: real and imaginary part. -/
abbrev Cx := W64 × W64
/-- Sum. -/
def cAdd (a b : Cx) : Cx := (f64Add a.1 b.1, f64Add a.2 b.2)
/-- Negation. -/
def cNeg (a : Cx) : Cx := (f64Neg a.1, f64Neg a.2)
/-- Difference. -/
def cSub (a b : Cx) : Cx := cAdd a (cNeg b)
/-- Complex conjugate. -/
def cConj (a : Cx) : Cx := (a.1, f64Neg a.2)
/-- Product. -/
def cMul (a b : Cx) : Cx := (f64Sub (f64Mul a.1 b.1) (f64Mul a.2 b.2), f64Add (f64Mul a.1 b.2) (f64Mul a.2 b.1))
/-- Product with a real number. -/
def cScale (r : W64) (a : Cx) : Cx := (f64Mul r a.1, f64Mul r a.2)
/-- Quotient by a real number. -/
def cDiv (a : Cx) (r : W64) : Cx := (f64Div a.1 r, f64Div a.2 r)
/-- Magnitude squared. -/
def cAbs2 (a : Cx) : W64 := f64Add (f64Mul a.1 a.1) (f64Mul a.2 a.2)
/-- Sum of a list. -/
def cSum (l : List Cx) : Cx := l.foldl cAdd (0, 0)
/-- The number 1. -/
def one64 : W64 := 0x3FF0000000000000

/-! ### Sparse vectors and Hermitian matrices, by index -/

/-- A sparse complex vector. -/
abbrev CVec := NMap Cx
/-- A sparse complex matrix by row. -/
abbrev CMat := NMap CVec
/-- An element, 0 where none is listed. -/
def vAt (v : CVec) (i : Nat) : Cx := mget (0, 0) v i
/-- Adds to an element; the element is then listed, whatever the sum is. -/
def vAdd (v : CVec) (i : Nat) (x : Cx) : CVec := mset v i (match mfind v i with | some y => cAdd y x | none => x)
/-- Adds to an element of a matrix. -/
def mAdd (g : CMat) (i j : Nat) (x : Cx) : CMat := mset g i (vAdd (mget [] g i) j x)
/-- A weighted row of the estimator: its number, elements by bus, and σ. -/
abbrev WRow := Nat × CVec × W64
/-- The weight of a row, 1 / σ² (R238). -/
def WRow.weight (r : WRow) : W64 := f64Div one64 (f64Mul r.2.2 r.2.2)
/-- G = Σ w h^H h over rows (R239). -/
def gainOf (rows : List WRow) : CMat :=
  rows.foldl (fun g r => r.2.1.foldl (fun g a => r.2.1.foldl (fun g b => mAdd g a.1 b.1 (cScale r.weight (cMul (cConj a.2) b.2))) g) g) []

/-! ### The factor L D L^H (R243, R245) -/

/-- One eliminated bus: its pivot of D, and the entries of its column of L below the diagonal. -/
structure Pivot where
  bus : Nat
  d   : W64
  col : CVec
  deriving DecidableEq, Repr
/-- A factor: pivots in order of elimination, and the buses that were removed. -/
structure Ldl where
  pivots : List Pivot := []
  gone   : List Nat := []
  deriving DecidableEq, Repr
/-- A bus's row and column taken out of a matrix. -/
def matDrop (k : Nat) (g : CMat) : CMat := (mdel g k).map fun r => (r.1, mdel r.2 k)
/-- Elimination in an order: a bus whose pivot is below `tol` times the diagonal element it replaces, or is not positive, is removed. -/
def eliminate (tol : W64) (diag : CMat) : List Nat → CMat → Ldl
  | [], _ => {}
  | k :: rest, g =>
    let row := mget [] g k
    let d := (vAt row k).1
    let g' := matDrop k g
    if f64Lt d (f64Mul tol (vAt (mget [] diag k) k).1) || !f64Lt 0 d then
      let f := eliminate tol diag rest g'
      { f with gone := k :: f.gone }
    else
      let col := (mdel row k).map fun e => (e.1, cDiv (cConj e.2) d)
      let g'' := col.foldl (fun g a => col.foldl (fun g b => mAdd g a.1 b.1 (cNeg (cScale d (cMul a.2 (cConj b.2))))) g) g'
      let f := eliminate tol diag rest g''
      { f with pivots := { bus := k, d := d, col := col } :: f.pivots }
/-- The factor without the columns' entries at removed buses. -/
def Ldl.clean (f : Ldl) : Ldl := { f with pivots := f.pivots.map fun p => { p with col := p.col.filter fun e => !f.gone.contains e.1 } }
/-- The factor of a matrix over buses in an order. -/
def ldlOf (tol : W64) (order : List Nat) (g : CMat) : Ldl := (eliminate tol g order g).clean
/-- The entries of L, diagonal included. -/
def Ldl.entries (f : Ldl) : Nat := (f.pivots.map fun p => 1 + p.col.length).sum
/-- The forward pass. -/
def forward (f : Ldl) (b : CVec) : CVec :=
  f.pivots.foldl (fun y p => p.col.foldl (fun y e => vAdd y e.1 (cNeg (cMul e.2 (vAt y p.bus)))) y) b
/-- The solution of G x = b, by one forward and one back pass. -/
def ldlSolve (f : Ldl) (b : CVec) : CVec :=
  let y := forward f b
  f.pivots.foldr (fun p x => mset x p.bus (cSub (cDiv (vAt y p.bus) p.d) (cSum (p.col.map fun e => cMul (cConj e.2) (vAt x e.1))))) []
/-- h x for a row and a vector. -/
def rowDot (h x : CVec) : Cx := cSum (h.map fun e => cMul e.2 (vAt x e.1))
/-- h^H as a vector. -/
def rowHerm (h : CVec) : CVec := h.map fun e => (e.1, cConj e.2)

/-! ### What the estimator asks of it -/

/-- The pattern of G: for each bus the buses that share a row with it. -/
def patternOf (buses : List Nat) (rows : List WRow) : List (Nat × List Nat) :=
  buses.map fun b => (b, ((rows.filter fun r => (mfind r.2.1 b).isSome).map fun r => r.2.1.map Prod.fst).flatten.dedup)
/-- The buses in the order of elimination: approximate minimum degree (R243), whose ties and approximations the spec leaves open. -/
def busOrder (buses : List Nat) (rows : List WRow) : List Nat :=
  let o := ((Config.minDegree (patternOf buses rows)).filter buses.contains).dedup
  o ++ buses.filter fun b => !o.contains b
/-- The rows that stay active under a factor (R245). -/
def staying (buses : List Nat) (f : Ldl) (rows : List WRow) : List WRow :=
  rows.filter fun r => r.2.1.all fun e => buses.contains e.1 && !f.gone.contains e.1
/-- The factor of the rows of A, its unobservable buses taken out, and the factor of the rows that stay active under it (R245). -/
def estLdl (rows : List WRow) (buses : List Nat) (tol : W64) : Ldl × Ldl :=
  let order := busOrder buses rows
  let f := ldlOf tol order (gainOf rows)
  (f, ldlOf 0 (order.filter fun b => !f.gone.contains b) (gainOf (staying buses f rows)))
/-- Ω_rr = σ² - h G^-1 h^H of a row (R243). -/
def omegaOf (f : Ldl) (r : WRow) : W64 := f64Sub (f64Mul r.2.2 r.2.2) (rowDot r.2.1 (ldlSolve f (rowHerm r.2.1))).1
/-- A factorisation (R243, R245): the entries of L, the unobservable buses, and Ω_rr of each row. -/
def estFactor (rows : List WRow) (buses : List Nat) (tol : W64) : Nat × List Nat × List (Nat × W64) :=
  let f := estLdl rows buses tol
  (f.1.entries, f.1.gone, (staying buses f.1 rows).map fun r => (r.1, omegaOf f.2 r))
/-- C = W_E^-1 - H_E G^-1 H_E^H over the rows of an exclusion set (R246), by row number. -/
def exclusionMat (f : Ldl) (rows : List WRow) : CMat :=
  rows.foldl (fun g a => rows.foldl (fun g b =>
    let own : Cx := if a.1 = b.1 then (f64Mul a.2.2 a.2.2, 0) else (0, 0)
    mAdd g a.1 b.1 (cSub own (rowDot a.2.1 (ldlSolve f (rowHerm b.2.1))))) g) []
/-- The elimination of C in order of the rows: those whose pivot is below `crit` × σ² are left out, and held (R246). -/
def weakRows (crit : W64) : List WRow → CMat → List Nat
  | [], _ => []
  | a :: rest, g =>
    let row := mget [] g a.1
    let d := (vAt row a.1).1
    let g' := matDrop a.1 g
    if f64Lt d (f64Mul crit (f64Mul a.2.2 a.2.2)) then a.1 :: weakRows crit rest g'
    else
      let col := (mdel row a.1).map fun e => (e.1, cDiv (cConj e.2) d)
      weakRows crit rest (col.foldl (fun g x => col.foldl (fun g y => mAdd g x.1 y.1 (cNeg (cScale d (cMul x.2 (cConj y.2))))) g) g')
/-- The rows of an exclusion set that are to be held: `rows` are the active rows of the factor, `ex` the set in its order. -/
def estHeld (rows ex : List WRow) (buses : List Nat) (crit : W64) : List Nat :=
  let f := ldlOf 0 (busOrder buses rows) (gainOf rows)
  weakRows crit ex (exclusionMat f ex)
/-- The estimate x = G^-1 Σ w h^H z over the rows used (R239), by bus; a bus that the rows do not determine has none. -/
def estSolve (rows : List (WRow × Cx)) : CVec :=
  let l := rows.map Prod.fst
  let buses := (l.map fun r => r.2.1.map Prod.fst).flatten.dedup
  let f := ldlOf 0 (busOrder buses l) (gainOf l)
  ldlSolve f (rows.foldl (fun b r => r.1.2.1.foldl (fun b e => vAdd b e.1 (cScale r.1.weight (cMul (cConj e.2) r.2))) b) [])

end Sys2Proof.Machine
end

