-- ==== Sys2Proof/Machine/Est.lean ====
section
/-!
DEFINITION. The linear state estimator (chapter 8): rows, factors, the solve of a slot, the active set and the outputs (R238 to
R256; log entry 20). The linear algebra is that of Linear.lean.
-/
namespace Sys2Proof.Machine

/-! ### Rows (R238, Table 8-2) -/

/-- The elements of a row: a complex factor by bus. -/
abbrev HRow := NMap Cx
/-- Adds an element at a bus. -/
def addElem (h : HRow) (e : Nat × Cx) : HRow := mset h e.1 (match mfind h e.1 with | some x => cAdd x e.2 | none => e.2)
/-- The elements of a branch's current at its f end (`atT` false) or its t end. -/
def branchElems (b : EstBranch) (atT : Bool) : List (Nat × Cx) :=
  let y : Cx := (f32To64 b.gs, f32To64 b.bs)
  let sh : Cx := cAdd y (0, f64Div (f32To64 b.bc) (f64Int 2))
  let tap := if bits b.tap.toNat 0 31 = 0 then one64 else f32To64 b.tap
  let th := f32To64 b.theta
  let e : Cx := (cos64 th, sin64 th)
  if atT then [(b.f, cNeg (cDiv (cMul y (e.1, f64Neg e.2)) tap)), (b.t, sh)]
  else [(b.f, cDiv sh (f64Mul tap tap)), (b.t, cNeg (cDiv (cMul y e) tap))]
/-- The elements of a row under the branches that are out of service. -/
def hRow (m : EstModel) (out : List Nat) (kind elem : Nat) : HRow :=
  let one (k : Nat) (atT : Bool) : List (Nat × Cx) := match mfind m.branches k with
    | some b => if out.contains k then [] else branchElems b atT
    | none => []
  match kind with
  | 0 => [(elem, (one64, 0))]
  | 1 => (one elem false).foldl addElem []
  | 2 => (one elem true).foldl addElem []
  | _ => ((m.branches.map fun e => (if e.2.f = elem then one e.1 false else []) ++ (if e.2.t = elem then one e.1 true else [])).flatten).foldl
      addElem []
/-- A row as the engine uses it: its index (262,144 + b for the implicit row of bus b), kind, bus or branch, channel, elements and σ. -/
structure EstEqn where
  row   : Nat
  kind  : Nat
  elem  : Nat
  chan  : Option Nat
  h     : HRow
  sigma : W64
  deriving DecidableEq, Repr
/-- The implicit row of a bus. -/
def ziRow (b : Nat) : Nat := 262144 + b
/-- The rows of a model. -/
def eqnsOf (m : EstModel) (out : List Nat) : List EstEqn :=
  (m.rows.map fun e =>
    { row := e.1, kind := e.2.kind, elem := e.2.elem, chan := some e.2.chan, h := hRow m out e.2.kind e.2.elem, sigma := f32To64 e.2.sigma }) ++
  (m.buses.filter fun e => e.2.zeroInj).map fun e =>
    { row := ziRow e.1, kind := 4, elem := e.1, chan := none, h := hRow m out 4 e.1, sigma := f32To64 m.config.ziSigma }
/-- A row as the linear algebra takes it. -/
def EstEqn.arg (e : EstEqn) : WRow := (e.row, e.h, e.sigma)
/-- The branches that a row rests on (R242): its branch, or those incident at its bus. -/
def rowBranches (m : EstModel) (kind elem : Nat) : List Nat :=
  match kind with
  | 0 => []
  | 1 => [elem]
  | 2 => [elem]
  | _ => (m.branches.filter fun e => e.2.f = elem || e.2.t = elem).map Prod.fst

/-! ### Row runs -/

/-- A row's run. -/
def rowRun (x : EstRun) (r : Nat) : EstRowRun := mget {} x.rows r
/-- A row's run replaced. -/
def setRow (r : Nat) (y : EstRowRun) (x : EstRun) : EstRun := { x with rows := mput {} x.rows r y }
/-- The rows of A: defined, not disabled, not left. -/
def activeRows (m : EstModel) (x : EstRun) : List Nat :=
  ((m.rows.map Prod.fst) ++ ((m.buses.filter fun e => e.2.zeroInj).map fun e => ziRow e.1)).filter fun r =>
    let y := rowRun x r
    y.inA && !y.disabled
/-- EST_ROWS.ACTIVE. -/
def rowsInA (d : Dev) : Nat := ((activeRows d.cur.est d.est.run).filter fun r => r < 262144).length

/-! ### Factors (R243 to R245) -/

/-- The factor that a factorisation gives, and its entries. -/
def factorOf (m : EstModel) (f : Factoring) : Factor :=
  let eq := (eqnsOf m f.branches).filter fun e => f.rows.contains e.row
  let buses := m.buses.map Prod.fst
  let r := estFactor (eq.map EstEqn.arg) buses (f32To64 m.config.pivotTol)
  let tol := f32To64 m.config.critTol
  let crit := eq.filter fun e => (r.2.2.find? fun o => o.1 = e.row).any fun o => f64Lt o.2 (f64Mul tol (f64Mul e.sigma e.sigma))
  { gen := f.gen, rows := f.rows, branches := f.branches, nnz := r.1, unobs := r.2.1.filter buses.contains, omega := r.2.2,
    critical := crit.map EstEqn.row, buses := buses.length - (r.2.1.filter buses.contains).length }
/-- NNZ of the fill limit. -/
def nnzMax : Nat := 1572864
/-- A factorisation stops at the fill limit, when the entries of L reach it and more would follow (R245). -/
def fillStop (f : Factor) (d : Dev) : Dev := logEv 0x0B02 nnzMax f.rows.length 0 (setFlag 0x0B 0 (bump d 0x0B 11))
/-- A generation has something to factor: a defined row, and an engine that is not disabled (R253, R254). -/
def estHasFactor (g : Gen) : Bool := (estConfig g).isSome && !estOff g && !g.est.rows.isEmpty
/-- A refactorisation of the current generation starts with A and the branches as they are; where there is nothing to factor, none does. -/
def startFactoring (d : Dev) : Dev :=
  let f : Factoring := { gen := d.clk.gen, prep := false, rows := activeRows d.cur.est d.est.run, branches := d.est.run.open_ }
  { d with est := { d.est with running := if estHasFactor d.cur then some f else none, pending := false } }
/-- A refactorisation is requested: it starts, or merges into the pending one. -/
def requestFactor (d : Dev) : Dev :=
  if d.est.running.isSome then { d with est := { d.est with pending := true } } else startFactoring d
/-- The factoriser is free: a pending refactorisation starts. -/
def factoriserFree (d : Dev) : Dev :=
  let d := { d with est := { d.est with running := none } }
  if d.est.pending then startFactoring d else d
/-- EST_REFACTOR_DONE: the refactorisation ends; its factor is ready, or it stopped at the fill limit. Rows that left with the topology
it was made with may rejoin (R242). -/
def execEstRefactorDone : State → Host.Outcome State Fault Refusal := runEng fun d =>
  match d.est.running with
  | some f =>
    if f.prep then d
    else
      let x := factorOf d.cur.est f
      let d := bump d 0x0B 10
      let done (r : EstRowRun) : EstRowRun := if !r.inA && decide (r.cause = .topology) && f.branches = d.est.run.open_ then
        { r with topoDone := true } else r
      if f.gen != d.clk.gen then factoriserFree d
      else if nnzMax < x.nnz then factoriserFree (fillStop x d)
      else
        let run := { d.est.run with rows := d.est.run.rows.map fun e => (e.1, done e.2) }
        factoriserFree { d with est := { d.est with ready := some x, run := run } }
  | none => d
/-- EST_PREPARATION_DONE: the factor of the new generation is prepared (R252); one that ends after the switch tick is ready. -/
def execEstPreparationDone : State → Host.Outcome State Fault Refusal := runEng fun d =>
  match d.est.running with
  | some f =>
    if !f.prep then d
    else
      let m := if f.gen = d.clk.gen then d.cur.est else d.staged.est
      let x := factorOf m f
      if nnzMax < x.nnz then factoriserFree (fillStop x { d with est := { d.est with failed := f.gen :: d.est.failed } })
      else if f.gen = d.clk.gen then factoriserFree { d with est := { d.est with ready := some x } }
      else factoriserFree { d with est := { d.est with prepared := some x } }
  | none => d

/-! ### Preparation of a generation (R252, R253) -/

/-- A row is disabled for a generation. -/
def rowOff (g : Gen) (r : EstRow) : Bool :=
  let e := entryOf g r.chan
  let contributors := (membsOf g g.est.config.ostream).map fun m => m.2.stream
  !(e.type = 1 || (e.type = 6 && e.format = 0)) || !e.est || e.qty != (if r.kind = 0 then 0 else 1) || !contributors.contains e.stream
/-- A row of a model is unchanged from another: channel, kind and element (R253); an implicit row where both have it. -/
def sameRow (m o : EstModel) (r : Nat) : Bool :=
  if r < 262144 then match mfind m.rows r, mfind o.rows r with
    | some a, some b => a.chan = b.chan && a.kind = b.kind && a.elem = b.elem
    | _, _ => false
  else (mfind m.buses (r - 262144)).any EstBus.zeroInj && (mfind o.buses (r - 262144)).any EstBus.zeroInj
/-- Preparation at the acceptance of GEN_SWITCH: `n` is the new generation's number. -/
def estPrepare (n : W16) (d : Dev) : Dev :=
  let m := d.staged.est
  let clear (d : Dev) : Dev := { d with est := { d.est with prepared := none, prepOff := [], abandoned := false } }
  if !m.config.enable then clear d
  else if estOff d.staged then
    logEv 0x0B05 0xFFFFFFFF 0 n.toNat (setFlag 0x0B 1 (clear { d with est := { d.est with failed := n :: d.est.failed } }))
  else
    let busy := (d.est.running.any fun f => !f.prep) || d.est.pending
    let d := if busy then logEv 0x0B06 d.clk.gen.toNat 0 0 (setFlag 0x0B 6 (bump d 0x0B 15)) else d
    let off := (m.rows.filter fun e => rowOff d.staged e.2).map Prod.fst
    let keep (r : Nat) : Bool := !off.contains r && (if sameRow m d.cur.est r then (rowRun d.est.run r).inA else true)
    let rows := ((m.rows.map Prod.fst) ++ ((m.buses.filter fun e => e.2.zeroInj).map fun e => ziRow e.1)).filter keep
    let d := { d with est := { d.est with prepared := none, prepOff := off, abandoned := busy, pending := false, running := none } }
    let d := match off with
      | [] => d
      | r :: _ => logEv 0x0B05 off.length r n.toNat (setFlag 0x0B 1 d)
    if m.rows.isEmpty then { d with est := { d.est with failed := n :: d.est.failed } }
    else { d with est := { d.est with running := some { gen := n, prep := true, rows := rows, branches := [] } } }
/-- GEN_CANCEL: the preparation is discarded, and an abandoned refactorisation starts again. -/
def estCancel (d : Dev) : Dev :=
  let stop := d.est.running.any Factoring.prep
  let again := d.est.abandoned
  let n := d.clk.gen + 1
  let d := { d with est := { d.est with
    prepared := none, prepOff := [], abandoned := false, failed := d.est.failed.filter (· != n)
    running := if stop then none else d.est.running } }
  if again then requestFactor d else if stop && d.est.pending then startFactoring d else d
/-- The switch tick: the new generation takes its rows and its prepared factor; `old` is the generation before it. A refactorisation that was
requested since the preparation began, and has not ended, is one of the new generation (log entry 20). -/
def estSwitch (old : Gen) (d : Dev) : Dev :=
  let kept := (d.est.run.rows.filter fun e => sameRow d.cur.est old.est e.1).map fun e => (e.1, { e.2 with disabled := false })
  let rows := d.est.prepOff.foldl (fun l r => mset l r { mget {} l r with disabled := true }) kept
  let again := (d.est.running.any fun f => !f.prep) || d.est.pending
  let d := { d with est := { d.est with
    oldRun := d.est.run
    run := { rows := rows }
    ready := d.est.prepared
    prepared := none
    pending := false
    abandoned := false
    running := d.est.running.filter Factoring.prep
    failed := d.est.failed.filter (· = d.clk.gen) } }
  if again then requestFactor d else d
/-- Retirement: the old model is given up. -/
def estRetire (d : Dev) : Dev := { d with est := { d.est with oldRun := {} } }

/-! ### A slot (R240, R246 to R248) -/

/-- The value of a channel as the engines see it (R150): in the record's own values, valid, with the engine's bit. -/
def engVal (g : Gen) (r : Record) (use : DirEntry → Bool) (chan : Nat) : Option W64 :=
  if !use (entryOf g chan) then none
  else ((r.contribs.findSome? fun c => mfind c.all chan)).filter fun v => !isInvalid v
/-- The branches out of service after a slot's statuses: an invalid one leaves the branch as it was. -/
def branchesAfter (g : Gen) (r : Record) (out : List Nat) : List Nat :=
  (g.est.branches.filter fun e => match e.2.status with
    | none => false
    | some (c, b, level) => match engVal g r (fun x => x.est && x.type = 5) c with
      | some v => bit v.toNat b == level
      | none => out.contains e.1).map Prod.fst
/-- The value of a row in a slot; the implicit rows measure 0. -/
def rowValue (g : Gen) (r : Record) (e : EstEqn) : Option Cx :=
  match e.chan with
  | none => some (0, 0)
  | some c => (engVal g r DirEntry.est c).map fun v => (phRe v, phIm v)
/-- h x, where every bus of h is solved. -/
def evalRow (x : NMap Cx) (h : HRow) : Option Cx :=
  h.foldl (fun acc e => match acc, mfind x e.1 with
    | some a, some v => some (cAdd a (cMul e.2 v))
    | _, _ => none) (some (0, 0))
/-- The estimate from the rows used and their values. -/
def solveRows (eq : List EstEqn) (z : Nat → Cx) : NMap Cx :=
  estSolve (eq.map fun e => (EstEqn.arg e, z e.row))
/-- The residual of a row: its square magnitude. -/
def resid2 (x : NMap Cx) (z : Nat → Cx) (e : EstEqn) : W64 :=
  match evalRow x e.h with
  | some v => cAbs2 (cAdd (z e.row) (cNeg v))
  | none => 0
/-- J. -/
def objective (eq : List EstEqn) (x : NMap Cx) (z : Nat → Cx) : W64 :=
  f64Sum (eq.map fun e => f64Div (resid2 x z e) (f64Mul e.sigma e.sigma))
/-- z of R248 by ALPHA. -/
def alphaZ (a : Nat) : W64 := [0x3FFA51EB851EB852, 0x40029BA5E353F7CF, 0x4008B851EB851EB8].getD a 0
/-- χ²(ν) of R248. -/
def chiLimit (alpha : Nat) (nu : Int) : W64 :=
  let n := f64Int nu
  let a := f64Div (f64Int 2) (f64Mul (f64Int 9) n)
  let t := f64Add (f64Sub one64 a) (f64Mul (alphaZ alpha) (f64Sqrt a))
  f64Mul n (f64Mul t (f64Mul t t))
/-- The normalised residual of a row (R246). -/
def normResid (f : Factor) (x : NMap Cx) (z : Nat → Cx) (e : EstEqn) : Option W64 :=
  (mfind f.omega e.row).map fun o => f64Div (f64Sqrt (resid2 x z e)) (f64Sqrt o)
/-- Rows with their normalised residuals, largest first; of equal ones the lower row first. -/
def insertRn (a : Nat × W64) : List (Nat × W64) → List (Nat × W64)
  | [] => [a]
  | b :: t => if f64Lt b.2 a.2 then a :: b :: t else b :: insertRn a t
/-- The removal loop's state (R246). -/
structure EstLoop where
  used    : List EstEqn
  x       : NMap Cx
  j       : W64
  nu      : Int
  removed : List (Nat × W64) := []
  batch   : List Nat := []
  batches : Nat := 0
  deriving DecidableEq, Repr
/-- The loop's state over a set of rows. -/
def EstLoop.fresh (n : Nat) (z : Nat → Cx) (used : List EstEqn) (s : EstLoop) : EstLoop :=
  let x := solveRows used z
  { s with used := used, x := x, j := objective used x z, nu := 2 * ((used.length : Int) - n) }
/-- The bad-data removal (R246): `fuel` is BD_MAX. -/
def removeBad (c : EstConfig) (f : Factor) (z : Nat → Cx) (held : List Nat) : Nat → EstLoop → EstLoop
  | 0, s => s
  | fuel + 1, s =>
    if s.nu ≤ 0 || !f64Lt (chiLimit c.alpha s.nu) s.j then s
    else
      let cand := (s.used.filter fun e => !held.contains e.row && !f.critical.contains e.row).filterMap fun e =>
        (normResid f s.x z e).map fun rn => (e.row, rn)
      let l := (cand.foldr insertRn []).filter fun e => f64Lt (f32To64 c.rnLimit) e.2
      match l with
      | [] => s
      | (k, rn) :: _ =>
        let take (s : EstLoop) : EstLoop := EstLoop.fresh f.buses z (s.used.filter fun e => e.row != k) { s with removed := s.removed ++ [(k, rn)] }
        if s.batch.contains k then removeBad c f z held fuel (take s)
        else if s.batches = 2 then s
        else
          let b := (l.take (c.bdMax - s.removed.length)).map Prod.fst
          removeBad c f z held fuel (take { s with batch := s.batch ++ b, batches := s.batches + 1 })
/-- What a slot gives (R246 to R251). -/
structure EstOut where
  status   : Nat
  excluded : List Nat := []
  held     : List Nat := []
  overflow : Bool := false
  bdLimit  : Bool := false
  batchLim : Bool := false
  noRedund : Bool := false
  j        : W64 := 0
  chi      : W64 := 0
  nu       : Int := 0
  m        : Nat := 0
  removed  : List (Nat × W64) := []
  x        : NMap Cx := []
  used     : List EstEqn := []
  fseq     : W16 := 0
  buses    : Nat := 0
  unobs    : List Nat := []
  crit     : List Nat := []
  norms    : NMap W64 := []
  deriving DecidableEq, Repr
/-- The solve of a slot with a factor: `left` are the rows excluded by a topology change in this slot, `run` the rows before it. -/
def solveSlot (g : Gen) (r : Record) (f : Factor) (run : EstRun) (left : List Nat) (slotNo : Nat) : EstOut :=
  let c := g.est.config
  let eq := (eqnsOf g.est f.branches).filter fun e => f.rows.contains e.row && e.h.all fun b => (mfind g.est.buses b.1).isSome && !f.unobs.contains b.1
  let gone (e : EstEqn) : Bool := !(rowRun run e.row).inA
  let g1 := eq.filter fun e => left.contains e.row
  let g2 := eq.filter fun e => !left.contains e.row && gone e
  let g3 := eq.filter fun e => !left.contains e.row && !gone e && (rowValue g r e).isNone
  let all := g1 ++ g2 ++ g3
  let first := all.take c.xmax
  let low := estHeld (eq.map EstEqn.arg) (first.map EstEqn.arg) ((g.est.buses.map Prod.fst).filter fun b => !f.unobs.contains b) (f32To64 c.critTol)
  let weak (e : EstEqn) : Bool := low.contains e.row
  let ex := first.filter fun e => !weak e
  let held := all.drop c.xmax ++ first.filter weak
  let heldRows := held.map EstEqn.row
  let pseudo (e : EstEqn) : Option Cx := match (rowRun run e.row).pseudo with
    | some p => if slotNo ≤ p.2.2 + c.holdSlots then some (p.1, p.2.1) else none
    | none => none
  let base : EstOut := { status := 2, excluded := ex.map EstEqn.row, held := heldRows, overflow := c.xmax < all.length, buses := f.buses,
                         unobs := f.unobs, crit := f.critical, m := eq.length - ex.length }
  if held.any fun e => (pseudo e).isNone then base
  else
    let used := eq.filter fun e => !(ex.map EstEqn.row).contains e.row
    let zs : NMap Cx := used.foldl (fun m e =>
      match if heldRows.contains e.row then pseudo e else rowValue g r e with
      | some v => mset m e.row v
      | none => m) []
    let z (row : Nat) : Cx := mget (0, 0) zs row
    let s0 : EstLoop := { used := [], x := [], j := 0, nu := 0 }
    let s := removeBad c f z heldRows c.bdMax (EstLoop.fresh f.buses z used s0)
    let over_ := 0 < s.nu && f64Lt (chiLimit c.alpha s.nu) s.j
    { base with
      status := if over_ then 1 else 0, bdLimit := s.removed.length = c.bdMax, batchLim := s.batches = 2,
      noRedund := s.nu ≤ 0, j := s.j, chi := if s.nu ≤ 0 then 0 else chiLimit c.alpha s.nu, nu := s.nu, m := s.used.length,
      removed := s.removed, x := s.x, used := s.used.filter fun e => !heldRows.contains e.row,
      norms := s.used.foldl (fun m e => match normResid f s.x z e with | some v => mset m e.row v | none => m) [] }

/-! ### The active set (R242) -/

/-- A row change in the log: those of at most 64 rows per TAI second (R259). -/
def rowChange (code row why : Nat) (d : Dev) : Dev :=
  let l := if d.est.rowLog.1 = d.tod.sec then d.est.rowLog.2 else []
  let l' := if l.contains row || 64 ≤ l.length then l else row :: l
  if l'.contains row then logEv code row why 0 { d with est := { d.est with rowLog := (d.tod.sec, l') } } else d
/-- A row leaves A. -/
def leaveA (row why : Nat) (d : Dev) : Dev := rowChange 0x0B03 row why (setFlag 0x0B 5 (bump d 0x0B 12))
/-- A row rejoins A. -/
def joinA (row why : Nat) (d : Dev) : Dev := rowChange 0x0B04 row why (bump d 0x0B 13)
/-- One row after a delivered slot: its new run, and the change of A with its cause. `here` says that it was valid, `bad` that it was
removed, `topo` that a branch of it changed, `back` that its branches are as in the factor in force. -/
def rowAfter (c : EstConfig) (y : EstRowRun) (here bad topo back : Bool) : EstRowRun × Option (Bool × Nat) :=
  if y.disabled then (y, none)
  else if y.inA then
    let a := if here then 0 else min 255 (y.absentN + 1)
    let b := if bad then min 255 (y.badN + 1) else 0
    if topo then ({ y with inA := false, cause := .topology, absentN := 0, badN := 0, joinN := 0, topoDone := false }, some (false, 2))
    else if c.leaveN ≤ a then ({ y with inA := false, cause := .absent, absentN := 0, badN := 0, joinN := 0 }, some (false, 0))
    else if c.leaveN ≤ b then ({ y with inA := false, cause := .bad, absentN := 0, badN := 0, joinN := 0 }, some (false, 1))
    else ({ y with absentN := a, badN := b }, none)
  else match y.cause with
    | .absent =>
      let j := if here then min 255 (y.joinN + 1) else 0
      if c.joinN ≤ j then ({ y with inA := true, joinN := 0 }, some (true, 0)) else ({ y with joinN := j }, none)
    | .bad => (y, none)
    | .topology =>
      if topo then ({ y with topoDone := false }, none)
      else if back || y.topoDone then ({ y with inA := true, topoDone := false }, some (true, 1))
      else (y, none)
/-- The run of a generation replaced. -/
def setEstRun (old : Bool) (x : EstRun) (d : Dev) : Dev :=
  { d with est := if old then { d.est with oldRun := x } else { d.est with run := x } }
/-- One row's counts, pseudo value and membership after a delivered slot; the flag says that A changed. A slot that solved nothing for the
row leaves no pseudo value, one that was not SOLVED or FLAGGED keeps it (R247). -/
def rowStep (g : Gen) (r : Record) (old : Bool) (out fb changed : List Nat) (o : EstOut) (s : Bool × Dev) (e : EstEqn) : Bool × Dev :=
  let d := s.2
  let x := if old then d.est.oldRun else d.est.run
  let y := rowRun x e.row
  let br := rowBranches g.est e.kind e.elem
  let a := rowAfter g.est.config y (rowValue g r e).isSome (o.removed.any fun k => k.1 = e.row) (br.any changed.contains)
    (br.all fun b => out.contains b == fb.contains b)
  let ps := if o.status ≤ 1 then (evalRow o.x e.h).map fun v => (v.1, v.2, d.est.slotNo) else y.pseudo
  let z : EstRowRun := { a.1 with pseudo := ps, lastRn := (mfind o.norms e.row).getD a.1.lastRn }
  let d := setEstRun old (setRow e.row z x) d
  match a.2 with
  | none => (s.1, d)
  | some (joined, why) => (true, if joined then joinA e.row why d else leaveA e.row why d)
/-- The persistence counts, pseudo values and branch states after a delivered slot; a change of A requests one refactorisation, with A as it
is after all the slot's rows (R242, R243). -/
def afterSlot (g : Gen) (r : Record) (old : Bool) (out : List Nat) (changed : List Nat) (o : EstOut) (d : Dev) : Dev :=
  let x0 := if old then d.est.oldRun else d.est.run
  let fb := (x0.factor.map Factor.branches).getD []
  let d := bumpN (setEstRun old { x0 with open_ := out, refOpen := out } d) 0x0B 14 changed.length
  let s := (eqnsOf g.est fb).foldl (rowStep g r old out fb changed o) (false, d)
  if s.1 && !old then requestFactor s.2 else s.2

/-! ### Delivery (R250, R251, R256) -/

/-- The flags of the quality record (Table 8-7). -/
def estFlagBits (d : Dev) (r : Record) (o : EstOut) (cold : Bool) : Nat :=
  estBaseFlags r cold d + 2 * b2n (!o.held.isEmpty) + 4 * b2n o.overflow + 8 * b2n o.bdLimit + 16 * b2n o.batchLim + 32 * b2n o.noRedund +
    64 * b2n (!o.unobs.isEmpty)
/-- The value of an output (Table 8-6). -/
def estOutVal (g : Gen) (e : DirEntry) (o : EstOut) (fb : List Nat) (flags : Nat) : W64 :=
  let none1 := invalidVal 1
  let n := e.outnum
  let cx (v : Option Cx) : W64 := match v with | some x => phasorOut x.1 x.2 | none => none1
  if n = 1048576 then digitalOut (scaleOf g e.scale) (o.status + flags % 512 * 16)
  else if 2 ≤ o.status then none1
  else if n < 65536 then cx (mfind o.x n)
  else if n < 327680 then
    match mfind g.est.rows (n - 65536) with
    | some r => cx (evalRow o.x (hRow g.est fb r.kind r.elem))
    | none => none1
  else if n < 589824 then
    let row := n - 327680
    if (o.used.any fun q => q.row = row) && !o.crit.contains row then ((mfind o.norms row).map realOut).getD none1 else none1
  else match n with
    | 1048577 => realOut o.j
    | 1048578 => if o.nu ≤ 0 then none1 else realOut o.chi
    | 1048579 => f64Int o.removed.length
    | 1048580 => f64Int o.buses
    | _ => none1
/-- The values of a DERIVED stream's run: `origin` names the engine (R152). -/
def derivedVals (g : Gen) (stream origin : Nat) (val : DirEntry → W64) : List W64 :=
  match mfind g.streams stream with
  | none => []
  | some s => (rangeFrom s.firstChan s.count).map fun c => let e := entryOf g c; if e.origin = origin then val e else invalidVal 1
/-- The quality record. -/
def estRecord (r : Record) (o : EstOut) (flags took : Nat) (d : Dev) : Dev :=
  postRecord 8 (slotBytes r.summary ++ leBytes 1 0x0B ++ leBytes 1 o.status ++ leBytes 2 flags ++ leBytes 8 o.j.toNat ++ leBytes 8 o.chi.toNat ++
    leBytes 4 (unsigned 32 o.nu) ++ leBytes 4 o.m ++ leBytes 2 o.excluded.length ++ leBytes 2 o.held.length ++ leBytes 1 o.removed.length ++ [0] ++
    leBytes 2 o.fseq.toNat ++ leBytes 4 (if 2 ≤ o.status then 0 else o.buses) ++ leBytes 4 took)
    [((List.range 8).map fun i => leBytes 4 ((o.removed[i]?).map Prod.fst |>.getD 0xFFFFFFFF)).flatten ++
      ((List.range 8).map fun i => leBytes 4 ((o.removed[i]?).map (fun p => (f64To32 p.2).toNat) |>.getD 0)).flatten] d
/-- The counters and flags of a delivered slot (R257). -/
def estCount (o : EstOut) (d : Dev) : Dev :=
  let d := bump d 0x0B (1 + o.status)
  let d := bumpN (bumpN (bumpN d 0x0B 6 o.removed.length) 0x0B 7 o.excluded.length) 0x0B 8 o.held.length
  let d := if o.overflow then tally tallyExcl 0 1 0 (setFlag 0x0B 2 (bump d 0x0B 9)) else d
  let d := if o.held.isEmpty then d else setFlag 0x0B 3 d
  if 2 ≤ o.status then setFlag 0x0B 4 d else d
/-- What is solved for a slot: without a factor status 3 while one of its generation is in progress or ready, else 4. -/
def estSlot (g : Gen) (r : Record) (x : EstRun) (changed : List Nat) (d : Dev) : EstOut :=
  match if estOff g then none else x.factor with
  | some f =>
    let left := (eqnsOf g.est f.branches).filter fun e => (rowBranches g.est e.kind e.elem).any changed.contains
    { solveSlot g r f x (left.map EstEqn.row) d.est.slotNo with fseq := f.seq }
  | none =>
    let n := r.summary.gen
    { status := if !estOff g && ((d.est.running.any fun f => f.gen = n) || (d.est.ready.any fun f => f.gen = n)) then 3 else 4 }
/-- The delivery of a slot under its generation: outputs, quality record, counts and alarms; a report that finds no room is a shed (R255). -/
def estDeliver (g : Gen) (r : Record) (d : Dev) : Dev :=
  let c := g.est.config
  let old := r.summary.gen != d.clk.gen
  let x := if old then d.est.oldRun else d.est.run
  let out := branchesAfter g r x.open_
  let changed := (out.filter fun b => !x.refOpen.contains b) ++ x.refOpen.filter fun b => !out.contains b
  let o := estSlot g r x changed d
  let cold := x.cold && 2 ≤ o.status
  let flags := estFlagBits d r o cold
  let fb := (x.factor.map Factor.branches).getD []
  let sent := if estOff g then (true, d) else
    enterInternal c.stream r.summary.sec (BitVec.ofNat 32 (tickStartNs r.summary.tick)) (derivedVals g c.stream 2 fun e => estOutVal g e o fb flags) d
  if !sent.1 then estShed r sent.2
  else
    let d := sent.2
    let d := setEstRun old { x with cold := cold } { d with est := { d.est with last := BitVec.ofNat 3 o.status } }
    let d := estCount o (estRecord r o flags (nowNs d - r.commitNs) d)
    let d := afterSlot g r old out changed o d
    almSettle d (estAlarms c (recCtx r) o.status o.removed o.j o.chi o.unobs.length d)
/-- EST_SLOT_DELIVERED: the slot in work is delivered. -/
def execEstSlotDelivered : State → Host.Outcome State Fault Refusal := runEng fun d =>
  match d.est.working with
  | none => d
  | some r =>
    let d := { d with est := { d.est with working := none } }
    match genByNum d r.summary.gen with
    | none => d
    | some g => estDeliver g r d
/-- A ready factor is installed at the first slot of its generation (R244); the first one of a generation begins its COLD period. -/
def installFactor (r : Record) (d : Dev) : Dev :=
  match d.est.ready.filter fun f => r.summary.gen = f.gen with
  | none => d
  | some f =>
    let n := d.est.fseq + 1
    let run := { d.est.run with factor := some { f with seq := n }, open_ := [], refOpen := f.branches, cold := d.est.run.cold || d.est.run.factor.isNone }
    logEv 0x0B01 n.toNat f.nnz f.unobs.length { d with est := { d.est with fseq := n, run := run, ready := none } }
/-- EST_SLOT_START: the engine is free, a ready factor is installed, and the slot's solve begins. -/
def execEstSlotStart : State → Host.Outcome State Fault Refusal := runEng fun d =>
  match d.est.working, d.est.notices with
  | none, r :: rest =>
    let d := installFactor r d
    { d with est := { d.est with notices := rest, working := some r } }
  | _, _ => d

end Sys2Proof.Machine
end

