-- ==== Sys2Proof/Machine/EstCmd.lean ====
section
/-!
DEFINITION. The estimator's commands (chapter 8, Tables 8-11 and 8-12), and the table loads shared by the engines.
-/
namespace Sys2Proof.Machine

/-! ### Loads of an engine's tables (R258, R284, R300) -/

/-- An engine's table: entries, bytes per entry. -/
structure EngTable where
  size  : Nat
  width : Nat
  deriving DecidableEq, Repr

/-- The start of a load or clear: the table exists, then the checks of R160. -/
def engLoad (h : Hdr) (tables : Nat → Option EngTable) (p : LoadP) (start : Dev → Dev) (d : Dev) : Answer :=
  match tables p.table.toNat with
  | some t => loadChecks h t.size p (fun d => goesOn (start d)) d
  | none => checks [(stagedShut d, .generationConflict)] (reject .badParam) d
/-- The entries of a load checked one by one, the first failing index returned with BAD_PARAM; else all are written in one step. -/
def engEntries (first : Nat) (bad : Bytes → Bool) (put : Gen → Nat → Bytes → Gen) (es : List Bytes) (d : Dev) : Answer :=
  match es.zipIdx.find? fun e => bad e.1 with
  | some e => (d, some (.badParam, leBytes 4 (first + e.2)))
  | none => okay { d with staged := es.zipIdx.foldl (fun g e => put g (first + e.2) e.1) d.staged }
/-- A load reaches its step. -/
def engDone (l : LoadRun) (tables : Nat → Option EngTable) (bad : Nat → Bytes → Bool) (put : Nat → Gen → Nat → Bytes → Gen) (data : Bytes)
    (readOk : Bool) (d : Dev) : Dev :=
  match tables l.p.table.toNat with
  | some t => endLoad l (loadAnswer l t.width data readOk (fun b =>
      engEntries l.p.first.toNat (bad l.p.table.toNat) (put l.p.table.toNat) (chunksOf t.width l.p.count.toNat b)) d)
  | none => d

/-! ### EST_CONFIG -/

/-- The configuration of EST_CONFIG's parameters. -/
def estConfigOf (p : EstConfigP) : EstConfig :=
  { enable := p.enable = 1, ostream := p.ostream.toNat, stream := p.stream.toNat, alpha := p.alpha.toNat, rnLimit := p.rnLimit,
    bdMax := p.bdMax.toNat, xmax := p.xmax.toNat, leaveN := p.leaveN.toNat, joinN := p.joinN.toNat, holdSlots := p.holdSlots.toNat,
    ziSigma := p.ziSigma, pivotTol := p.pivotTol, critTol := p.critTol, chiN := p.chiN.toNat, suspectN := p.suspectN.toNat,
    unsolvedN := p.unsolvedN.toNat, obsLimit := p.obsLimit.toNat }
/-- A parameter outside its range or Table 8-1. -/
def estConfigBad (p : EstConfigP) : Bool :=
  1 < p.enable.toNat || 4095 < p.ostream.toNat || 262143 < p.stream.toNat || 2 < p.alpha.toNat || 8 < p.bdMax.toNat ||
  64 < p.xmax.toNat || p.leaveN = 0 || p.joinN = 0 || p.holdSlots = 0 || p.chiN = 0 || p.suspectN = 0 || p.unsolvedN = 0
/-- An O-stream of the staged generation that an engine cannot follow: none, or above 120 frames/s. -/
def rateBad (g : Gen) (ostream : Nat) : Bool := match mfind g.os ostream with | some o => 120 < o.rate | none => true
/-- EST_CONFIG. -/
def execEstConfig (h : Hdr) (p : EstConfigP) : State → Host.Outcome State Fault Refusal :=
  cmdPlain h 0x0601 p.bytes fun d =>
    let c := estConfigOf p
    stageFree (estConfigBad p || rateBad d.staged c.ostream || !derivedFits d.staged c.stream c.ostream)
      (fun g => { g with est := { g.est with config := c } }) d

/-! ### The model's entries (Table 8-11) -/

/-- The estimator's tables. -/
def estTables : Nat → Option EngTable
  | 0 => some { size := 65536, width := 16 }
  | 1 => some { size := 131072, width := 32 }
  | 2 => some { size := 262144, width := 16 }
  | _ => none
/-- An entry that EST_LOAD refuses, DEFINED or not (R258): a reserved bit, or an element out of range. -/
def estBad (table : Nat) (b : Bytes) : Bool :=
  let w0 := leAt b 0 4
  let pos (v : W32) : Bool := f32Fin v && f32Lt 0 v
  let fin (o : Nat) : Bool := f32Fin (BitVec.ofNat 32 (leAt b o 4))
  match table with
  | 0 => 3 < w0 || !allZero (cut b 8 8) || !pos (BitVec.ofNat 32 (leAt b 4 4))
  | 1 => !allZero (cut b 28 4) || !fin 4 || !fin 8 || !fin 12 || !fin 16 || !fin 20
  | _ => bits w0 28 3 != 0 || leAt b 4 4 / 2 ^ 17 != 0 || !allZero (cut b 12 4) || 3 < bits w0 25 3 ||
    ((bits w0 25 3 = 0 || bits w0 25 3 = 3) && 65535 < leAt b 4 4) || !pos (BitVec.ofNat 32 (leAt b 8 4))
/-- A branch entry that is DEFINED. -/
def estBranchOf (b : Bytes) : EstBranch :=
  let w := leAt b 24 4
  let r (o : Nat) : W32 := BitVec.ofNat 32 (leAt b o 4)
  { f := leAt b 0 2, t := leAt b 2 2, gs := r 4, bs := r 8, bc := r 12, tap := r 16, theta := r 20,
    status := if bit w 30 then some (bits w 0 25, bits w 25 4, bit w 29) else none }
/-- Writes an entry of a table; one that is not DEFINED removes it. -/
def estPut (table : Nat) (g : Gen) (i : Nat) (b : Bytes) : Gen :=
  let m := g.est
  let w0 := leAt b 0 4
  let bus : EstBus := { zeroInj := bit w0 1, vnom := BitVec.ofNat 32 (leAt b 4 4) }
  let row : EstRow := { chan := bits w0 0 25, kind := bits w0 25 3, elem := bits (leAt b 4 4) 0 17, sigma := BitVec.ofNat 32 (leAt b 8 4) }
  let m := match table with
    | 0 => { m with buses := if bit w0 0 then mset m.buses i bus else mdel m.buses i }
    | 1 => { m with branches := if bit (leAt b 24 4) 31 then mset m.branches i (estBranchOf b) else mdel m.branches i }
    | _ => { m with rows := if bit w0 31 then mset m.rows i row else mdel m.rows i }
  { g with est := m }
/-- EST_LOAD. -/
def execEstLoad (h : Hdr) (p : LoadP) : State → Host.Outcome State Fault Refusal :=
  cmd h 0x0602 (p.bytes true) (p.source = 0) (engLoad h estTables p fun d =>
    { d with est := { d.est with loads := d.est.loads ++ [loadRun h p] } })
/-- EST_LOAD_DONE. -/
def execEstLoadDone (data : Bytes) (readOk : Bool) : State → Host.Outcome State Fault Refusal := runLive fun d =>
  match d.est.loads with
  | [] => d
  | l :: rest => engDone l estTables estBad estPut data readOk { d with est := { d.est with loads := rest } }
/-- EST_CLEAR. -/
def execEstClear (h : Hdr) (table : Byte) (first count : W32) : State → Host.Outcome State Fault Refusal :=
  cmdPlain h 0x0603 (pk table ++ pk first ++ pk count) fun d =>
    let f := first.toNat
    let n := count.toNat
    stageFree (match estTables table.toNat with | some t => rangeBad t.size f n | none => true) (fun g =>
      let m := g.est
      let m := match table.toNat with
        | 0 => { m with buses := mclear m.buses f n }
        | 1 => { m with branches := mclear m.branches f n }
        | _ => { m with rows := mclear m.rows f n }
      { g with est := m }) d

/-! ### Status and rows -/

/-- EST_STAT. -/
def estStat (d : Dev) : Nat :=
  let fact := match d.est.running with
    | some f => if f.prep then (if d.est.abandoned then 4 else 3) else if d.est.pending then 2 else 1
    | none => 0
  fact * 2 ^ 29 + d.est.last.toNat * 2 ^ 26 + b2n d.est.run.cold * 2 ^ 25 + b2n d.est.run.factor.isSome * 2 ^ 24 + d.est.fseq.toNat
/-- A number of the factor in force, 0 without one. -/
def estFactNum (d : Dev) (f : Factor → Nat) : Nat := (d.est.run.factor.map f).getD 0
/-- The state of the preparation: 0 none, 1 in progress, 2 complete, 3 failed (log entry 11). -/
def estPrepState (d : Dev) : Nat :=
  if d.est.running.any Factoring.prep then 1 else if d.est.prepared.isSome then 2
  else if d.clk.pending.isSome && d.est.failed.contains (stagedNum d) then 3 else 0
/-- EST_STATUS. -/
def execEstStatus (h : Hdr) : State → Host.Outcome State Fault Refusal :=
  cmdPlain h 0x0604 [] fun d => okayWith (leBytes 4 (estStat d) ++ leBytes 4 (estFactNum d Factor.nnz) ++ leBytes 4 (estFactNum d Factor.buses) ++
    leBytes 4 (estFactNum d fun f => f.unobs.length) ++ leBytes 4 (rowsInA d) ++ leBytes 1 (estPrepState d) ++ leBytes 4 d.est.prepOff.length ++
    leBytes 4 (d.est.prepOff.head?.getD 0)) d
/-- EST_REFACTOR. -/
def execEstRefactor (h : Hdr) : State → Host.Outcome State Fault Refusal :=
  cmdPlain h 0x0605 [] fun d => checks [(d.est.running.any Factoring.prep, .notPermitted)] (fun d => okay (requestFactor d)) d
/-- EST_ROW_RELEASE (R242): a row that left as BAD rejoins. -/
def execEstRowRelease (h : Hdr) (row : W32) : State → Host.Outcome State Fault Refusal :=
  cmdPlain h 0x0606 (pk row) fun d =>
    let y := rowRun d.est.run row.toNat
    checks [(327680 ≤ row.toNat, .badParam), (y.inA || y.disabled || y.cause != .bad, .nothingToAbort)] (fun d =>
      let d := setEstRun false (setRow row.toNat { y with inA := true, badN := 0 } d.est.run) d
      okay (requestFactor (joinA row.toNat 2 d))) d
/-- EST_ROW_STATUS. -/
def execEstRowStatus (h : Hdr) (row : W32) : State → Host.Outcome State Fault Refusal :=
  cmdPlain h 0x0607 (pk row) fun d =>
    let r := row.toNat
    let y := rowRun d.est.run r
    let cause := match y.cause with | .absent => 0 | .bad => 1 | .topology => 2
    let w (v : W64) : Bytes := leBytes 8 v.toNat
    checks [(262144 ≤ r, .badParam)] (fun d =>
      if (mfind d.cur.est.rows r).isNone then okayWith (List.replicate 21 0) d
      else
        let f := d.est.run.factor
        okayWith (leBytes 1 (b2n (y.inA && !y.disabled)) ++ leBytes 1 (if y.inA then 0 else cause) ++
          leBytes 1 (b2n (f.any fun f => f.critical.contains r)) ++ w ((f.bind fun f => mfind f.omega r).getD 0) ++ w y.lastRn ++
          leBytes 1 (max y.absentN y.badN) ++ leBytes 1 y.joinN) d) d

end Sys2Proof.Machine
end

