-- ==== Sys2Proof/Machine/Log.lean ====
section
/-!
DEFINITION. The event log (chapter 17): flushes into MRAM, the reading of the log at start-up, and the LOG commands.
-/
namespace Sys2Proof.Machine

/-- Records the MRAM area holds (R469). -/
def logArea : Nat := 131072

/-- The software on the control processors runs (R452, R459, R527): firmware or Fawn, neither restarting nor stalled. -/
def softRuns (d : Dev) : Bool := (d.cmd.fwUp || d.cmd.loader) && !d.cmd.fwRestarting && !stalledIn d 4

/-! ### Flushing (R468 to R470) -/

/-- The lower of a severity and the lowest one noted so far. -/
def lowerSev (s : Sev) : Option Sev → Sev
  | some t => if sevNum t < sevNum s then t else s
  | none => s

/-- One flushed record under the overwrite rule of R469. -/
def storeRec (d : Dev) (r : LogRec) : Dev :=
  let put (l : List LogRec) (d : Dev) : Dev := bump { d with log := { d.log with mram := l ++ [r] } } 0x13 1
  if d.log.mram.length < logArea then put d.log.mram d
  else match victim r.sev d.log.mram with
    | some i => put (d.log.mram.eraseIdx i) (bump d 0x13 2)
    | none => setFlag 0x13 0 (bump { d with log := { d.log with
        dropsSince := d.log.dropsSince + 1
        dropLowest := some (lowerSev r.sev d.log.dropLowest) } } 0x13 3)

/-- LOG_DROPPED (R469): at most once per 60 s of operating time while records go unstored. -/
def noteDropped (d : Dev) : Dev :=
  let due := match d.log.droppedAt with
    | none => true
    | some t => 60000 ≤ optSince d t
  if d.log.dropsSince != 0 && due then
    logEv 0x1305 d.log.dropsSince ((d.log.dropLowest.map sevNum).getD 0) 0
      { d with log := { d.log with dropsSince := 0, dropLowest := none, droppedAt := some d.log.opt } }
  else d

/-- The newest of some records (R465). -/
def newestRec : List LogRec → Option LogRec
  | [] => none
  | r :: t => match newestRec t with
    | some s => if r.before s then some s else some r
    | none => some r

/-- The oldest of some records (R465). -/
def oldestRec : List LogRec → Option LogRec
  | [] => none
  | r :: t => match oldestRec t with
    | some s => if s.before r then some s else some r
    | none => some r

/-- The last SEQ that a flush of these records leaves written. -/
def lastSeq (mram buffer : List LogRec) : BitVec 24 :=
  match buffer.getLast? with
  | some r => r.seq
  | none => match newestRec mram with
    | some r => r.seq
    | none => 0

/-- A flush (R464, R468, R470): every buffered record goes to MRAM in SEQ order, PCC and OPT are copied, and a PFW, reset or DORMANT
flush ends with the END mark. It is one step of the machine (log entry 28). -/
def flushLog (mark : Bool) (d : Dev) : Dev :=
  let last := lastSeq d.log.mram d.log.buffer
  let d1 := bump d 0x13 5
  let d1 := if d.log.flushFault then bump d1 0x13 6 else d1
  let d1 := if d.log.flushHalf then bump d1 0x13 7 else d1
  let d2 := d.log.buffer.foldl storeRec { d1 with log := { d1.log with
    buffer := []
    flushFault := false
    flushHalf := false
    pccCopy := aonPcc d
    optCopy := aonOpt d } }
  noteDropped { d2 with log := { d2.log with endMark := if mark then some last else d2.log.endMark } }

/-- LOG_FLUSH_RUN: a flush for a fault record or a half-full buffer (R468); none runs during a firmware restart (R452). -/
def execLogFlushRun : State → Host.Outcome State Fault Refusal := runLive fun d =>
  if (d.log.flushFault || d.log.flushHalf) && softRuns d then flushLog false d else d

/-! ### Start-up (R464, R465, R470) -/

/-- The MRAM area is read at start-up: records that fail their CRC are empty positions, SEQ continues, and a missing END mark tells of
an unclean end. A device that has never stored a record nor run before has nothing to tell. -/
def readLog (d : Dev) : Dev :=
  let good := d.log.mram.filter LogRec.crcOk
  let bad := d.log.mram.length - good.length
  let newest := newestRec good
  let clean := d.log.endMark.isSome || (d.log.pcc = 1 && d.log.mram.isEmpty)
  let d1 := { d with log := { d.log with
    mram := good
    endMark := none
    seq := match newest with
      | some r => r.seq + 1
      | none => 0 } }
  let d2 := if bad = 0 then d1 else logEv 0x1304 bad 0 0 (setFlag 0x13 3 (bumpN d1 0x13 11 bad))
  if clean then d2
  else logEv 0x1303 ((newest.map fun r => r.seq.toNat).getD 0) (d.log.pcc - 1).toNat 0 (setFlag 0x13 2 d2)

/-! ### The LOG commands (Table 17-3) -/

/-- OPT and SEQ of a record, 8 bytes; 0 where there is none. -/
def recPlace (r : Option LogRec) : Bytes :=
  match r with
  | some r => leBytes 5 r.opt.toNat ++ leBytes 3 r.seq.toNat
  | none => leBytes 8 0

/-- LOG_STAT. -/
def logStat (d : Dev) : Nat := b2n (logArea ≤ d.log.mram.length) * 2 ^ 30 + d.log.buffer.length

/-- LOG_SEV_s. -/
def logStored (d : Dev) (s : Nat) : Nat := (d.log.mram.filter fun r => sevNum r.sev == s).length

/-- LOG_CONFIG (R467). -/
def execLogConfig (h : Hdr) (hostMin mramMin : Byte) : State → Host.Outcome State Fault Refusal :=
  cmdPlain h 0x0B01 (pk hostMin ++ pk mramMin) fun d =>
    checks [(5 < hostMin.toNat || 3 < mramMin.toNat, .badParam)]
      (fun d => okay { d with log := { d.log with hostMin := hostMin.toNat, mramMin := mramMin.toNat } }) d

/-- A record lies at or after a starting point (R471). -/
def atOrAfter (fromOpt fromSeq : Nat) (r : LogRec) : Bool :=
  fromOpt < r.opt.toNat || (r.opt.toNat == fromOpt && (r.seq - BitVec.ofNat 24 fromSeq).toNat < 2 ^ 23)

/-- Puts a record at its place in record order. -/
def insertRec (r : LogRec) : List LogRec → List LogRec
  | [] => [r]
  | x :: t => if x.before r then x :: insertRec r t else r :: x :: t

/-- Records in record order (R465). -/
def inOrder (l : List LogRec) : List LogRec := l.foldr insertRec []

/-- The records a LOG_READ returns (R471). -/
def readFrom (d : Dev) (fromOpt fromSeq : Nat) (buffered : Bool) (count : Nat) : List LogRec :=
  let stored := inOrder d.log.mram
  let l := stored ++ (if buffered then d.log.buffer else [])
  let l := if fromOpt = 0 && fromSeq = 0 then l else l.filter (atOrAfter fromOpt fromSeq)
  l.take count

/-- LOG_READ (R471). The reply gives the oldest and the newest record's place, then the records, or the count, the last place and
MISSED (log entry 11). -/
def execLogRead (h : Hdr) (src : W32) (fromOpt : W64) (count : W32) (buffered : Byte) (dest : Byte) (addr : W64) :
    State → Host.Outcome State Fault Refusal :=
  cmd h 0x0B02 (pk src ++ pk fromOpt ++ pk count ++ pk buffered ++ pk dest ++ pk addr) (dest = 0) fun d =>
    checks [(2 ^ 24 ≤ src.toNat || 2 ^ 40 ≤ fromOpt.toNat || count = 0 || 1 < buffered.toNat || 1 < dest.toNat, .badParam)]
      (fun d =>
        let places := recPlace (oldestRec d.log.mram) ++ recPlace (newestRec d.log.mram)
        let get n := readFrom d fromOpt.toNat src.toNat (buffered = 1) n
        if dest = 1 then okayWith (places ++ ((get (min count.toNat 22)).map LogRec.bytes).flatten) d
        else
          let l := get count.toNat
          okayWith (places ++ leBytes 4 l.length ++ recPlace l.getLast? ++ [0])
            (hostWrite addr (l.map LogRec.bytes).flatten d)) d

/-- LOG_STATUS (R471). -/
def execLogStatus (h : Hdr) : State → Host.Outcome State Fault Refusal :=
  cmdPlain h 0x0B03 [] fun d =>
    okayWith (leBytes 4 (logStat d) ++ ((List.range 6).map fun s => leBytes 4 (logStored d s)).flatten ++
      leBytes 6 (mget (0 : W48) d.cnt (cntKey 0x13 0 3)).toNat ++ recPlace (oldestRec d.log.mram) ++ recPlace (newestRec d.log.mram)) d

/-- LOG_CLEAR (R472). -/
def execLogClear (h : Hdr) (maxSev : Byte) : State → Host.Outcome State Fault Refusal :=
  cmdPlain h 0x0B04 (pk maxSev) fun d =>
    checks [(!d.tmp.presence, .presenceRequired), (5 < maxSev.toNat, .badParam)] (fun d =>
      let d := flushLog false d
      let gone := d.log.mram.filter fun r => sevNum r.sev ≤ maxSev.toNat
      let d := setFlag 0x13 4 (bump { d with log := { d.log with
        mram := d.log.mram.filter fun r => maxSev.toNat < sevNum r.sev } } 0x13 12)
      okayWith (leBytes 4 gone.length)
        (logEv 0x1302 maxSev.toNat gone.length ((newestRec gone).map (fun r => r.seq.toNat) |>.getD 0) d)) d

/-- LOG_WRITE (R473). -/
def execLogWrite (h : Hdr) (code : W16) (sev : Byte) (p1 p2 p3 : W32) : State → Host.Outcome State Fault Refusal :=
  cmdPlain h 0x0B05 (pk code ++ pk sev ++ pk p1 ++ pk p2 ++ pk p3) fun d =>
    checks [(code.toNat < 0xF000 || 4 < sev.toNat, .badParam)] (fun d =>
      okay (logFull 0xFF code.toNat (sevOf sev.toNat) p1.toNat p2.toNat p3.toNat false (bump d 0x13 13))) d

/-- LOG_FLUSH (R468). -/
def execLogFlush (h : Hdr) : State → Host.Outcome State Fault Refusal :=
  cmdPlain h 0x0B06 [] fun d => okay (flushLog false d)

end Sys2Proof.Machine
end

