-- ==== Sys2Proof/Machine/Queue.lean ====
section
/-!
DEFINITION. Command queue pairs (chapter 16, R440 to R443): doorbells, fetching, enabling, disabling and stops (log entry 30).
-/
namespace Sys2Proof.Machine

/-- Counts in the CMD column of Table 16-11. -/
def cmdCnt (i : Nat) (d : Dev) : Dev := bump d 0x04 i

/-- Entries of a submission ring. -/
def sqSize (q : QPair) : Nat := 2 ^ q.sqLog2
/-- Entries of a completion ring. -/
def cqSize (q : QPair) : Nat := 2 ^ q.cqLog2

/-- The fetched packets that were not accepted are discarded, and SQ_HEAD goes back to the first of them (R442, R443). -/
def dropFetched (q : QPair) : QPair :=
  { q with fetched := [], sqHead := (q.sqHead + sqSize q - q.fetched.length % sqSize q) % sqSize q }

/-- A bad doorbell stops the queue (R442): `which` is 0 SQ_TAIL, 1 CQ_HEAD. -/
def stopQueue (n i which : Nat) (d : Dev) : Dev :=
  let q := pairOf d n
  logEv 0x0401 n i which (cmdCnt 8 (setPair d n { dropFetched q with err := true, stopped := true }))

/-- CMD_SQ_TAIL written (R440, R442); INDEX is bits 11 to 0. -/
def sqTailWrite (n : Nat) (v : W32) (d : Dev) : Dev :=
  let q := pairOf d n
  let i := v.toNat % 4096
  let d := setPair d n { q with sqTail := i }
  if !q.en || q.stopped then d
  else
    let size := sqSize q
    let waiting := (q.sqTail + size - q.sqHead) % size
    if size ≤ i || size ≤ waiting + (i + size - q.sqTail) % size then stopQueue n i 0 d else d

/-- CMD_SQ_TAIL_WRITE. -/
def execCmdSqTailWrite (pair : Fin 16) (v : W32) : State → Host.Outcome State Fault Refusal := runLive (sqTailWrite pair v)

/-- CMD_CQ_HEAD written (R440, R442): entries are returned, and notices may be raised again. -/
def cqHeadWrite (n : Nat) (v : W32) (d : Dev) : Dev :=
  let q := pairOf d n
  let i := v.toNat % 4096
  if !q.en || q.stopped then setPair d n { q with cqHead := i }
  else
    let size := cqSize q
    if size ≤ i || (q.cqTail + size - q.cqHead) % size < (i + size - q.cqHead) % size then stopQueue n i 1 (setPair d n { q with cqHead := i })
    else refuseWaiting (setPair d n { q with cqHead := i, noticed := false })

/-- CMD_CQ_HEAD_WRITE. -/
def execCmdCqHeadWrite (pair : Fin 16) (v : W32) : State → Host.Outcome State Fault Refusal := runLive (cqHeadWrite pair v)

/-- A packet with an unexpected SEQ (R441): counted, logged once per TAI second and channel. -/
def seqError (n : Nat) (expected got : W32) (d : Dev) : Dev :=
  let q := pairOf d n
  let d := cmdCnt 5 d
  if q.seqLogAt = some d.tod.sec then d
  else logEv 0x0402 n expected.toNat got.toNat (setPair d n { q with seqLogAt := some d.tod.sec })

/-- CMD_FETCH: the device fetches the next packet of a running queue, at most 992 ahead of acceptance, and checks its SEQ (R440, R441). -/
def execCmdFetch (pair : Fin 16) (packet : Bytes) : State → Host.Outcome State Fault Refusal := runLive fun d =>
  let n : Nat := pair
  let q := pairOf d n
  let linked := d.gbl.linkUp && !(funcOf d (8 ≤ n)).d3hot
  if !q.en || q.stopped || q.sqHead = q.sqTail || 992 ≤ q.fetched.length || !linked || stalledIn d 4 then d
  else
    let seq := packetSeq packet
    let bad := if q.seqFixed && seq != q.seqNext then some q.seqNext else none
    let x : Fetched := { packet := cut packet 0 64, bad := bad }
    let d := setPair d n { q with
      sqHead := (q.sqHead + 1) % sqSize q
      seqFixed := true
      seqNext := seq + 1
      fetched := q.fetched ++ [x] }
    let d := match bad with
      | some e => seqError n e seq d
      | none => d
    refuseWaiting d

/-- The sizes that a write of CMD_Q_CFG gives: 2^4 to 2^12 entries. -/
def cfgSizes (v : W32) : Nat × Nat := (bits v.toNat 4 4, bits v.toNat 0 4)
/-- The sizes are within R440. -/
def sizesOk (s : Nat × Nat) : Bool := 4 ≤ s.1 && s.1 ≤ 12 && 4 ≤ s.2 && s.2 ≤ 12

/-- CMD_Q_CFG written with EN 1 (R440): a queue that was off starts with empty rings; on a running one the sizes stay. A size outside the
ring sizes of R440 is not taken, and sets CFG_ERR. -/
def queueEnable (n : Nat) (v : W32) (d : Dev) : Dev :=
  let q := pairOf d n
  let s := cfgSizes v
  if q.en then
    setPair d n { q with noticeEn := bit v.toNat 30, cfgErr := q.cfgErr || s != (q.sqLog2, q.cqLog2) }
  else if !sizesOk s then setPair d n { q with cfgErr := true }
  else setPair d n { q with
    en := true, noticeEn := bit v.toNat 30, sqLog2 := s.1, cqLog2 := s.2, sqTail := 0, sqHead := 0, cqHead := 0, cqTail := 0,
    stopped := false, seqNext := 0, seqFixed := false, fetched := [], noticed := false }

/-- CMD_QUEUE_ENABLE. -/
def execCmdQueueEnable (pair : Fin 16) (v : W32) : State → Host.Outcome State Fault Refusal := runLive (queueEnable pair v)

/-- Packets dropped from a queue are counted and logged: `why` is 0 disable, 1 function reset or link loss (R443). -/
def noteDrops (n count why : Nat) (d : Dev) : Dev := if count = 0 then d else logEv 0x0403 n count why (bumpN d 0x04 6 count)

/-- CMD_Q_CFG written with EN 0 (R443): acceptance stops, and what was fetched is discarded. Only a queue that was off takes sizes. -/
def queueDisable (n : Nat) (v : W32) (d : Dev) : Dev :=
  let q := pairOf d n
  let s := cfgSizes v
  if q.en then
    noteDrops n q.fetched.length 0 (setPair d n { dropFetched q with
      en := false, noticeEn := bit v.toNat 30, cfgErr := q.cfgErr || s != (q.sqLog2, q.cqLog2) })
  else if sizesOk s then setPair d n { q with noticeEn := bit v.toNat 30, sqLog2 := s.1, cqLog2 := s.2 }
  else setPair d n { q with cfgErr := true }

/-- CMD_QUEUE_DISABLE. -/
def execCmdQueueDisable (pair : Fin 16) (v : W32) : State → Host.Outcome State Fault Refusal := runLive (queueDisable pair v)

/-- A function-level reset or link loss reaches a queue (R443): its registers return to reset, what was fetched is dropped, and the
completion of an executing command is lost. -/
def queueReset (n : Nat) (d : Dev) : Dev :=
  let q := pairOf d n
  let d := if (executingOn d n).isSome then cmdCnt 7 { d with cmd := { d.cmd with executing := d.cmd.executing.map fun e =>
    if e.hdr.chan = n then { e with lost := true } else e } } else d
  noteDrops n q.fetched.length 1 (setPair d n {})

end Sys2Proof.Machine
end

