-- ==== Sys2Proof/Machine/Mbx.lean ====
section
/-!
DEFINITION. Mailboxes (chapter 16, R447 to R451), and the errors of host accesses that they share with the register map (R502, R503).
-/
namespace Sys2Proof.Machine

/-! ### Errors of host accesses -/

/-- Counts in Table 19-10. -/
def gblCnt (i : Nat) (d : Dev) : Dev := bump d 0x00 i
/-- An unmapped offset was accessed (R502). -/
def unmapped (d : Dev) : Dev := setFlag 0 0 (gblCnt 0 d)
/-- A PCIe error recorded in a function's AER, non-fatal or fatal (R503): 0 Completer Abort sent, 1 Unsupported Request sent, 2 poisoned
write, 3 failed read, 4 Malformed TLP, 5 surprise down, 6 uncorrectable internal error, 7 unexpected completion (8 is a correctable error). -/
def pcieError (pf1 : Bool) (kind : Nat) (fatal : Bool) (d : Dev) : Dev :=
  let f := funcOf d pf1
  let d := setFunc d pf1 { f with aer := (kind, fatal) :: f.aer }
  if fatal then setFlag 0 6 (gblCnt 4 d) else setFlag 0 5 (gblCnt 3 d)
/-- LB_ERR_N in the final cycle of a local-bus access (R512). -/
def lbEnd (failed : Bool) (d : Dev) : Dev :=
  let d := { d with gbl := { d.gbl with lbErrN := !failed } }
  if failed then gblCnt 10 d else d
/-- A path accesses the device and is answered: the local bus while LB_CLK runs, but not in FENCED (R513); a PCIe function with its link up
and out of D3hot. -/
def pathOpen (d : Dev) (p : Path) : Bool :=
  !d.pwr.held && (match p with
    | .pf0 => d.gbl.linkUp && !d.gbl.pf0.d3hot
    | .pf1 => d.gbl.linkUp && !d.gbl.pf1.d3hot
    | _ => d.gbl.lbRunning && !decide (d.hrd.role = .fenced))
/-- A local-bus access ends without an error. -/
def accessOk (p : Path) (d : Dev) : Dev := if isLb p then lbEnd false d else d

/-! ### Mailboxes -/

/-- Counts in the MBX column of Table 16-11. -/
def mbxCnt (i : Nat) (d : Dev) : Dev := bump d 0x03 i
/-- The path reaches the mailbox (Table 16-7). -/
def mbxReach (p : Path) (m : Nat) : Bool := decide ((8 ≤ m) = (isSecure p = true))
/-- The mailbox is inbound. -/
def mbxIn (m : Nat) : Bool := m % 8 < 4
/-- The index of a path's epoch: PF0, PF1, local bus. -/
def epochIdx (p : Path) : Nat := match p with | .pf0 => 0 | .pf1 => 1 | _ => 2
/-- The notice of a mailbox goes to the path that its messages were posted from (R448): MSI-X, or INT_N by GBL_LB_SRC. -/
def mbxNotice (m : Nat) (d : Dev) : Dev :=
  match (mboxOf d m).window with
  | .pf0 => sendMsix false (41 + m % 4) d
  | .pf1 => sendMsix true (9 + m % 4) d
  | _ => d
/-- A rejected write (R449): nothing is applied, REJECT is latched, and the path's error is raised. -/
def mbxReject (p : Path) (m : Nat) (d : Dev) : Dev :=
  let d := mbxCnt 3 (setMbox d m { mboxOf d m with reject := true })
  if isLb p then lbEnd true d else pcieError (decide (p = .pf1)) 0 false d
/-- A data word written (R448, R449). -/
def mbxWrite (p : Path) (m i : Nat) (v : W32) (d : Dev) : Dev :=
  let x := mboxOf d m
  if !mbxIn m || x.full then mbxReject p m d
  else accessOk p (setMbox d m { x with data := mput 0 x.data i v })
/-- POST written to a mailbox (R448, R449). -/
def mbxPost (p : Path) (m : Nat) (d : Dev) : Dev :=
  let x := mboxOf d m
  if !mbxIn m then accessOk p d
  else if x.full then mbxReject p m d
  else accessOk p (mbxCnt 0 (setMbox d m { x with
    full := true, path := BitVec.ofNat 3 (pathNum p), sepoch := d.cmd.epochs.getD (epochIdx p) 0, window := p, stalled := false,
    abort := false, fullOp := opNs d }))
/-- TAKE written to a mailbox (R448); an EMPTY one ignores it. -/
def mbxTake (p : Path) (m : Nat) (d : Dev) : Dev :=
  let x := mboxOf d m
  if mbxIn m || !x.full then accessOk p d else accessOk p (mbxCnt 2 (setMbox d m { x with full := false, stalled := false }))
/-- A write to a mailbox from a path: unmapped where the path does not reach it. -/
def mbxAccess (p : Path) (m : Nat) (f : Dev → Dev) (d : Dev) : Dev :=
  if !pathOpen d p then d else if mbxReach p m then f d else accessOk p (unmapped d)

/-- MBX_DATA_WRITE. -/
def execMbxDataWrite (path : Path) (mbx : Fin 16) (word : Fin 16) (v : W32) : State → Host.Outcome State Fault Refusal :=
  run (mbxAccess path mbx (mbxWrite path mbx word v))
/-- MBX_POST. -/
def execMbxPost (path : Path) (mbx : Fin 16) : State → Host.Outcome State Fault Refusal := run (mbxAccess path mbx (mbxPost path mbx))
/-- MBX_TAKE. -/
def execMbxTake (path : Path) (mbx : Fin 16) : State → Host.Outcome State Fault Refusal := run (mbxAccess path mbx (mbxTake path mbx))

/-- Channels that the software serves: in loader mode, mailbox 8 alone (R459). -/
def mbxServed (d : Dev) (m : Nat) : Bool := softRuns d && (!d.cmd.loader || m % 8 = 0 && 8 ≤ m)

/-- The 64 bytes of a mailbox's message. -/
def mboxPacket (x : Mailbox) : Bytes := ((List.range 16).map fun i => leBytes 4 (mget 0 x.data i).toNat).flatten

/-- MAILBOX_TAKEN (R448): the software takes the posted message once the reply to the one before has been posted in full. -/
def execMailboxTaken (mbx : Fin 16) : State → Host.Outcome State Fault Refusal := runLive fun d =>
  let m : Nat := mbx
  let x := mboxOf d m
  if !mbxIn m || !x.full || x.taken.isSome || !(mboxOf d (m + 4)).replies.isEmpty || !mbxServed d m then d
  else
    let d := setMbox d m { x with full := false, emptyEv := true, stalled := false, abort := false,
                                  taken := some { path := x.window, packet := mboxPacket x, abort := x.abort } }
    refuseWaiting (mbxNotice m d)

/-- The 16 words of a reply entry. -/
def entryWords (b : Bytes) : NMap W32 :=
  (List.range 16).foldl (fun t i => mput 0 t i (BitVec.ofNat 32 (leAt b (4 * i) 4))) []

/-- MAILBOX_REPLY_POST (R448): the next reply entry is posted while the outbound mailbox is EMPTY. -/
def execMailboxReplyPost (mbx : Fin 16) : State → Host.Outcome State Fault Refusal := runLive fun d =>
  let m : Nat := mbx
  let x := mboxOf d m
  match x.replies with
  | [] => d
  | b :: rest =>
    if mbxIn m || x.full || !softRuns d then d
    else
      let d := mbxCnt 1 (setMbox d m { x with
        data := entryWords b, full := true, path := 3, sepoch := d.cmd.epochs.getD 3 0, msgEv := true, stalled := false, replies := rest,
        fullOp := opNs d })
      mbxNotice m d

/-- MAILBOX_STALL (R451): FULL for 10 ms. -/
def execMailboxStall (mbx : Fin 16) : State → Host.Outcome State Fault Refusal := runLive fun d =>
  let m : Nat := mbx
  let x := mboxOf d m
  if !x.full || x.stalled then d
  else
    let d := waitUntil d (x.fullOp + 10000000)
    mbxNotice m (logEv 0x0301 m x.path.toNat 0 (mbxCnt 4 (setMbox d m { x with stall := true, stalled := true })))

/-! ### Resets that meet mailboxes (R449, R450) -/

/-- A discarded message: counted and logged; `why` is 0 path reset, 1 firmware restart. -/
def mbxDiscard (m why : Nat) (d : Dev) : Dev := logEv 0x0302 m why 0 (mbxCnt 5 d)
/-- An epoch advances. -/
def bumpEpoch (i : Nat) (d : Dev) : Dev :=
  { d with cmd := { d.cmd with epochs := lset d.cmd.epochs i (d.cmd.epochs.getD i 0 + 1) } }
/-- A path is reset: its epoch advances, and FULL outbound messages to it are discarded with the rest of their replies (Table 16-8). -/
def pathReset (i : Nat) (d : Dev) : Dev :=
  let hit (m : Nat) (d : Dev) : Bool := let x := mboxOf d m; !mbxIn m && x.full && epochIdx x.window = i
  (List.range 16).foldl (fun d m =>
    if hit m d then mbxDiscard m 0 (setMbox d m { mboxOf d m with full := false, discarded := true, replies := [], stalled := false })
    else d) (bumpEpoch i d)
/-- A firmware restart: posted inbound messages are discarded unexecuted, and their paths are told (Table 16-8). -/
def mbxRestart (d : Dev) : Dev :=
  (List.range 16).foldl (fun d m =>
    let x := mboxOf d m
    if mbxIn m && x.full then
      mbxNotice m (mbxDiscard m 1 (setMbox d m { x with full := false, emptyEv := true, discarded := true, stalled := false, abort := false }))
    else d) (bumpEpoch 3 d)

end Sys2Proof.Machine
end

