-- ==== Sys2Proof/Machine/Eigen.lean ====
section
/-!
DEFINITION. Dense decompositions in binary64, as the mode engine uses them (R266, R267, R270): linear systems, eigenvalues and eigenvectors,
the singular value decomposition and the largest eigenvalue of a Hermitian matrix. The spec defines the quantities; the order of the
arithmetic, and with it the last bits, is that of the definitions here (log entry 21).
-/
namespace Sys2Proof.Machine

/-- A dense complex matrix by row. -/
abbrev DMat := List (List Cx)
/-- 2^-52. -/
def eps64 : W64 := 0x3CB0000000000000
/-- An element of a dense matrix. -/
def dAt (m : DMat) (i j : Nat) : Cx := (m.getD i []).getD j (0, 0)
/-- A matrix of given size by its elements. -/
def dMake (n k : Nat) (f : Nat → Nat → Cx) : DMat := (List.range n).map fun i => (List.range k).map (f i)
/-- Product of an n × k matrix and one of k columns' length. -/
def dMul (n k m : Nat) (a b : DMat) : DMat := dMake n m fun i j => cSum ((List.range k).map fun l => cMul (dAt a i l) (dAt b l j))
/-- Quotient of complex numbers. -/
def cQuot (a b : Cx) : Cx := cDiv (cMul a (cConj b)) (cAbs2 b)
/-- Magnitude of a vector, squared. -/
def norm2 (v : List Cx) : W64 := f64Sum (v.map cAbs2)
/-- Inner product of real vectors. -/
def dotR (a b : List W64) : W64 := f64Sum ((a.zip b).map fun e => f64Mul e.1 e.2)

/-! ### Linear systems -/

/-- The place of the row with the largest element of a column. -/
def pivotRow (j : Nat) (rows : DMat) : Nat :=
  (rows.zipIdx.foldl (fun (b : Nat × W64) e => let a := cAbs2 (e.1.getD j (0, 0)); if f64Lt b.2 a then (e.2, a) else b) (0, 0)).1
/-- One step of elimination on column `j`: the rows that have had their pivot, and the others. -/
def elimStep (s : DMat × DMat) (j : Nat) : DMat × DMat :=
  let k := pivotRow j s.2
  let row := s.2.getD k []
  let x := row.getD j (0, 0)
  let x := if cAbs2 x = 0 then (eps64, 0) else x
  let p := row.map fun e => cQuot e x
  let clear (q : List Cx) : List Cx := let y := q.getD j (0, 0); (q.zip p).map fun e => cSub e.1 (cMul y e.2)
  (s.1.map clear ++ [p], (s.2.eraseIdx k).map clear)
/-- X of A X = B, from the rows of A beside those of B; a pivot of 0 is taken as 2^-52. -/
def solveDense (n : Nat) (aug : DMat) : DMat := ((List.range n).foldl elimStep ([], aug)).1.map fun r => r.drop n

/-! ### Eigenvalues -/

/-- The square root of a complex number with a real part that is not negative. -/
def cSqrt (z : Cx) : Cx :=
  let r := f64Sqrt (cAbs2 z)
  let half (v : W64) : W64 := f64Sqrt (f64Div (if f64Lt v 0 then 0 else v) (f64Int 2))
  let im := half (f64Sub r z.1)
  (half (f64Add r z.1), if f64Lt z.2 0 then f64Neg im else im)
/-- The reflection that clears a column below place `k`; zero where there is nothing to clear. -/
def reflector (k : Nat) (col : List Cx) : List Cx :=
  let x := col.zipIdx.map fun e => if e.2 < k then (0, 0) else e.1
  let a := f64Sqrt (norm2 x)
  let h := x.getD k (0, 0)
  let m := f64Sqrt (cAbs2 h)
  let ph : Cx := if m = 0 then (one64, 0) else cDiv h m
  x.set k (cAdd h (cScale a ph))
/-- A reflection applied from the left. -/
def reflectLeft (n : Nat) (m : DMat) (v : List Cx) : DMat :=
  let s := norm2 v
  if s = 0 then m
  else
    let w := (List.range n).map fun j => cScale (f64Div (f64Int 2) s) (cSum ((List.range n).map fun i => cMul (cConj (v.getD i (0, 0))) (dAt m i j)))
    dMake n n fun i j => cSub (dAt m i j) (cMul (v.getD i (0, 0)) (w.getD j (0, 0)))
/-- A reflection applied from the right. -/
def reflectRight (n : Nat) (m : DMat) (v : List Cx) : DMat :=
  let s := norm2 v
  if s = 0 then m
  else
    let u := (List.range n).map fun i => cScale (f64Div (f64Int 2) s) (cSum ((List.range n).map fun j => cMul (dAt m i j) (v.getD j (0, 0))))
    dMake n n fun i j => cSub (dAt m i j) (cMul (u.getD i (0, 0)) (cConj (v.getD j (0, 0))))
/-- A multiple of the identity added. -/
def addDiag (n : Nat) (x : Cx) (m : DMat) : DMat := dMake n n fun i j => if i = j then cAdd (dAt m i j) x else dAt m i j
/-- The eigenvalue of the last two rows and columns that is nearer to the last element. -/
def cornerShift (n : Nat) (m : DMat) : Cx :=
  let a := dAt m (n - 2) (n - 2)
  let d := dAt m (n - 1) (n - 1)
  let h := cDiv (cSub a d) (f64Int 2)
  let r := cSqrt (cAdd (cMul h h) (cMul (dAt m (n - 2) (n - 1)) (dAt m (n - 1) (n - 2))))
  let p := cAdd h r
  let q := cSub h r
  cAdd d (if f64Lt (cAbs2 p) (cAbs2 q) then p else q)
/-- One step of the shifted QR iteration. -/
def qrStep (n : Nat) (m : DMat) : DMat :=
  let mu := cornerShift n m
  let s := (List.range (n - 1)).foldl (fun (s : DMat × List (List Cx)) k =>
    let v := reflector k ((List.range n).map fun i => dAt s.1 i k)
    (reflectLeft n s.1 v, s.2 ++ [v])) (addDiag n (cNeg mu) m, [])
  addDiag n mu (s.2.foldl (reflectRight n) s.1)
/-- The last row has come apart from the others. -/
def lastSplit (n : Nat) (m : DMat) : Bool :=
  let off := norm2 ((List.range (n - 1)).map (dAt m (n - 1)))
  f64Le off (f64Mul (f64Mul eps64 eps64) (f64Add (cAbs2 (dAt m (n - 1) (n - 1))) (cAbs2 (dAt m (n - 2) (n - 2)))))
/-- The iteration until the last row has come apart, at most `fuel` steps. -/
def qrSettle (n : Nat) : Nat → DMat → DMat
  | 0, m => m
  | fuel + 1, m => if n ≤ 1 || lastSplit n m then m else qrSettle n fuel (qrStep n m)
/-- The eigenvalues of a matrix. -/
def eigenvalues : Nat → DMat → List Cx
  | 0, _ => []
  | n + 1, m =>
    let t := qrSettle (n + 1) 100 m
    dAt t n n :: eigenvalues n (dMake n n (dAt t))
/-- The eigenvector of an eigenvalue, of magnitude 1, by inverse iteration. -/
def eigenvector (n : Nat) (m : DMat) (lam : Cx) : List Cx :=
  let near := cAdd lam (f64Mul eps64 (f64Add one64 (f64Sqrt (cAbs2 lam))), 0)
  let a := addDiag n (cNeg near) m
  let step (v : List Cx) : List Cx :=
    let x := (solveDense n ((a.zip v).map fun e => e.1 ++ [e.2])).map fun r => r.headD (0, 0)
    let s := f64Sqrt (norm2 x)
    x.map fun e => cDiv e s
  step (step (step (List.replicate n (one64, 0))))

/-! ### Singular values -/

/-- A column under rotation, and the same rotations of the identity's column. -/
abbrev RotCol := List W64 × List W64
/-- Two columns made orthogonal. -/
def rotateCols (p q : RotCol) : RotCol × RotCol :=
  let g := dotR p.1 q.1
  if g = 0 then (p, q)
  else
    let z := f64Div (f64Sub (dotR q.1 q.1) (dotR p.1 p.1)) (f64Mul (f64Int 2) g)
    let t := f64Div (if f64Lt z 0 then f64Neg one64 else one64) (f64Add (f64Abs z) (f64Sqrt (f64Add one64 (f64Mul z z))))
    let c := f64Div one64 (f64Sqrt (f64Add one64 (f64Mul t t)))
    let s := f64Mul c t
    let low (a b : List W64) : List W64 := (a.zip b).map fun e => f64Sub (f64Mul c e.1) (f64Mul s e.2)
    let high (a b : List W64) : List W64 := (a.zip b).map fun e => f64Add (f64Mul s e.1) (f64Mul c e.2)
    ((low p.1 q.1, low p.2 q.2), (high p.1 q.1, high p.2 q.2))
/-- A column made orthogonal to each of the others. -/
def rotateOne (p : RotCol) : List RotCol → RotCol × List RotCol
  | [] => (p, [])
  | q :: t =>
    let x := rotateCols p q
    let y := rotateOne x.1 t
    (y.1, x.2 :: y.2)
/-- One sweep over all pairs of `n` columns. -/
def rotateSweep : Nat → List RotCol → List RotCol
  | 0, l => l
  | _ + 1, [] => []
  | n + 1, p :: t => let x := rotateOne p t; x.1 :: rotateSweep n x.2
/-- A column with its squared length, put in by length, longest first. -/
def insertCol (a : W64 × List W64) : List (W64 × List W64) → List (W64 × List W64)
  | [] => [a]
  | b :: t => if f64Lt b.1 a.1 then a :: b :: t else b :: insertCol a t
/-- The singular values of an n × n matrix by row with the left singular vectors, largest first. -/
def singular (n : Nat) (rows : List (List W64)) : List (W64 × List W64) :=
  let start : List RotCol := rows.zipIdx.map fun e => (e.1, (List.range n).map fun i => if i = e.2 then one64 else 0)
  let done := (List.range 30).foldl (fun l _ => rotateSweep n l) start
  ((done.map fun c => (dotR c.1 c.1, c.2)).foldr insertCol []).map fun c => (f64Sqrt c.1, c.2)

/-! ### The largest eigenvalue of a Hermitian matrix without negative ones -/

/-- A matrix divided by its trace. -/
def unitTrace (n : Nat) (m : DMat) : DMat :=
  let t := f64Sum ((List.range n).map fun i => (dAt m i i).1)
  dMake n n fun i j => cDiv (dAt m i j) t
/-- λ_max(S): S weighted by a high power of itself, which holds its leading eigenvector alone. -/
def maxEigen (n : Nat) (m : DMat) : W64 :=
  let b := (List.range 60).foldl (fun b _ => unitTrace n (dMul n n n b b)) (unitTrace n m)
  let p := dMul n n n m b
  f64Sum ((List.range n).map fun i => (dAt p i i).1)

end Sys2Proof.Machine
end

