-- ==== Sys2Proof/Machine/Modal.lean ====
section
/-!
DEFINITION. The signal processing of the mode engine (R264, R266, R267, R270 to R273): conditioning, projection and covariances,
candidates, spectra, tones and dissipating energy. Filter designs, the start of the subspace tracking and the state covariance of the
identified model are opaque, since the spec names them without their numbers; each formula is evaluated in the order written
here (log entry 21).
-/
namespace Sys2Proof.Machine

/-- 2π. -/
def twoPi : W64 := 0x401921FB54442D18
/-- A list brought to a length, missing entries 0. -/
def fitTo (n : Nat) (l : List W64) : List W64 := (List.range n).map (lget 0 l)
/-- The entry of largest value by a measure; of equal ones the first. -/
def argMax (l : List (Nat × W64)) : Option (Nat × W64) :=
  l.foldl (fun (b : Option (Nat × W64)) e => match b with
    | none => some e
    | some y => if f64Lt y.2 e.2 then some e else b) none
/-- e^(-jθ). -/
def cisNeg (th : W64) : Cx := (cos64 th, f64Neg (sin64 th))
/-- Magnitude. -/
def cMag (a : Cx) : W64 := f64Sqrt (cAbs2 a)

/-! ### Conditioning (R264) -/

/-- One signal through its chain at a slot; `f` holds the high-pass's last input and output and the delay line, newest first, and starts
at rest. The output is that of an internal instant, and 0 between them. A signal that was never valid does not enter. -/
def oscFilter (per fm : Nat) (fLo fHi : W32) (internal : Bool) (f : List W64) (sig : Option W64) : List W64 × W64 :=
  match sig with
  | none => (f, 0)
  | some v =>
    let line := (v :: f.drop 2).take (24 * per + 1)
    if internal then
      let x := f64Sum (line.zipIdx.map fun e => f64Mul (Config.lowPassTap per fm fHi e.2) e.1)
      let y := f64Mul (Config.highPassGain fLo fm) (f64Sub (f64Add (lget 0 f 1) x) (lget 0 f 0))
      (x :: y :: line, y)
    else (lget 0 f 0 :: lget 0 f 1 :: line, 0)

/-! ### The subspace and its covariances (R266) -/

/-- What unit 1 keeps: the basis U (n × r, by input), the last 2 HB projections z, newest first, the covariances R_1 to R_2HB (r × r each),
the weighted sum of |y|² and the sum of the weights, and the inverse covariance of the tracking method. -/
structure TrackState where
  u   : List W64
  zs  : List (List W64)
  rs  : List (List W64)
  vs  : W64
  ws  : W64
  inv : List W64
/-- The words of a state. -/
def TrackState.words (t : TrackState) : List W64 := t.u ++ t.zs.flatten ++ t.rs.flatten ++ [t.vs, t.ws] ++ t.inv
/-- Words cut into pieces of a length. -/
def pieces (k : Nat) : Nat → List W64 → List (List W64)
  | 0, _ => []
  | n + 1, l => l.take k :: pieces k n (l.drop k)
/-- The state in words; a restarted tracker has none. -/
def trackOf (n r hb : Nat) (w : List W64) : TrackState :=
  let a := n * r
  let b := 2 * hb * r
  let c := 2 * hb * (r * r)
  { u := w.take a, zs := pieces r (2 * hb) (w.drop a), rs := pieces (r * r) (2 * hb) (w.drop (a + b)),
    vs := lget 0 w (a + b + c), ws := lget 0 w (a + b + c + 1), inv := w.drop (a + b + c + 2) }
/-- The forgetting factor β. -/
def oscBeta (w fm : Nat) : W64 := f64Sub one64 (f64Div one64 (f64Int (w * fm)))
/-- z = U^T y. -/
def project (n r : Nat) (u y : List W64) : List W64 :=
  (List.range r).map fun c => f64Sum ((List.range n).map fun i => f64Mul (lget 0 u (i * r + c)) (lget 0 y i))
/-- β to a power. -/
def powOf (b : W64) : Nat → W64
  | 0 => one64
  | k + 1 => f64Mul b (powOf b k)
/-- Projection-approximation subspace tracking, U kept orthonormal: U (n × r) and the inverse covariance after a vector. A vector that
projects to nothing leaves U. -/
def subspaceStep (n r : Nat) (b : W64) (u inv y : List W64) : List W64 × List W64 :=
  let z := project n r u y
  let q := (List.range r).map fun i => f64Div (dotR ((inv.drop (i * r)).take r) z) b
  let g := f64Div one64 (f64Add one64 (dotR z q))
  let dot (i : Nat) (v : List W64) : W64 := dotR ((u.drop (i * r)).take r) v
  let p := (List.range n).map fun i => f64Mul g (f64Sub (lget 0 y i) (dot i z))
  let inv' := (List.range (r * r)).map fun k =>
    f64Sub (f64Div (lget 0 inv k) b) (f64Mul g (f64Mul (lget 0 q (k / r)) (lget 0 q (k % r))))
  let q2 := dotR q q
  if q2 = 0 then (u, inv')
  else
    let tau := f64Div (f64Sub (f64Div one64 (f64Sqrt (f64Add one64 (f64Mul (dotR p p) q2)))) one64) q2
    let e (i : Nat) : W64 := f64Add (f64Mul tau (dot i q)) (f64Mul (f64Add one64 (f64Mul tau q2)) (lget 0 p i))
    ((List.range (n * r)).map fun k => f64Add (lget 0 u k) (f64Mul (e (k / r)) (lget 0 q (k % r))), inv')
/-- Unit 1 at an internal instant: U is updated, z formed, and R_j becomes β R_j + β^j z_t z_(t-j)^T. -/
def oscTrack (n r hb w fm : Nat) (words y : List W64) : List W64 :=
  let t := trackOf n r hb words
  let b := oscBeta w fm
  let p := if words.isEmpty then Config.trackStart n r else (t.u, t.inv)
  let p := subspaceStep n r b (fitTo (n * r) p.1) (fitTo (r * r) p.2) y
  let z := project n r p.1 y
  let cov (j : Nat) : List W64 :=
    let old := t.rs.getD (j - 1) []
    let zj := t.zs.getD (j - 1) []
    (List.range (r * r)).map fun i =>
      f64Add (f64Mul b (lget 0 old i)) (f64Mul (powOf b j) (f64Mul (lget 0 z (i / r)) (lget 0 zj (i % r))))
  let s : TrackState := { u := p.1, zs := (z :: t.zs.map (fitTo r)).take (2 * hb), rs := (rangeFrom 1 (2 * hb)).map cov,
                          vs := f64Add (f64Mul b t.vs) (dotR y y), ws := f64Add (f64Mul b t.ws) one64, inv := p.2 }
  s.words
/-- The block Hankel matrix of R_1 to R_(2HB-1), by row. -/
def hankelOf (r hb : Nat) (t : TrackState) : List (List W64) :=
  (List.range (hb * r)).map fun i => (List.range (hb * r)).map fun j => lget 0 (t.rs.getD (i / r + j / r) []) (i % r * r + j % r)

/-! ### The identified model (R266) -/

/-- A real matrix as a complex one. -/
def ofReal (a : W64) : Cx := (a, 0)
/-- A and C of the identified model: the observability matrix is the ORDER leading left singular vectors, each times the root of its singular
value; A takes its upper rows to its lower ones in least squares, and C is its first r rows. -/
def stateModel (r hb order : Nat) (h : List (List W64)) : DMat × DMat :=
  let obs := ((singular (hb * r) h).take order).map fun s => s.2.map (f64Mul (f64Sqrt s.1))
  let col (i : Nat) : List W64 := obs.getD i []
  let up (i : Nat) : List W64 := (col i).take ((hb - 1) * r)
  let a := solveDense order (dMake order (2 * order) fun i j =>
    ofReal (dotR (up i) (if j < order then up j else (col (j - order)).drop r)))
  (a, dMake r order fun i j => ofReal (lget 0 (col j) i))
/-- One eigenvalue of the identified model: λ, C ψ, and the variance of its modal coordinate in the state covariance. -/
structure Mode where
  lam      : Cx
  out      : List Cx
  variance : W64
  deriving DecidableEq, Repr
/-- The eigenvalues of the identified model with what R267 takes from each. -/
def modalModel (r hb order : Nat) (h : List (List W64)) : List Mode :=
  let m := stateModel r hb order h
  let reals (x : DMat) : List W64 := x.flatten.map Prod.fst
  let cov := Config.stateCov order (reals m.1) (reals m.2) h.flatten
  let lams := eigenvalues order m.1
  let psis := lams.map (eigenvector order m.1)
  let inv := solveDense order (dMake order (2 * order) fun i j =>
    if j < order then (psis.getD j []).getD i (0, 0) else if j - order = i then (one64, 0) else (0, 0))
  (lams.zip psis).zipIdx.map fun e =>
    let l := inv.getD e.2 []
    let q := cSum ((List.range order).map fun i => cSum ((List.range order).map fun j =>
      cScale (lget 0 cov (i * order + j)) (cMul (l.getD i (0, 0)) (cConj (l.getD j (0, 0))))))
    { lam := e.1.1, out := m.2.map fun row => cSum ((row.zip e.1.2).map fun x => cMul x.1 x.2), variance := f64Sqrt (cAbs2 q) }

/-! ### Candidates (R267) -/

/-- What one eigenvalue gives. -/
structure ModeFit where
  f     : W64
  zeta  : W64
  amp   : W64
  e     : W64
  ref   : Nat
  shape : NMap W64
  deriving DecidableEq, Repr
/-- The candidate of an eigenvalue with Im λ > 0: frequency, damping, shape over the inputs (index and NORM), reference input, amplitude,
and the share of the window variance of the conditioned inputs, `total`, that its component of variance |φ|² p accounts for. -/
def modeFit (r fm : Nat) (inputs : List (Nat × W64)) (u : List W64) (total : W64) (m : Mode) : Option ModeFit :=
  if !f64Lt 0 m.lam.2 then none
  else
    let sig := f64Mul (ln64 (cMag m.lam)) (f64Int fm)
    let om := f64Mul (angle64 m.lam.2 m.lam.1) (f64Int fm)
    let phi := inputs.zipIdx.map fun x => (x.1, cSum ((List.range r).map fun c => cScale (lget 0 u (x.2 * r + c)) (m.out.getD c (0, 0))))
    match argMax (phi.zipIdx.map fun x => (x.2, cAbs2 x.1.2)) with
    | none => none
    | some (k, _) => match phi[k]? with
      | none => none
      | some ((ref, norm), big) =>
        let ratio (a : Cx) : Cx := cDiv (cMul a (cConj big)) (cAbs2 big)
        some {
          f := f64Div om twoPi
          zeta := f64Div (f64Neg sig) (cMag (sig, om))
          amp := f64Mul (f64Mul (f64Mul (f64Sqrt (f64Int 2)) (cMag big)) (f64Sqrt m.variance)) norm
          e := f64Div (f64Mul (f64Sum (phi.map fun x => cAbs2 x.2)) m.variance) total
          ref := ref
          shape := phi.foldl (fun s x => let q := ratio x.2; mset s x.1.1 (phasorOut q.1 q.2)) [] }
/-- The candidates of an update, not yet filtered. -/
def oscIdentify (r hb order fm : Nat) (inputs : List (Nat × W64)) (words : List W64) : List ModeFit :=
  let t := trackOf inputs.length r hb words
  (modalModel r hb order (hankelOf r hb t)).filterMap (modeFit r fm inputs t.u (f64Div t.vs t.ws))

/-! ### Spectra and peaks (R270, R271) -/

/-- A bin's frequency in Hz. -/
def binHz (fm seg : Nat) (b : W64) : W64 := f64Div (f64Mul b (f64Int fm)) (f64Int seg)
/-- The bins of the band. -/
def bandBins (fm seg : Nat) (fLo fHi : W32) : List Nat :=
  (List.range (seg / 2 + 1)).filter fun b => f64Le (f32To64 fLo) (binHz fm seg (f64Int b)) && f64Le (binHz fm seg (f64Int b)) (f32To64 fHi)
/-- The Hann-windowed transform of one series, oldest first, at a bin. -/
def dftBin (seg : Nat) (x : List W64) (b : Nat) : Cx :=
  cSum (x.zipIdx.map fun e =>
    cScale (f64Mul (Config.hannTap seg e.2) e.1) (cisNeg (f64Div (f64Mul twoPi (f64Int (b * e.2 : Nat))) (f64Int seg))))
/-- A segment: the transforms of the r projected components at each bin of the band, two words each, from the vectors of the last FO_SEG
instants, newest first. -/
def segmentOf (n r seg : Nat) (bins : List Nat) (u : List W64) (recent : List (List W64)) : List W64 :=
  let zs := ((recent.take seg).reverse).map (project n r u)
  (bins.map fun b => ((List.range r).map fun c => let x := dftBin seg (zs.map fun z => lget 0 z c) b; [x.1, x.2]).flatten).flatten
/-- The components of a segment at the bin of a place in the band. -/
def segBin (r : Nat) (s : List W64) (i : Nat) : List Cx :=
  (List.range r).map fun c => (lget 0 s (2 * (i * r + c)), lget 0 s (2 * (i * r + c) + 1))
/-- The power of a segment at a bin. -/
def segPower (r : Nat) (s : List W64) (i : Nat) : W64 := f64Sum ((segBin r s i).map cAbs2)
/-- The averaged cross-spectral matrix at a bin, by row. -/
def crossAt (r : Nat) (segs : List (List W64)) (i : Nat) : DMat :=
  dMake r r fun a b =>
    cDiv (cSum (segs.map fun s => let z := segBin r s i; cMul (z.getD a (0, 0)) (cConj (z.getD b (0, 0))))) (f64Int segs.length)
/-- P_b, the trace of S_b. -/
def powerAt (r : Nat) (segs : List (List W64)) (i : Nat) : W64 := f64Div (f64Sum (segs.map fun s => segPower r s i)) (f64Int segs.length)
/-- The coefficient of variation of a bin's amplitude across the segments. -/
def amplitudeCv (r : Nat) (segs : List (List W64)) (i : Nat) : W64 :=
  let a := segs.map fun s => f64Sqrt (segPower r s i)
  let k := f64Int segs.length
  let mean := f64Div (f64Sum a) k
  f64Div (f64Sqrt (f64Div (f64Sum (a.map fun x => let v := f64Sub x mean; f64Mul v v)) k)) mean
/-- The parabola through log P of three bins: the offset of its top from the middle one. -/
def parabola (a b c : W64) : W64 :=
  f64Mul 0x3FE0000000000000 (f64Div (f64Sub a c) (f64Add (f64Sub a (f64Mul (f64Int 2) b)) c))
/-- The bins whose power is a local maximum and at least PEAK_RATIO times the band's median: bin, refined frequency, η and coefficient of
variation. A bin at the band's edge has no neighbour there and is none. -/
def oscPeaks (r fm seg : Nat) (fLo fHi ratio : W32) (segs : List (List W64)) : List (Nat × W64 × W64 × W64) :=
  let bins := bandBins fm seg fLo fHi
  let ps := (List.range bins.length).map (powerAt r segs)
  let p (i : Nat) : W64 := lget 0 ps i
  let least := f64Mul (f32To64 ratio) ((f64Median ps).getD 0)
  ((List.range bins.length).filter fun i => i != 0 && decide (i + 1 < bins.length) && f64Lt (p (i - 1)) (p i) && f64Lt (p (i + 1)) (p i) &&
    f64Le least (p i)).map fun i =>
      let top := parabola (ln64 (p (i - 1))) (ln64 (p i)) (ln64 (p (i + 1)))
      (bins.getD i 0, binHz fm seg (f64Add (f64Int (bins.getD i 0)) top), f64Div (maxEigen r (crossAt r segs i)) (p i), amplitudeCv r segs i)

/-! ### Tones and energy (R272, R273) -/

/-- The magnitude of the single-bin DFT at a frequency over samples, newest first (R272). -/
def oscTone (fm : Nat) (f : W64) (hist : List W64) : W64 :=
  cMag (cSum (hist.zipIdx.map fun e => cScale e.1 (cisNeg (f64Div (f64Mul (f64Mul twoPi f) (f64Int e.2)) (f64Int fm)))))
/-- The least-squares slope of values at 1 / F_M s apart, newest first; 0 of fewer than two. -/
def slopeOf (fm : Nat) (l : List W64) : W64 :=
  if l.length < 2 then 0
  else
    let n := f64Int l.length
    let ts := l.zipIdx.map fun e => f64Neg (f64Div (f64Int e.2) (f64Int fm))
    let st := f64Sum ts
    let sw := f64Sum l
    let stw := f64Sum ((ts.zip l).map fun e => f64Mul e.1 e.2)
    let stt := f64Sum (ts.map fun t => f64Mul t t)
    f64Div (f64Sub (f64Mul n stw) (f64Mul st sw)) (f64Sub (f64Mul n stt) (f64Mul st st))
/-- The accumulation of a branch for an oscillation at f (R273). The words are the states of the four resonators, the last Δθ and ΔL, and W
over the last FO_W seconds, newest first; none after a restart, when W starts at 0. `ys` are P, Q, θ and L conditioned. Gives
the words and D. -/
def oscEnergy (bw : W32) (foW fm : Nat) (f : W64) (words ys : List W64) : List W64 × W64 :=
  let res (i : Nat) : List W64 × W64 := Config.resonate bw fm f [lget 0 words (2 * i), lget 0 words (2 * i + 1)] (lget 0 ys i)
  let y (i : Nat) : W64 := (res i).2
  let ws := words.drop 10
  let w := if words.isEmpty then 0 else
    f64Add (lget 0 ws 0) (f64Add (f64Mul (y 0) (f64Sub (y 2) (lget 0 words 8))) (f64Mul (y 1) (f64Sub (y 3) (lget 0 words 9))))
  let hist := (w :: ws).take (foW * fm)
  (((List.range 4).map fun i => fitTo 2 (res i).1).flatten ++ [y 2, y 3] ++ hist, slopeOf fm hist)

end Sys2Proof.Machine
end

