-- ==== Sys2Proof/Machine/Phasor.lean ====
section
/-!
DEFINITION. Phasors, frequency and powers from local samples (R370, R384 to R386, R388), for the local PMU and for metering: a sample is a signed
32-bit value, ± 2^30 of which is FS_PRIMARY (R361). Active power and the no-load test are exact until one rounding; what needs
angles or roots is evaluated in binary64, in the order written here (log entry 23).
-/
namespace Sys2Proof.Machine

/-! ### Windows -/

/-- The triangular weight (N - |u|) / N² at a distance of `u` tenths of a sample (R384; Table 13-4, class P). -/
def triWeight (n : Nat) (u : Int) : W64 := if u.natAbs < 10 * n then ofQ64 ((10 * n : Nat) - (u.natAbs : Int)) (10 * n * n) else 0
/-- The Hamming-windowed low-pass of class M at a distance of `u` tenths of a sample, before it is normalised: cut-off 0.2 F_s, length
7 / F_s (Table 13-4). -/
def lowPassWeight (rate : Nat) (u : Int) : W64 :=
  let len := 28800 * 7 / rate
  if 20 * u.natAbs ≤ 100 * len then
    let ham := f64Add 0x3FE147AE147AE148 (f64Mul 0x3FDD70A3D70A3D71 (cos64 (f64Div (f64Mul twoPi (f64Int u)) (f64Int (10 * len : Nat)))))
    let ideal := if u = 0 then f64Div (f64Mul (f64Int 2) (f64Int rate)) (f64Int 144000) else
      f64Div (sin64 (f64Div (f64Mul twoPi (f64Int (u * rate))) (f64Int 1440000))) (f64Div (f64Mul twoPi (f64Int u)) (f64Int 20))
    f64Mul ham ideal
  else 0
/-- Samples of a window: the offset of each from its centre, and its primary value. -/
abbrev Window := List (Int × W64)
/-- The primary value of a sample (R361). -/
def primary (fs : W32) (v : BitVec 32) : W64 := f64Div (f64Mul (f64Int v.toInt) (f32To64 fs)) (f64Int (2 ^ 30))
/-- √2 Σ w x e^(-j2πft) over a window, for an estimate `o` tenths of a sample after its centre; the angle is 0 at `base` samples before the
centre (R370, R385). -/
def windowPhasor (wt : Int → W64) (f : W64) (base : Nat) (o : Int) (w : Window) : Cx :=
  cScale (f64Sqrt (f64Int 2)) (cSum (w.map fun e =>
    cScale (f64Mul (wt (10 * e.1 - o)) e.2)
      (cisNeg (f64Div (f64Mul (f64Mul twoPi f) (f64Int ((base : Int) + e.1))) (f64Int 28800)))))
/-- Σ w over a window. -/
def windowSum (wt : Int → W64) (o : Int) (w : Window) : W64 := f64Sum (w.map fun e => wt (10 * e.1 - o))

/-! ### Sequence phasors, frequency and ROCOF (R370) -/

/-- a = e^(j2π/3). -/
def seqA : Cx := (0xBFE0000000000000, f64Mul 0x3FE0000000000000 (f64Sqrt (f64Int 3)))
/-- (X_a + k X_b + k² X_c) / 3. -/
def seqOf (k a b c : Cx) : Cx := cDiv (cAdd (cAdd a (cMul k b)) (cMul (cMul k k) c)) (f64Int 3)
/-- Positive, negative and zero sequence of three phasors. -/
def sequences (a b c : Cx) : List Cx := [seqOf seqA a b c, seqOf (cConj seqA) a b c, seqOf (one64, 0) a b c]
/-- The angle of a phasor. -/
def cArg (a : Cx) : W64 := angle64 a.2 a.1
/-- An angle continued from the last one. -/
def unwrap (last : Option W64) (a : W64) : W64 :=
  match last with
  | none => a
  | some l => f64Add a (f64Mul twoPi (f64Int (f64Floor (f64Add (f64Div (f64Sub l a) twoPi) 0x3FE0000000000000))))
/-- The positive-sequence voltage of three windows at an offset. -/
def positiveAt (wt : Int → W64) (f : W64) (base : Nat) (o : Int) (ws : List Window) : Cx :=
  let x (i : Nat) : Cx := windowPhasor wt f base o (ws.getD i [])
  seqOf seqA (x 0) (x 1) (x 2)
/-- Frequency and ROCOF from the positive-sequence angle, by central differences over ± `o` tenths of a sample about the estimate. -/
def freqRocof (wt : Int → W64) (f : W64) (base : Nat) (o : Nat) (ws : List Window) : W64 × W64 :=
  let mid := cArg (positiveAt wt f base 0 ws)
  let lo := unwrap (some mid) (cArg (positiveAt wt f base (-(o : Int)) ws))
  let hi := unwrap (some mid) (cArg (positiveAt wt f base o ws))
  let dt := f64Div (f64Int o) (f64Int 288000)
  (f64Add f (f64Div (f64Sub hi lo) (f64Mul (f64Mul (f64Int 2) twoPi) dt)),
   f64Div (f64Add (f64Sub hi (f64Mul (f64Int 2) mid)) lo) (f64Mul twoPi (f64Mul dt dt)))
/-- The voltage's magnitude is below 5 % of its value at FS_PRIMARY / 2 (R371, R385). -/
def lowVoltage (v : Cx) (fs : W32) : Bool :=
  f64Lt (f64Mul (f64Int 8) (cAbs2 v)) (f64Mul 0x3F647AE147AE147B (f64Mul (f32To64 fs) (f32To64 fs)))
/-- The local PMU's estimates (R370) of class M or P at F_nom and F_s: from the windows of the six channels about the instant, which lies
`base` samples after the start of its second, the twelve phasors in the order of Table 13-3, frequency and ROCOF. -/
def pmuEstimate (mClass : Bool) (fnom rate base : Nat) (ws : List Window) : List W64 :=
  let f := f64Int fnom
  let raw : Int → W64 := if mClass then lowPassWeight rate else triWeight (28800 / fnom)
  let total := if mClass then windowSum raw 0 (ws.getD 0 []) else one64
  let wt (u : Int) : W64 := f64Div (raw u) total
  let x := (List.range 6).map fun i => windowPhasor wt f base 0 (ws.getD i [])
  let at_ (i : Nat) : Cx := x.getD i (0, 0)
  let all := x ++ sequences (at_ 0) (at_ 1) (at_ 2) ++ sequences (at_ 3) (at_ 4) (at_ 5)
  let fr := freqRocof wt f base (if mClass then 2880 else 288) ws
  (all.map fun c => phasorOut c.1 c.2) ++ [realOut fr.1, realOut fr.2]

/-! ### Metering (R384 to R388) -/

/-- What metering makes of one sample: the contributions of P, Q, P1, Q1 and S in units of 2^-32 of a register unit with their signs;
whether P and P1 are negative; P, Q, P1, Q1 and S and the tracked frequency as reals; and whether it is a no-load sample. -/
structure MeterFit where
  parts  : Int × Int × Int × Int × Int
  neg    : Bool
  neg1   : Bool
  powers : List W64
  noload : Bool
/-- The samples of one circuit, newest first: the values of its channels, and the FS_PRIMARY that each had then (R383). -/
abbrev MeterLine := List (List (BitVec 32) × List W32)
/-- A channel's value `k` samples before the newest; none yet is 0. -/
def lineAt (l : MeterLine) (ch k : Nat) : BitVec 32 := (l.getD k ([], [])).1.getD ch 0
/-- A channel's FS_PRIMARY `k` samples before the newest. -/
def fsAt (l : MeterLine) (ch k : Nat) : W32 := (l.getD k ([], [])).2.getD ch 0
/-- A channel's primary value `k` samples before the newest. -/
def primaryAt (l : MeterLine) (ch k : Nat) : W64 := primary (fsAt l ch k) (lineAt l ch k)
/-- The half of the Hilbert filter's 127 taps: by so many samples the other signals are delayed. -/
def hilbertDelay : Nat := 63
/-- A voltage delayed by 90°, `k` samples before the newest. -/
def hilbertAt (l : MeterLine) (ch k : Nat) : W64 :=
  f64Sum ((List.range 127).map fun t => f64Mul (Config.hilbertTap t) (primaryAt l ch (k + t)))
/-- The places of the weights of R384: offset j from sample m, and the samples before the newest; sample m lies N - 1 before it. -/
def meterPlaces (n : Nat) : List (Int × Nat) := (List.range (2 * n - 1)).map fun (k : Nat) => ((n : Int) - 1 - (k : Int), k)
/-- A sum of fractions. -/
def fracAdd (a b : Int × Nat) : Int × Nat := (a.1 * b.2 + b.1 * a.2, a.2 * b.2)
/-- The scale of a product of two channels: FS FS′ / 2^60, as a fraction. -/
def productScale (s : W32 × W32) : Int × Nat :=
  let p := f32Q s.1
  let q := f32Q s.2
  (p.1 * q.1, p.2 * q.2 * 2 ^ 60)
/-- FS_PRIMARY of two channels at a place. -/
def scalesAt (l : MeterLine) (a b : Nat) (e : Int × Nat) : W32 × W32 := (fsAt l a (e.2 + hilbertDelay), fsAt l b (e.2 + hilbertDelay))
/-- Σ (N - |j|) a b over some places of two delayed channels: an integer. -/
def weighProduct (l : MeterLine) (n a b : Nat) (places : List (Int × Nat)) : Int :=
  (places.map fun e =>
    ((n : Int) - e.1.natAbs) * ((lineAt l a (e.2 + hilbertDelay)).toInt * (lineAt l b (e.2 + hilbertDelay)).toInt)).sum
/-- A weighted product as an exact power: each sample at its own scale. -/
def powerPart (l : MeterLine) (n a b : Nat) : Int × Nat :=
  ((meterPlaces n).map (scalesAt l a b)).eraseDups.foldl (fun acc s =>
    let w := weighProduct l n a b ((meterPlaces n).filter fun e => scalesAt l a b e = s)
    fracAdd acc (w * (productScale s).1, (productScale s).2 * (n * n))) (0, 1)
/-- Σ w v′ i over the window. -/
def weighHilbert (l : MeterLine) (n v i : Nat) : W64 :=
  f64Sum ((meterPlaces n).map fun e =>
    f64Mul (triWeight n (10 * e.1)) (f64Mul (hilbertAt l v e.2) (primaryAt l i (e.2 + hilbertDelay))))
/-- P_m (R384, Table 14-3), exact. -/
def activePower (three : Bool) (l : MeterLine) (n : Nat) : Int × Nat :=
  if three then
    let q := powerPart l n 1 5
    fracAdd (powerPart l n 0 3) (-q.1, q.2)
  else fracAdd (powerPart l n 0 3) (fracAdd (powerPart l n 1 4) (powerPart l n 2 5))
/-- A fraction as a real. -/
def scaleReal (s : Int × Nat) : W64 := ofQ64 s.1 s.2
/-- Q_m (R384, Table 14-3). -/
def reactivePower (three : Bool) (l : MeterLine) (n : Nat) : W64 :=
  if three then f64Sub (weighHilbert l n 0 3) (weighHilbert l n 1 5)
  else f64Add (f64Add (weighHilbert l n 0 3) (weighHilbert l n 1 4)) (weighHilbert l n 2 5)
/-- The weighted mean square of a channel (R386), exact. -/
def meanSquare (l : MeterLine) (n ch : Nat) : Int × Nat := powerPart l n ch ch
/-- A channel's rms value. -/
def rmsOf (l : MeterLine) (n ch : Nat) : W64 := f64Sqrt (scaleReal (meanSquare l n ch))
/-- S_m (R386). -/
def apparentPower (three : Bool) (l : MeterLine) (n : Nat) : W64 :=
  let s := f64Sum ((List.range 3).map fun i => f64Mul (rmsOf l n i) (rmsOf l n (i + 3)))
  if three then f64Div s (f64Sqrt (f64Int 3)) else s
/-- The window of a channel about sample m, as far as samples are at hand. -/
def meterWindow (l : MeterLine) (n ch : Nat) : Window :=
  (List.range (2 * n + 2 * hilbertDelay)).map fun (k : Nat) => ((n : Int) - 1 + (hilbertDelay : Int) - (k : Int), primaryAt l ch k)
/-- The frequency that the fundamental is tracked at (R385). -/
def trackedFreq (f60 : Bool) (l : MeterLine) (n : Nat) : W64 :=
  let f := f64Int (if f60 then 60 else 50)
  let ws := (List.range 3).map (meterWindow l n)
  if lowVoltage (positiveAt (triWeight n) f 0 0 ws) (fsAt l 0 (n - 1)) then f else (freqRocof (triWeight n) f 0 288 ws).1
/-- P1 + jQ1 (R385). -/
def fundamental (three : Bool) (ft : W64) (l : MeterLine) (n : Nat) : Cx :=
  let x (ch : Nat) : Cx := windowPhasor (triWeight n) ft 0 0 (meterWindow l n ch)
  let s (a b : Nat) : Cx := cMul (x a) (cConj (x b))
  if three then cSub (s 0 3) (s 1 5) else cAdd (cAdd (s 0 3) (s 1 4)) (s 2 5)
/-- A contribution of one sample period (R387) from a power: in units of 2^-32 mWh, rounded towards 0. -/
def partOf (p : Int × Nat) : Int := Int.tdiv (p.1 * (1000 * 2 ^ 32)) (p.2 * (3600 * 28800) : Nat)
/-- A contribution from a power as a real. -/
def partOfReal (v : W64) : Int := if f64Fin v then partOf (f64Q v) else 0
/-- The metering of the sample N - 1 before the newest, on the signals as the Hilbert filter delays them. -/
def meterPowers (three f60 : Bool) (creep : W32) (l : MeterLine) : MeterFit :=
  let n := if f60 then 480 else 576
  let p := activePower three l n
  let q := reactivePower three l n
  let ft := trackedFreq f60 l n
  let one := fundamental three ft l n
  let s := apparentPower three l n
  let c := f32Q creep
  let idle (ch : Nat) : Bool := let m := meanSquare l n ch; decide (m.1 * (c.2 * c.2 : Nat) < c.1 * c.1 * m.2)
  { parts := (partOf p, partOfReal q, partOfReal one.1, partOfReal one.2, partOfReal s)
    neg := decide (p.1 < 0)
    neg1 := f64Lt one.1 0
    powers := [ofQ64 p.1 p.2, q, one.1, one.2, s, ft]
    noload := idle 3 && idle 4 && idle 5 }

end Sys2Proof.Machine
end

