-- ==== Sys2Proof/Machine/Osc.lean ====
section
/-!
DEFINITION. The mode engine (chapter 9): conditioning, tracking, mode slots, forced oscillations and their source (R262 to
R282; log entry 21). The signal processing is that of Modal.lean.
-/
namespace Sys2Proof.Machine

/-! ### The configuration in force -/

/-- The inputs of a model that preparation did not disable. -/
def oscInputs (m : OscModel) : NMap OscInput := m.inputs.filter fun e => !m.prep.inputsOff.contains e.1
/-- The branches of a model that preparation did not disable. -/
def oscBranches (m : OscModel) : NMap OscBranch := m.branches.filter fun e => !m.prep.branchesOff.contains e.1
/-- The running state of an input. -/
def oscIn (d : Dev) (i : Nat) : OscInRun := mget {} d.osc.inputs i
/-- The running state of a branch. -/
def oscBr (d : Dev) (b : Nat) : OscInRun := mget {} d.osc.branches b
/-- Inputs that are OUT. -/
def oscInsOut (m : OscModel) (d : Dev) : Nat := ((oscInputs m).filter fun e => (oscIn d e.1).out).length
/-- Branches that are OUT. -/
def oscBrsOut (m : OscModel) (d : Dev) : Nat := ((oscBranches m).filter fun e => (oscBr d e.1).out).length
/-- P_m in ticks. -/
def oscPm (c : OscConfig) : Nat := periodTicks c.fm
/-- K of R261. -/
def oscK (c : OscConfig) : Nat := (c.foW * c.fm - c.foSeg) / (c.foSeg / 2) + 1
/-- A record's ordinal tick. -/
def recOrd (r : Record) : Nat := tickOrd r.summary.sec r.summary.tick
/-- The slot is an internal instant (R264). -/
def oscInternal (c : OscConfig) (r : Record) : Bool := recOrd r % oscPm c = 0
/-- The slot is an evaluation instant (R270). -/
def oscEvalDue (c : OscConfig) (r : Record) : Bool := oscInternal c r && (recOrd r / oscPm c) % (c.foSeg / 2) = 0
/-- D of R264: slots per internal period. -/
def oscD (g : Gen) (c : OscConfig) : Nat := match mfind g.os c.ostream with | some o => o.rate / c.fm | none => 1

/-! ### Signals (R262, R263, R273) -/

/-- A phasor as a complex value. -/
def cxOf (v : W64) : Cx := (phRe v, phIm v)
/-- A × B*. -/
def cMulConj (a b : Cx) : Cx := cMul a (b.1, f64Neg b.2)
/-- An input's signal in a slot, absent where a channel is. -/
def oscSignal (g : Gen) (r : Record) (x : OscInput) (last : Option W64) : Option W64 :=
  let v (c : Nat) : Option W64 := engVal g r DirEntry.osc c
  match x.kind with
  | 1 => match v x.a, v x.b with
    | some p, some q => let c := cMulConj (cxOf p) (cxOf q); some (unwrap last (angle64 c.2 c.1))
    | _, _ => none
  | 2 => match v x.a, v x.b with
    | some p, some q => some (f64Mul (f64Int 3) (cMulConj (cxOf p) (cxOf q)).1)
    | _, _ => none
  | _ => v x.a
/-- A branch's four signals P, Q, θ and L = ln |V|. -/
def oscBranchSignals (g : Gen) (r : Record) (x : OscBranch) (last : List W64) : Option (List W64) :=
  match engVal g r DirEntry.osc x.v, engVal g r DirEntry.osc x.i with
  | some v, some i =>
    let s := cMulConj (cxOf v) (cxOf i)
    let th := unwrap (last[2]?) (angle64 (phIm v) (phRe v))
    some [f64Mul (f64Int 3) s.1, f64Mul (f64Int 3) s.2, th, ln64 (phMag v)]
  | _, _ => none

/-! ### Conditioning and presence (R264, R265) -/

/-- One signal through its filters: the words of `f`, and the conditioned value divided by NORM. -/
def oscCond (c : OscConfig) (per : Nat) (internal : Bool) (f : List W64) (sig : Option W64) (norm : W64) : List W64 × W64 :=
  let x := oscFilter per c.fm c.fLo c.fHi internal f sig
  (x.1, f64Div x.2 norm)
/-- Several signals through their filters. -/
def oscCondAll (c : OscConfig) (per : Nat) (internal : Bool) (f : List (List W64)) (sigs : List (Option W64)) (norm : W64) :
    List (List W64) × List W64 :=
  let l := sigs.zipIdx.map fun s => oscCond c per internal (f.getD s.2 []) s.1 norm
  (l.map Prod.fst, l.map Prod.snd)
/-- An input or branch of `n` signals after a slot: `sig` is what it gives, absent as none; `per` is D. -/
def oscStepIn (c : OscConfig) (per n : Nat) (internal : Bool) (norm : W64) (sig : Option (List W64)) (x : OscInRun) : OscInRun :=
  let go (x : OscInRun) (l : List W64) : OscInRun :=
    let old := (List.range n).map fun i => x.last[i]?
    let now := (List.range n).map fun i => (l[i]?).or (x.last[i]?)
    let a := oscCondAll c per internal x.filt now norm
    let b := oscCondAll c per internal x.filt old norm
    { x with filt := a.1, y := if internal then a.2 ++ b.2 else x.y,
             hist := if internal then ((a.2.take 1) ++ x.hist).take c.foSeg else x.hist,
             last := if l.isEmpty then x.last else l }
  match sig with
  | some l =>
    if x.out then
      let y := go (if x.validN = 0 then { x with filt := [], last := [], hist := [] } else x) l
      if c.rejoinN * per ≤ x.validN + 1 then { y with out := false, validN := 0, absentN := 0 } else { y with validN := x.validN + 1 }
    else { go x l with absentN := 0 }
  | none =>
    if x.out then { x with validN := 0 }
    else
      let y := go x []
      if c.gapMax * per < x.absentN + 1 then { y with out := true, validN := 0, absentN := 0 } else { y with absentN := x.absentN + 1 }
/-- An input or branch changed between in and OUT: counted, and logged for at most 64 per TAI second. -/
def oscInOut (what : Nat) (was now : Bool) (d : Dev) : Dev :=
  if was = now then d
  else
    let d := if now then setFlag 0x0C 2 (bump d 0x0C 4) else bump d 0x0C 5
    let x := if d.osc.outLog.1 = d.tod.sec then d.osc.outLog else (d.tod.sec, 0)
    if 64 ≤ x.2 then d else logEv 0x0C06 what (b2n (!now)) 0 { d with osc := { d.osc with outLog := (x.1, x.2 + 1) } }
/-- The last signal that an unwrapped series continues from. -/
def OscInRun.before (x : OscInRun) : List W64 := if x.out && x.validN = 0 then [] else x.last
/-- The accumulation of a branch starts again, for every forced slot (R273). -/
def oscDropEnergy (b : Nat) (d : Dev) : Dev :=
  { d with osc := { d.osc with energy := d.osc.energy.filter fun e => e.1 % 4096 != b } }
/-- The state of an input or branch if its slot is shed by its unit: as with the signals absent, but for the values the other unit has. -/
def OscInRun.shedAs (absent real : OscInRun) : OscInRun := { absent with y := real.y, hist := real.hist }
/-- Stages 1 and 2 of a slot; `present` is false for a slot shed before them, whose signals are all absent (R278). -/
def oscShared (present : Bool) (g : Gen) (c : OscConfig) (r : Record) (d : Dev) : Dev :=
  let m := g.osc
  let per := oscD g c
  let int_ := oscInternal c r
  let d := { d with osc := { d.osc with inputsAbs := d.osc.inputs, branchesAbs := d.osc.branches } }
  let d := (oscInputs m).foldl (fun d e =>
    let x := oscIn d e.1
    let s := if present then oscSignal g r e.2 x.before.head? else none
    let step (s : Option (List W64)) : OscInRun := oscStepIn c per 1 int_ (f32To64 e.2.norm) s x
    let y := step (s.map fun v => [v])
    let d := if s.isNone then bump d 0x0C 3 else d
    oscInOut e.1 x.out y.out { d with osc := { d.osc with
      inputs := mput {} d.osc.inputs e.1 y, inputsAbs := mput {} d.osc.inputsAbs e.1 ((step none).shedAs y) } }) d
  (oscBranches m).foldl (fun d e =>
    let x := oscBr d e.1
    let s := if present then oscBranchSignals g r e.2 x.before else none
    let step (s : Option (List W64)) : OscInRun := oscStepIn c per 4 int_ one64 s x
    let y := step s
    let d := if x.out && !y.out then oscDropEnergy e.1 d else d
    oscInOut (0x10000 + e.1) x.out y.out { d with osc := { d.osc with
      branches := mput {} d.osc.branches e.1 y, branchesAbs := mput {} d.osc.branchesAbs e.1 ((step none).shedAs y) } }) d

/-! ### Assimilation of an internal instant (R266, R270, R273) -/

/-- The conditioned vector: 0 for an input that is OUT; `absent` as with every signal absent. -/
def oscVector (absent : Bool) (m : OscModel) (d : Dev) : List W64 :=
  (oscInputs m).map fun e => let x := oscIn d e.1; if x.out then 0 else x.y.getD (b2n absent) 0
/-- Unit 1 assimilates the internal instant. -/
def oscTake1 (absent : Bool) (m : OscModel) (c : OscConfig) (d : Dev) : Dev :=
  let n := (oscInputs m).length
  { d with osc := { d.osc with
    tracker := oscTrack n c.rProj c.hb c.w c.fm d.osc.tracker (oscVector absent m d), samples := d.osc.samples + 1 } }
/-- Unit 2 assimilates the internal instant: the vectors that its segments are of, and the energy of each branch for each declared oscillation. -/
def oscTake2 (absent : Bool) (m : OscModel) (c : OscConfig) (d : Dev) : Dev :=
  let recent := (oscVector false m d :: d.osc.recent).take c.foSeg
  let one (d : Dev) (j : Nat) (f : OscFo) (e : Nat × OscBranch) : Dev :=
    let x := oscBr d e.1
    if x.out then d
    else
      let k := j * 4096 + e.1
      let w := (mget ([], 0) d.osc.energy k).1
      let ys := if absent then x.y.drop 4 else x.y.take 4
      { d with osc := { d.osc with energy := mput ([], 0) d.osc.energy k (oscEnergy c.foBw c.foW c.fm f.peak.f w ys) } }
  let d := { d with osc := { d.osc with recent := recent, samples2 := d.osc.samples2 + 1 } }
  d.osc.fos.foldl (fun d f => (oscBranches m).foldl (fun d e => one d f.1 f.2 e) d) d

/-! ### Restarts and the first slot of a generation (R279, R280) -/

/-- Forced-oscillation detection starts again. -/
def oscRestartFo (d : Dev) : Dev :=
  { d with osc := { d.osc with recent := [], spectra := [], samples2 := 0, segments := 0, peaks := [], warm2 := false } }
/-- The tracker starts again, and unit 2 with it. -/
def oscRestartAll (d : Dev) : Dev :=
  oscRestartFo { d with osc := { d.osc with tracker := [], samples := 0, updated := false, warm1 := false } }
/-- A restart counts and is logged. -/
def oscRestarted (why : Nat) (gen : W16) (d : Dev) : Dev := logEv 0x0C01 why gen.toNat 0 (setFlag 0x0C 1 (bump d 0x0C 10))
/-- An input entry as the tracker sees it: its limit does not count. -/
def oscEntryKey (e : Nat × OscInput) : Nat × Nat × Nat × Nat × W32 := (e.1, e.2.kind, e.2.a, e.2.b, e.2.norm)
/-- The filters of the configurations differ. -/
def oscFiltersDiffer (a b : OscConfig) : Bool := a.ostream != b.ostream || a.fm != b.fm || a.fLo != b.fLo || a.fHi != b.fHi
/-- The tracker restarts between two models. -/
def oscTrackerDiffers (a b : OscModel) (x y : OscConfig) : Bool :=
  oscFiltersDiffer x y || x.w != y.w || x.rProj != y.rProj || x.hb != y.hb || x.order != y.order ||
  (oscInputs a).map oscEntryKey != (oscInputs b).map oscEntryKey
/-- A mode slot is freed. -/
def oscFreeMode (ctx : AlmCtx) (k : Nat) (d : Dev) : Dev :=
  let x := mfind d.osc.modes k
  let d := { d with osc := { d.osc with modes := mdel d.osc.modes k, damp := mdel d.osc.damp k, change1 := true } }
  engClear (16 + k) ctx ((x.map fun m => m.cand.ref).getD 0) ((x.map fun m => m.cand.zeta).getD 0) d
/-- The first slot of a generation: the configuration comes into force, and what changed starts again. -/
def oscAdopt (g : Gen) (c : OscConfig) (r : Record) (d : Dev) : Dev :=
  let gen := r.summary.gen
  let m := g.osc
  let was := d.osc.force
  let put (d : Dev) : Dev := { d with osc := { d.osc with force := some m, forceGen := gen } }
  match was.bind fun o => o.config.map fun x => (o, x) with
  | none => oscRestarted 0 gen (oscRestartAll (put d))
  | some (o, x) =>
    let sameIn (i : Nat) : Bool := (mfind (oscInputs o) i).map (fun e => oscEntryKey (i, e)) = (mfind (oscInputs m) i).map (fun e => oscEntryKey (i, e))
    let sameBr (b : Nat) : Bool := mfind (oscBranches o) b = mfind (oscBranches m) b
    let keep := !oscFiltersDiffer x c
    let d := put d
    let d := { d with osc := { d.osc with
      inputs := d.osc.inputs.filter fun e => keep && sameIn e.1
      branches := d.osc.branches.filter fun e => keep && sameBr e.1
      energy := d.osc.energy.filter fun e => keep && sameBr (e.1 % 4096) && x.foBw = c.foBw } }
    let d := if oscTrackerDiffers o m x c then oscRestarted 1 gen (oscRestartAll d)
      else if x.foSeg != c.foSeg || x.foW != c.foW then oscRestarted 1 gen (oscRestartFo d) else d
    ((d.osc.modes.map Prod.fst).filter fun k => c.modesMax ≤ k).foldl (fun d k => oscFreeMode (recCtx r) k d) d
/-- The model in force of a slot's generation, where its engine runs. -/
def oscLive (g : Gen) : Option OscConfig := if g.osc.prep.off then none else oscConfig g
/-- The slots of the generation in force that were shed before their shared stages, and the instants that a unit shed, are assimilated as
absent (R278). -/
def oscCatchUp (d : Dev) : Dev :=
  match d.osc.force.bind fun m => m.config.map fun c => (m, c) with
  | none => { d with osc := { d.osc with late1 := false, late2 := false } }
  | some (m, c) =>
    let d := if d.osc.late1 then oscTake1 true m c d else d
    let d := if d.osc.late2 then oscTake2 true m c d else d
    let mine (r : Record) : Bool := r.summary.gen = d.osc.forceGen
    let lost := d.osc.lost.filter mine
    let d := { d with osc := { d.osc with lost := d.osc.lost.filter (fun r => !mine r), late1 := false, late2 := false } }
    lost.foldl (fun d r => match genByNum d r.summary.gen with
      | some g =>
        let d := oscShared false g c r d
        if oscInternal c r then oscTake2 false m c (oscTake1 false m c d) else d
      | none => d) d
/-- A slot starts: what was shed before it, the configuration of a new generation, a restart that is due, the shared stages, and the work of
each unit that ends with them. -/
def oscStart (g : Gen) (c : OscConfig) (r : Record) (d : Dev) : Dev :=
  let d := oscCatchUp d
  let up := if isUpdate c r.summary then some r else none
  if g.osc.prep.off then { d with osc := { d.osc with lost := [], update1 := up, update2 := up } }
  else
    let d := if d.osc.force.isNone || r.summary.gen != d.osc.forceGen then oscCatchUp (oscAdopt g c r d) else d
    let d := { d with osc := { d.osc with lost := [] } }
    let d := if d.osc.restartDue then
      oscRestarted 2 r.summary.gen (oscRestartAll { d with osc := { d.osc with restartDue := false } }) else d
    let d := oscShared true g c r d
    let int_ := oscInternal c r
    let ev := if oscEvalDue c r then some r else none
    let d := if int_ && up.isNone then oscTake1 false g.osc c d else d
    let d := if int_ && up.isNone && ev.isNone then oscTake2 false g.osc c d else d
    { d with osc := { d.osc with update1 := up, update2 := up, eval2 := ev } }
/-- The generation of a slot with its mode engine's configuration. -/
def oscGen (d : Dev) (r : Record) : Option (Gen × OscConfig) := (genByNum d r.summary.gen).bind fun g => (oscConfig g).map fun c => (g, c)
/-- Neither unit of the mode engine is at work. -/
def oscIdle (d : Dev) : Bool := d.osc.update1.isNone && d.osc.update2.isNone && d.osc.eval2.isNone
/-- OSC_SLOT_START: both units are free, and the waiting slot starts. -/
def execOscSlotStart : State → Host.Outcome State Fault Refusal := runEng fun d =>
  match oscIdle d, d.osc.notices with
  | true, r :: rest =>
    let e := { d with osc := { d.osc with notices := rest } }
    match oscGen e r with
    | none => e
    | some (g, c) => almSettle d (oscStart g c r e)
  | _, _ => d
/-- The generation in force has no configuration any more (R280). -/
def oscRetire (d : Dev) : Dev := if (oscLive d.cur).isNone then { d with osc := { d.osc with force := none } } else d

/-! ### Results -/

/-- Unit 1 is COLD (R279). -/
def oscCold1 (c : OscConfig) (d : Dev) : Bool := decide (d.osc.samples < c.w * c.fm) || !d.osc.updated
/-- Unit 2 is COLD (R279). -/
def oscCold2 (c : OscConfig) (d : Dev) : Bool := decide (d.osc.segments < oscK c)
/-- The status of a result (Table 9-5). -/
def oscStatusOf (g : Gen) (c : OscConfig) (cold : Bool) (d : Dev) : Nat :=
  if g.osc.prep.off then 3
  else if f64Lt (f64Mul (f32To64 c.outFrac) (f64Int (oscInputs g.osc).length)) (f64Int (oscInsOut g.osc d)) then 1
  else if cold then 2 else 0
/-- A raised source of a unit. -/
def oscAlarmOn (d : Dev) (unit : Nat) : Bool :=
  d.alm.sources.any fun e => e.2.raised && (if unit = 1 then (16 ≤ e.1 && e.1 < 48) || e.1 = 64 else 48 ≤ e.1 && e.1 < 64)
/-- The flags of a quality record (Table 9-6). -/
def oscFlags (m : OscModel) (r : Record) (unit : Nat) (cold : Bool) (d : Dev) : Nat :=
  let o := d.osc
  b2n r.summary.warming + 2 * b2n cold + 4 * b2n ((if unit = 1 then oscInsOut m d else oscBrsOut m d) != 0) +
    8 * b2n (if unit = 1 then o.change1 else o.change2) + 16 * b2n (oscAlarmOn d unit) + 32 * b2n (unit = 2 && bit o.flags.toNat 5) +
    64 * b2n (if unit = 1 then o.shed1 else o.shed2)
/-- Entry 0 of a quality record from byte 8. -/
def oscHead (m : OscModel) (r : Record) (unit status flags : Nat) (c : OscConfig) (d : Dev) : Bytes :=
  let n := if unit = 1 then (oscInputs m).length else (oscBranches m).length
  let out := if unit = 1 then oscInsOut m d else oscBrsOut m d
  slotBytes r.summary ++ leBytes 1 0x0C ++ leBytes 1 (status + 16 * unit) ++ leBytes 2 flags ++ leBytes 4 (n - out) ++ leBytes 4 out ++
    leBytes 4 (min 0xFFFFFFFF (if unit = 1 then d.osc.samples else d.osc.samples2)) ++
    leBytes 1 (if unit = 1 then d.osc.modes.length else d.osc.fos.length) ++ leBytes 1 (if unit = 1 then 0 else oscK c) ++ leBytes 2 0 ++
    leBytes 4 (nowNs d - r.commitNs)
/-- The counters of a delivered update. -/
def oscCount (status outs : Nat) (d : Dev) : Dev :=
  let d := bump d 0x0C 1
  match status with
  | 1 => tally tallyInsuff 0 1 outs (setFlag 0x0C 3 (bump d 0x0C 2))
  | 2 => bump d 0x0C 11
  | _ => d
/-- The first VALID result of a unit is logged. -/
def oscWarm (unit status : Nat) (d : Dev) : Dev :=
  if status != 0 || (if unit = 1 then d.osc.warm1 else d.osc.warm2) then d
  else logEv 0x0C03 unit 0 0 { d with osc := if unit = 1 then { d.osc with warm1 := true } else { d.osc with warm2 := true } }

/-! ### Modes (R267, R268) -/

/-- Candidates in descending energy fraction; of equal ones the earlier first. -/
def insertCand (a : OscCand) : List OscCand → List OscCand
  | [] => [a]
  | b :: t => if f64Le b.e a.e then a :: b :: t else b :: insertCand a t
/-- The candidates that are reported. -/
def oscCands (m : OscModel) (c : OscConfig) (d : Dev) : List OscCand :=
  let raw := (oscIdentify c.rProj c.hb c.order c.fm ((oscInputs m).map fun e => (e.1, f32To64 e.2.norm)) d.osc.tracker).map fun x =>
    let k : OscCand := { f := x.f, zeta := x.zeta, amp := x.amp, e := x.e, ref := x.ref, shape := x.shape }
    k
  let ok := raw.filter fun k => f64Le (f32To64 c.fLo) k.f && f64Le k.f (f32To64 c.fHi) && f64Le 0xBFA999999999999A k.zeta &&
    f64Le k.zeta 0x3FD3333333333333 && f64Le (f32To64 c.efMin) k.e
  (ok.foldr insertCand []).take c.modesMax
/-- The tracking distance of a candidate to a slot, where it lies within both gates. -/
def oscGate (c : OscConfig) (m : OscMode) (k : OscCand) : Option W64 :=
  let df := f64Abs (f64Sub k.f m.cand.f)
  let dz := f64Abs (f64Sub k.zeta m.cand.zeta)
  if f64Le df (f32To64 c.trackDf) && f64Le dz (f32To64 c.trackDz) then
    some (f64Add (f64Div df (f32To64 c.trackDf)) (f64Div dz (f32To64 c.trackDz))) else none
/-- The nearest candidate within the gates; of equal ones the first. -/
def oscNearest (c : OscConfig) (m : OscMode) (l : List OscCand) : Option OscCand :=
  (l.foldl (fun (b : Option (OscCand × W64)) k => match oscGate c m k, b with
    | some x, none => some (k, x)
    | some x, some y => if f64Lt x y.2 then some (k, x) else b
    | none, _ => b) none).map Prod.fst
/-- The slots after an update: the matched ones, then new ones, then the stale ones, of which those past TRACK_HOLD are to be freed. -/
structure OscTracked where
  modes : NMap OscMode
  left  : List OscCand
  new   : Nat := 0
  freed : List Nat := []
/-- Mode slots assigned (R268). -/
def oscAssign (c : OscConfig) (modes : NMap OscMode) (cands : List OscCand) : OscTracked :=
  let a : OscTracked := modes.foldl (fun (s : OscTracked) e => match oscNearest c e.2 s.left with
    | some k => { s with modes := mset s.modes e.1 { cand := k, age := e.2.age + 1, stale := 0, fresh := false }, left := s.left.erase k }
    | none => { s with modes := mset s.modes e.1 { e.2 with stale := e.2.stale + 1, fresh := false } }) { modes := [], left := cands }
  let b : OscTracked := a.left.foldl (fun (s : OscTracked) k =>
    match (List.range c.modesMax).find? fun i => (mfind s.modes i).isNone with
    | some i => { s with modes := mset s.modes i { cand := k }, new := s.new + 1 }
    | none => s) a
  { b with freed := (b.modes.filter fun e => c.trackHold ≤ e.2.stale).map Prod.fst }
/-- An update's slots take effect. -/
def oscTrackModes (ctx : AlmCtx) (t : OscTracked) (d : Dev) : Dev :=
  let d := { d with osc := { d.osc with modes := t.modes, change1 := d.osc.change1 || t.new != 0 } }
  t.freed.foldl (fun d k => oscFreeMode ctx k (bump d 0x0C 7)) (bumpN d 0x0C 6 t.new)
/-- The damping alarm of a tracked slot (R282). -/
def oscDamp (m : OscModel) (c : OscConfig) (ctx : AlmCtx) (d : Dev) (k : Nat) (x : OscMode) : Dev :=
  if x.stale != 0 then d
  else
    let norm := f32To64 (((mfind m.inputs x.cand.ref).map OscInput.norm).getD 0)
    let low := f64Lt x.cand.zeta (f32To64 c.dampLim)
    let on := low && f64Le (f32To64 c.dampAmpMin) (f64Div x.cand.amp norm)
    let off := f64Le (f64Add (f32To64 c.dampLim) (f32To64 c.dampHyst)) x.cand.zeta
    let a := mget {} d.osc.damp k
    let y : AlarmCount := { onN := if on then min 255 (a.onN + 1) else 0, offN := if off then min 255 (a.offN + 1) else 0 }
    let d := { d with osc := { d.osc with damp := mput {} d.osc.damp k y } }
    if c.dampN ≤ y.onN then engRaise (16 + k) ctx x.cand.ref x.cand.zeta (f32To64 c.dampLim) d
    else if c.dampN ≤ y.offN then engClear (16 + k) ctx x.cand.ref x.cand.zeta d
    else d
/-- The value of an output of unit 1 (Table 9-4). -/
def oscOut1 (g : Gen) (status flags : Nat) (d : Dev) (e : DirEntry) : W64 :=
  let n := e.outnum
  let none1 := invalidVal 1
  let live (k : Nat) : Option OscMode := if status = 0 then (mfind d.osc.modes k).filter fun m => m.stale = 0 else none
  if n < 256 then
    match live (n / 8) with
    | none => none1
    | some m => match n % 8 with
      | 0 => realOut m.cand.f
      | 1 => realOut m.cand.zeta
      | 2 => realOut m.cand.amp
      | 3 => realOut m.cand.e
      | 4 => f64Int m.cand.ref
      | 5 => f64Int m.age
      | _ => none1
  else if 65536 ≤ n && n < 589824 then
    let i := (n - 65536) % 16384
    match live ((n - 65536) / 16384) with
    | none => none1
    | some m => if (mfind (oscInputs g.osc) i).isNone || (oscIn d i).out then none1 else (mfind m.cand.shape i).getD none1
  else if n = 1310720 then digitalOut (scaleOf g e.scale) (status + flags % 512 * 16)
  else none1
/-- The entries 1 to 8 of unit 1's record. -/
def oscModeEntries (d : Dev) : List Bytes :=
  let one (k : Nat) : Bytes := match mfind d.osc.modes k with
    | none => List.replicate 16 0
    | some m => pk (f64To32 m.cand.f) ++ pk (f64To32 m.cand.zeta) ++ pk (f64To32 m.cand.amp) ++ leBytes 2 m.age ++
        leBytes 1 (if m.stale != 0 then 2 else if m.fresh then 3 else 1) ++ leBytes 1 (mget {} d.osc.damp k).onN
  (List.range 8).map fun e => ((List.range 4).map fun i => one (4 * e + i)).flatten
/-- A unit's DERIVED stream takes its reports: always in force, and in a disabled generation where it is still of that kind and rate. -/
def oscTakes (g : Gen) (c : OscConfig) (stream : Nat) : Bool := !g.osc.prep.off || derivedAt g stream (3600 / c.update)
/-- A report of a unit enters its DERIVED stream; where none takes it, nothing enters. -/
def oscPost (g : Gen) (c : OscConfig) (stream : Nat) (r : Record) (vals : List W64) (d : Dev) : Bool × Dev :=
  if oscTakes g c stream then enterInternal stream r.summary.sec (BitVec.ofNat 32 (tickStartNs r.summary.tick)) vals d else (true, d)
/-- Unit 1's results at an update: the instant is assimilated, the slots are assigned and the alarms judged where the status allows. -/
def oscUpdate1 (g : Gen) (c : OscConfig) (r : Record) (d : Dev) : Nat × Bool × Dev :=
  if g.osc.prep.off then (3, false, d)
  else
    let ctx := recCtx r
    let d := oscTake1 false g.osc c d
    let cold := oscCold1 c d
    let st := oscStatusOf g c cold d
    let d := { d with osc := { d.osc with updated := true } }
    let d := if st = 0 then oscTrackModes ctx (oscAssign c d.osc.modes (oscCands g.osc c d)) d else d
    let d := if st = 0 then d.osc.modes.foldl (fun d e => oscDamp g.osc c ctx d e.1 e.2) d else d
    let n := d.osc.insuff.next (st = 1)
    (st, cold, if cold then d else
      judgeAlarm 64 c.insuffN c.insuffN ctx n (oscInsOut g.osc d) 0 0 { d with osc := { d.osc with insuff := n } })
/-- The delivery of unit 1's update; a report that finds no room is a shed of an instant not yet assimilated. The flags are those after the
alarms, in the report as in the record. -/
def oscDeliver1 (g : Gen) (c : OscConfig) (r : Record) (before : Dev) : Dev :=
  let d := { before with osc := { before.osc with update1 := none } }
  let room := oscPost g c c.modeStream r [] d
  if !room.1 then oscShed1 true r room.2
  else
    let u := oscUpdate1 g c r d
    let st := u.1
    let d := almSettle before u.2.2
    let fl := oscFlags g.osc r 1 u.2.1 d
    let d := (oscPost g c c.modeStream r (derivedVals g c.modeStream 3 fun e => oscOut1 g st fl d e) d).2
    let d := postRecord 8 (oscHead g.osc r 1 st fl c d) (oscModeEntries d) d
    let d := oscWarm 1 st (oscCount st (oscInsOut g.osc d) d)
    { d with osc := { d.osc with stMode := st, shed1 := false, change1 := false } }
/-- OSC_MODE_UPDATE_DELIVERED: unit 1's update is delivered. -/
def execOscModeUpdateDelivered : State → Host.Outcome State Fault Refusal := runEng fun d =>
  match d.osc.update1 with
  | none => d
  | some r => match oscGen d r with
    | none => { d with osc := { d.osc with update1 := none } }
    | some (g, c) => oscDeliver1 g c r d

/-! ### Forced oscillations (R270 to R274) -/

/-- The amplitude of an input at a frequency (R272), in its units. -/
def oscAmp (c : OscConfig) (d : Dev) (f : W64) (i : Nat) (x : OscInput) : W64 :=
  f64Mul (f64Div (f64Mul (f64Int 4) (oscTone c.fm f (oscIn d i).hist)) (f64Int c.foSeg)) (f32To64 x.norm)
/-- The amplitudes of the inputs that are not OUT. -/
def oscAmps (m : OscModel) (c : OscConfig) (d : Dev) (f : W64) : NMap W64 :=
  ((oscInputs m).filter fun e => !(oscIn d e.1).out).map fun e => (e.1, oscAmp c d f e.1 e.2)
/-- The input of largest ratio to its limit, among those at or above it: its amplitude and limit. -/
def oscAtLimit (m : OscModel) (amps : NMap W64) : Option (Nat × W64 × W64) :=
  let l := amps.filterMap fun e => match mfind m.inputs e.1 with
    | some x =>
      let lim := f32To64 x.lim
      if bits x.lim.toNat 0 31 != 0 && f64Le lim e.2 then some (e.1, f64Div e.2 lim) else none
    | none => none
  (argMax l).map fun b => (b.1, mget 0 amps b.1, f32To64 (((mfind m.inputs b.1).map OscInput.lim).getD 0))
/-- The seconds between two instants, as a real. -/
def oscAge (f : OscFo) (r : Record) : W64 := f64Div (f64Int (recOrd r - tickOrd f.sec f.tick : Nat)) (f64Int 3600)
/-- An oscillation is cleared (R271). -/
def oscClearFo (ctx : AlmCtx) (r : Record) (j : Nat) (f : OscFo) (d : Dev) : Dev :=
  let d := { d with osc := { d.osc with
    fos := mdel d.osc.fos j, foAmp := mdel d.osc.foAmp j, energy := mclear d.osc.energy (j * 4096) 4096, change2 := true } }
  let d := engClear (48 + j) ctx (f.source.getD 0xFFFFFFFF) f.peak.f d
  let d := engClear (56 + j) ctx (sourceOf d (56 + j)).detail.toNat (sourceOf d (56 + j)).value d
  logEv 0x0C05 j ((recOrd r - tickOrd f.sec f.tick) / 3600) 0 (bump d 0x0C 9)
/-- The FO_AMP alarm of a forced slot after an evaluation. -/
def oscFoAmp (m : OscModel) (c : OscConfig) (ctx : AlmCtx) (j : Nat) (f : OscFo) (y : AlarmCount) (d : Dev) : Dev :=
  let d := { d with osc := { d.osc with foAmp := mput {} d.osc.foAmp j y } }
  match oscAtLimit m f.amps with
  | some (i, a, lim) => if c.foN ≤ y.onN then engRaise (56 + j) ctx i a lim d else d
  | none => if y.offN != 0 && c.foN ≤ y.offN then engClear (56 + j) ctx (sourceOf d (56 + j)).detail.toNat (sourceOf d (56 + j)).value d else d
/-- One declared oscillation after an evaluation. -/
def oscStepFo (m : OscModel) (c : OscConfig) (r : Record) (peaks : List OscPeak) (d : Dev) (e : Nat × OscFo) : Dev :=
  let j := e.1
  let f := e.2
  match peaks.find? fun p => p.bin ≤ f.peak.bin + 1 && f.peak.bin ≤ p.bin + 1 with
  | none =>
    if c.foN ≤ f.missing + 1 then oscClearFo (recCtx r) r j f d
    else
      let f := { f with missing := f.missing + 1, amps := oscAmps m c d f.peak.f }
      oscFoAmp m c (recCtx r) j f ((mget {} d.osc.foAmp j).next (oscAtLimit m f.amps).isSome)
        { d with osc := { d.osc with fos := mset d.osc.fos j f } }
  | some p =>
    let f := { f with missing := 0, peak := p, amps := oscAmps m c d p.f }
    oscFoAmp m c (recCtx r) j f ((mget {} d.osc.foAmp j).next (oscAtLimit m f.amps).isSome)
      { d with osc := { d.osc with fos := mset d.osc.fos j f } }
/-- One peak that belongs to no declared oscillation. -/
def oscStepPeak (m : OscModel) (c : OscConfig) (r : Record) (was : List OscPend) (d : Dev) (p : OscPeak) : Dev :=
  let old := was.find? fun q => p.bin ≤ q.peak.bin + 1 && q.peak.bin ≤ p.bin + 1
  let amps := oscAmps m c d p.f
  let y := ((old.map OscPend.amp).getD {}).next (oscAtLimit m amps).isSome
  let n := (old.map OscPend.n).getD 0 + 1
  let wait (d : Dev) : Dev := { d with osc := { d.osc with peaks := d.osc.peaks ++ [{ peak := p, n := n, amp := y }] } }
  if n < c.foN then wait d
  else match (List.range 8).find? fun j => (mfind d.osc.fos j).isNone with
    | none => setFlag 0x0C 5 (wait d)
    | some j =>
      let f : OscFo := { peak := p, sec := r.summary.sec, tick := r.summary.tick, amps := amps }
      let d := { d with osc := { d.osc with fos := mset d.osc.fos j f, energy := mclear d.osc.energy (j * 4096) 4096, change2 := true } }
      let d := logEv 0x0C04 j (f64Floor (f64Mul (f64Int 1000) p.f)).toNat 0xFFFFFFFF (setFlag 0x0C 4 (bump d 0x0C 8))
      oscFoAmp m c (recCtx r) j f y (engRaise (48 + j) (recCtx r) 0xFFFFFFFF p.f 0 d)
/-- The peaks of an evaluation (R271). -/
def oscPeaksOf (c : OscConfig) (d : Dev) : List OscPeak :=
  let raw := (oscPeaks c.rProj c.fm c.foSeg c.fLo c.fHi c.peakRatio d.osc.spectra).map fun x =>
    let p : OscPeak := { bin := x.1, f := x.2.1, eta := x.2.2.1, cv := x.2.2.2 }
    p
  raw.filter fun p => f64Le (f32To64 c.cohMin) p.eta && f64Le p.cv (f32To64 c.cvMax)
/-- An evaluation that is computed. -/
def oscEvaluate (m : OscModel) (c : OscConfig) (r : Record) (d : Dev) : Dev :=
  let peaks := oscPeaksOf c d
  let near (p : OscPeak) : Bool := d.osc.fos.any fun e => p.bin ≤ e.2.peak.bin + 1 && e.2.peak.bin ≤ p.bin + 1
  let free := peaks.filter fun p => !near p
  let was := d.osc.peaks
  let d := d.osc.fos.foldl (oscStepFo m c r peaks) d
  free.foldl (oscStepPeak m c r was) { d with osc := { d.osc with peaks := [] } }
/-- A segment is completed, with the basis U that unit 1 has now; the K most recent are kept (R270). -/
def oscSegment (m : OscModel) (c : OscConfig) (d : Dev) : Dev :=
  let n := (oscInputs m).length
  let s := segmentOf n c.rProj c.foSeg (bandBins c.fm c.foSeg c.fLo c.fHi) (d.osc.tracker.take (n * c.rProj)) d.osc.recent
  { d with osc := { d.osc with spectra := (s :: d.osc.spectra).take (oscK c), segments := d.osc.segments + 1 } }
/-- Unit 2 completes the evaluation of its slot. -/
def oscEvalSlot (g : Gen) (c : OscConfig) (r : Record) (before : Dev) : Dev :=
  let d := oscTake2 false g.osc c { before with osc := { before.osc with eval2 := none } }
  let d := bump d 0x0C 13
  let d := if c.foSeg ≤ d.osc.samples2 then oscSegment g.osc c d else d
  if oscStatusOf g c (oscCold2 c d) d = 0 then almSettle before (oscEvaluate g.osc c r d) else d
/-- OSC_FO_EVALUATION: the evaluation that is due. -/
def execOscFoEvaluation : State → Host.Outcome State Fault Refusal := runEng fun d =>
  match d.osc.eval2 with
  | none => d
  | some r => match oscGen d r with
    | none => { d with osc := { d.osc with eval2 := none } }
    | some (g, c) => oscEvalSlot g c r d
/-- The slopes and the source of each declared oscillation (R273, R274). -/
def oscSource (m : OscModel) (d : Dev) (j : Nat) (f : OscFo) : OscFo :=
  let ds := ((oscBranches m).filter fun e => !(oscBr d e.1).out).filterMap fun e => (mfind d.osc.energy (j * 4096 + e.1)).map fun w => (e.1, w.2)
  let best := (argMax ds).filter fun b => f64Lt 0 b.2
  let total := f64Sum (ds.map fun e => f64Abs e.2)
  { f with slopes := ds, source := best.map Prod.fst, share := (best.map fun b => f64Div b.2 total).getD 0 }
/-- The value of an output of unit 2 (Table 9-4). -/
def oscOut2 (g : Gen) (r : Record) (status flags : Nat) (d : Dev) (e : DirEntry) : W64 :=
  let n := e.outnum
  let none1 := invalidVal 1
  let inUse (i : Nat) : Bool := (mfind (oscInputs g.osc) i).isSome && !(oscIn d i).out
  let val (v : Option W64) : W64 := (v.map realOut).getD none1
  if 1048576 ≤ n && n < 1048640 then
    match if status = 0 then mfind d.osc.fos ((n - 1048576) / 8) else none with
    | none => none1
    | some f =>
      let big := argMax (f.amps.filterMap fun a => (mfind g.osc.inputs a.1).map fun x => (a.1, f64Div a.2 (f32To64 x.norm)))
      match n % 8 with
      | 0 => realOut f.peak.f
      | 1 => realOut f.peak.eta
      | 2 => realOut f.peak.cv
      | 3 => val (f.source.map fun b => f64Int b)
      | 4 => if f.source.isSome then realOut f.share else none1
      | 5 => realOut (oscAge f r)
      | 6 => val (big.map fun b => f64Int b.1)
      | _ => val (big.bind fun b => mfind f.amps b.1)
  else if 1114112 ≤ n && n < 1146880 then
    let b := (n - 1114112) % 4096
    if (mfind (oscBranches g.osc) b).isNone || (oscBr d b).out then none1
    else val ((mfind d.osc.fos ((n - 1114112) / 4096)).bind fun f => mfind f.slopes b)
  else if 1179648 ≤ n && n < 1310720 then
    let i := (n - 1179648) % 16384
    if !inUse i then none1 else val ((mfind d.osc.fos ((n - 1179648) / 16384)).bind fun f => mfind f.amps i)
  else if n = 1310721 then digitalOut (scaleOf g e.scale) (status + flags % 512 * 16)
  else none1
/-- The entries 1 and 2 of unit 2's record. -/
def oscFoEntries (d : Dev) : List Bytes :=
  let one (j : Nat) : Bytes := match mfind d.osc.fos j with
    | none => List.replicate 16 0
    | some f => pk (f64To32 f.peak.f) ++ pk (f64To32 f.peak.eta) ++ pk (f64To32 f.share) ++ leBytes 2 (f.source.getD 0xFFFF) ++ [1] ++
        leBytes 1 (mget {} d.osc.foAmp j).onN
  (List.range 2).map fun e => ((List.range 4).map fun i => one (4 * e + i)).flatten
/-- The delivery of unit 2's update; a report that finds no room is a shed. An evaluation of the same slot has assimilated its instant. -/
def oscDeliver2 (g : Gen) (c : OscConfig) (r : Record) (d : Dev) : Dev :=
  let d := { d with osc := { d.osc with update2 := none } }
  let due := !g.osc.prep.off && !oscEvalDue c r
  let room := oscPost g c c.foStream r [] d
  if !room.1 then oscShed2 due r room.2
  else
    let d := if due then oscTake2 false g.osc c d else d
    let d := { d with osc := { d.osc with fos := d.osc.fos.map fun e => (e.1, oscSource g.osc d e.1 e.2) } }
    let cold := !g.osc.prep.off && oscCold2 c d
    let st := oscStatusOf g c cold d
    let fl := oscFlags g.osc r 2 cold d
    let d := (oscPost g c c.foStream r (derivedVals g c.foStream 3 fun e => oscOut2 g r st fl d e) d).2
    let d := postRecord 8 (oscHead g.osc r 2 st fl c d) (oscFoEntries d) d
    let d := oscWarm 2 st (oscCount st (oscInsOut g.osc d) d)
    { d with osc := { d.osc with stFo := st, shed2 := false, change2 := false } }
/-- OSC_FO_UPDATE_DELIVERED: unit 2's update is delivered, after the evaluation of its slot. -/
def execOscFoUpdateDelivered : State → Host.Outcome State Fault Refusal := runEng fun d =>
  match d.osc.update2, d.osc.eval2 with
  | some r, none => match oscGen d r with
    | none => { d with osc := { d.osc with update2 := none } }
    | some (g, c) => oscDeliver2 g c r d
  | _, _ => d

end Sys2Proof.Machine
end

