-- ==== Sys2Proof/Machine/OscCmd.lean ====
section
/-!
DEFINITION. The mode engine's commands (chapter 9, Tables 9-2, 9-11, 9-12 and 9-14) and its preparation (R281).
-/
namespace Sys2Proof.Machine

/-! ### OSC_CONFIG -/

/-- The configuration of a parameter block (Table 9-14). -/
def oscConfigOf (b : Bytes) : OscConfig :=
  let n (o k : Nat) : Nat := leAt b o k
  let w (o : Nat) : W32 := BitVec.ofNat 32 (leAt b o 4)
  { enable := n 0 1 = 1, fm := n 1 1, ostream := n 2 2, modeStream := n 4 3, foStream := n 7 3, fLo := w 10, fHi := w 14, w := n 18 1,
    rProj := n 19 1, hb := n 20 1, order := n 21 1, modesMax := n 22 1, trackHold := n 23 1, update := n 24 2, gapMax := n 26 1,
    rejoinN := n 27 1, efMin := w 28, trackDf := w 32, trackDz := w 36, outFrac := w 40, foSeg := n 44 2, foW := n 46 1, foN := n 47 1,
    cohMin := w 48, peakRatio := w 52, cvMax := w 56, foBw := w 60, dampLim := w 64, dampHyst := w 68, dampN := n 72 1, insuffN := n 73 1,
    dampAmpMin := w 76 }
/-- A field outside Table 9-2 or Table 9-14. -/
def oscFieldBad (b : Bytes) : Bool :=
  let c := oscConfigOf b
  let out (v lo hi : Nat) : Bool := v < lo || hi < v
  let outR (v lo hi : W32) : Bool := !f32Between v lo hi
  1 < leAt b 0 1 || !rates.contains c.fm || out c.fm 10 60 || 4095 < c.ostream || 262143 < c.modeStream || 262143 < c.foStream ||
  outR c.fLo 0x3C23D70A 0x40A00000 || outR c.fHi 0x3C23D70A 0x40A00000 || out c.w 10 120 || out c.rProj 8 64 || out c.hb 2 16 ||
  out c.order 4 64 || c.order % 2 = 1 || out c.modesMax 1 32 || out c.trackHold 1 63 || !(rates.map periodTicks).contains c.update ||
  c.gapMax = 0 || c.rejoinN = 0 || outR c.efMin 0x3A83126F 0x3F000000 || outR c.trackDf 0x3A83126F 0x3E4CCCCD ||
  outR c.trackDz 0x3BA3D70A 0x3E4CCCCD || outR c.outFrac 0x3C23D70A 0x3F800000 || !([128, 256, 512, 1024, 2048].contains c.foSeg) ||
  out c.foW 10 120 || out c.foN 1 63 || outR c.cohMin 0x3F000000 0x3F7FBE77 || outR c.peakRatio 0x40000000 0x447A0000 ||
  outR c.cvMax 0x3D4CCCCD 0x3F000000 || outR c.foBw 0x3CA3D70A 0x3F000000 || outR c.dampLim 0 0x3E4CCCCD || outR c.dampHyst 0 0x3D4CCCCD ||
  c.dampN = 0 || c.insuffN = 0 || outR c.dampAmpMin 0 0x42C80000 || !allZero (cut b 74 2) || !allZero (cut b 80 48)
/-- A breach of the constraints below Table 9-2 that does not rest on the O-stream. -/
def oscRuleBad (c : OscConfig) : Bool :=
  f32Le c.fHi c.fLo || f64Lt (f64Int (2 * c.fm : Nat)) (f64Mul (f64Int 5) (f32To64 c.fHi)) || 256 < c.hb * c.rProj ||
  c.hb * c.rProj < c.order || c.order / 2 < c.modesMax || c.update % oscPm c != 0 || c.foW * c.fm < c.foSeg || oscK c < 8
/-- The O-stream of a configuration breaks R260 or R261. -/
def oscOstreamBad (g : Gen) (c : OscConfig) : Bool :=
  match mfind g.os c.ostream with
  | some o => o.rate < 10 || 240 < o.rate || o.rate < c.fm || oscPm c % periodTicks o.rate != 0
  | none => true
/-- OSC_CONFIG (R261, R285). -/
def execOscConfig (h : Hdr) (src : BlockSrc) (block : Bytes) : State → Host.Outcome State Fault Refusal :=
  cmdBlock h 0x0610 src 128 block (fun b d =>
    let c := oscConfigOf b
    stageFree (oscFieldBad b || oscRuleBad c || oscOstreamBad d.staged c) (fun g => { g with osc := { g.osc with config := some c } }) d)

/-! ### OSC_LOAD and OSC_CLEAR (R284) -/

/-- The mode engine's tables. -/
def oscTables : Nat → Option EngTable
  | 0 => some { size := 16384, width := 16 }
  | 1 => some { size := 4096, width := 16 }
  | _ => none
/-- An entry that OSC_LOAD refuses, DEFINED or not (R284). -/
def oscBad (table : Nat) (b : Bytes) : Bool :=
  let w0 := leAt b 0 4
  let w1 := leAt b 4 4
  let norm : W32 := BitVec.ofNat 32 (leAt b 8 4)
  let lim : W32 := BitVec.ofNat 32 (leAt b 12 4)
  if table = 0 then
    bits w0 28 3 != 0 || bits w1 25 7 != 0 || 3 < bits w0 25 3 || !f32Fin norm || !f32Lt 0 norm || !f32Le 0 lim ||
      ((bits w0 25 3 = 0 || bits w0 25 3 = 3) && w1 != 0)
  else bits w0 25 6 != 0 || bits w1 25 7 != 0 || !allZero (cut b 8 8)
/-- Writes an entry of a table. -/
def oscPut (table : Nat) (g : Gen) (i : Nat) (b : Bytes) : Gen :=
  let w0 := leAt b 0 4
  let w1 := leAt b 4 4
  let x : OscInput := { kind := bits w0 25 3, a := bits w0 0 25, b := bits w1 0 25, norm := BitVec.ofNat 32 (leAt b 8 4),
                        lim := BitVec.ofNat 32 (leAt b 12 4) }
  let y : OscBranch := { v := bits w0 0 25, i := bits w1 0 25 }
  let m := g.osc
  { g with osc :=
    if table = 0 then { m with inputs := if bit w0 31 then mset m.inputs i x else mdel m.inputs i }
    else { m with branches := if bit w0 31 then mset m.branches i y else mdel m.branches i } }
/-- OSC_LOAD. -/
def execOscLoad (h : Hdr) (p : LoadP) : State → Host.Outcome State Fault Refusal :=
  cmd h 0x0611 (p.bytes true) (p.source = 0) (engLoad h oscTables p fun d =>
    { d with osc := { d.osc with loads := d.osc.loads ++ [loadRun h p] } })
/-- OSC_LOAD_DONE. -/
def execOscLoadDone (data : Bytes) (readOk : Bool) : State → Host.Outcome State Fault Refusal := runLive fun d =>
  match d.osc.loads with
  | [] => d
  | l :: rest => engDone l oscTables oscBad oscPut data readOk { d with osc := { d.osc with loads := rest } }
/-- OSC_CLEAR. -/
def execOscClear (h : Hdr) (table : Byte) (first count : W32) : State → Host.Outcome State Fault Refusal :=
  cmdPlain h 0x0612 (pk table ++ pk first ++ pk count) fun d =>
    let f := first.toNat
    let n := count.toNat
    stageFree (match oscTables table.toNat with | some t => rangeBad t.size f n | none => true) (fun g =>
      let m := g.osc
      { g with osc := if table = 0 then { m with inputs := mclear m.inputs f n } else { m with branches := mclear m.branches f n } }) d

/-! ### Preparation (R281) -/

/-- A channel may feed the engine: it fits a test, has the engine's bit and belongs to a contributor of the O-stream. -/
def engChan (g : Gen) (ostream : Nat) (use fits : DirEntry → Bool) (chan : Nat) : Bool :=
  let e := entryOf g chan
  fits e && use e && ((membsOf g ostream).any fun m => m.2.stream = e.stream)
/-- A phasor of a quantity. -/
def isPhasorOf (q : Nat) (e : DirEntry) : Bool := e.type = 1 && e.qty = q
/-- The channels of an input fit Table 9-3. -/
def oscInputFits (g : Gen) (c : OscConfig) (x : OscInput) : Bool :=
  let ok := engChan g c.ostream DirEntry.osc
  match x.kind with
  | 0 => ok (fun e => e.type = 2) x.a
  | 1 => ok (fun e => e.type = 1) x.a && ok (fun e => e.type = 1 && e.qty = (entryOf g x.a).qty) x.b
  | 2 => ok (isPhasorOf 0) x.a && ok (isPhasorOf 1) x.b
  | _ => ok (fun e => e.type = 4 || (e.type = 6 && e.format = 1)) x.a
/-- The outputs of a unit by number (R275, Table 9-4). -/
def oscOutputOf (unit n : Nat) : Bool :=
  if unit = 1 then n < 256 || (65536 ≤ n && n < 589824) || n = 1310720
  else (1048576 ≤ n && n < 1048640) || (1114112 ≤ n && n < 1146880) || (1179648 ≤ n && n < 1310720) || n = 1310721
/-- The channels of a DERIVED stream with an origin whose output number is not among those given (R275, R281). -/
def badOutputs (g : Gen) (stream origin : Nat) (fits : Nat → Bool) : List Nat :=
  match mfind g.streams stream with
  | none => []
  | some s => (rangeFrom s.firstChan s.count).filter fun c => let e := entryOf g c; e.origin = origin && !fits e.outnum
/-- What preparation disables. -/
def oscPrepOf (g : Gen) (c : OscConfig) : EnginePrep :=
  let ok := engChan g c.ostream DirEntry.osc
  { inputsOff := (g.osc.inputs.filter fun e => !oscInputFits g c e.2).map Prod.fst
    branchesOff := (g.osc.branches.filter fun e => !(ok (isPhasorOf 0) e.2.v && ok (isPhasorOf 1) e.2.i)).map Prod.fst
    chansOff := badOutputs g c.modeStream 3 (oscOutputOf 1) ++ badOutputs g c.foStream 3 (oscOutputOf 2)
    off := !(derivedAt g c.modeStream (3600 / c.update) && derivedAt g c.foStream (3600 / c.update)) || oscOstreamBad g c }
/-- The acceptance of GEN_SWITCH. -/
def oscPrepare (d : Dev) : Dev :=
  let put (p : EnginePrep) : Dev := { d with staged := { d.staged with osc := { d.staged.osc with prep := p } } }
  match oscConfig d.staged with
  | none => put {}
  | some c =>
    let p := oscPrepOf d.staged c
    if p = {} then put p
    else logEv 0x0C02 p.inputsOff.length p.branchesOff.length (b2n p.off) (setFlag 0x0C 0 (put p))

/-! ### Status -/

/-- OSC_STAT. -/
def oscStat (d : Dev) : Nat :=
  d.osc.modes.length * 2 ^ 18 + d.osc.fos.length * 2 ^ 14 + b2n (oscAlarmOn d 1 || oscAlarmOn d 2) * 2 ^ 13 +
    b2n d.osc.force.isSome * 2 ^ 12 + d.osc.stFo * 16 + d.osc.stMode
/-- OSC_INPUTS. -/
def oscInputsReg (d : Dev) : Nat :=
  match d.osc.force with
  | some m => oscInsOut m d * 2 ^ 16 + (oscInputs m).length
  | none => 0
/-- The count and the first index of what a preparation disabled. -/
def prepBytes (p : EnginePrep) : Bytes :=
  let l := p.inputsOff ++ p.branchesOff ++ p.chansOff
  leBytes 4 l.length ++ leBytes 4 (l.head?.getD 0)
/-- OSC_STATUS. -/
def execOscStatus (h : Hdr) : State → Host.Outcome State Fault Refusal :=
  cmdPlain h 0x0613 [] fun d => okayWith (leBytes 4 (oscStat d) ++ leBytes 4 (oscInputsReg d) ++ leBytes 4 (min 0xFFFFFFFF d.osc.samples) ++
    leBytes 4 (min 0xFFFFFFFF d.osc.segments) ++ prepBytes (if d.clk.pending.isSome then d.staged else d.cur).osc.prep) d
/-- OSC_RESTART (R280). -/
def execOscRestart (h : Hdr) : State → Host.Outcome State Fault Refusal :=
  cmdPlain h 0x0614 [] fun d => checks [(d.osc.force.isNone, .notPermitted)] (fun d =>
    okay { d with osc := { d.osc with restartDue := true } }) d
/-- OSC_MODE_STATUS. -/
def execOscModeStatus (h : Hdr) (slot : Byte) : State → Host.Outcome State Fault Refusal :=
  cmdPlain h 0x0615 (pk slot) fun d => checks [(31 < slot.toNat, .badParam)] (fun d =>
    match mfind d.osc.modes slot.toNat with
    | none => okayWith (List.replicate 40 0) d
    | some m => okayWith ([if m.stale != 0 then 2 else if m.fresh then 3 else 1] ++ pk m.cand.f ++ pk m.cand.zeta ++ pk m.cand.amp ++ pk m.cand.e ++
        leBytes 4 m.cand.ref ++ leBytes 2 m.age ++ leBytes 1 (mget {} d.osc.damp slot.toNat).onN) d) d
/-- Branches by |D|, largest first. -/
def insertSlope (a : Nat × W64) : List (Nat × W64) → List (Nat × W64)
  | [] => [a]
  | b :: t => if f64Lt (f64Abs b.2) (f64Abs a.2) then a :: b :: t else b :: insertSlope a t
/-- OSC_FO_STATUS. -/
def execOscFoStatus (h : Hdr) (slot : Byte) : State → Host.Outcome State Fault Refusal :=
  cmdPlain h 0x0616 (pk slot) fun d => checks [(7 < slot.toNat, .badParam)] (fun d =>
    match mfind d.osc.fos slot.toNat with
    | none => okayWith (List.replicate 72 0) d
    | some f =>
      let l := (f.slopes.foldr insertSlope []).map Prod.fst
      let age := (tickOrd d.clk.sec d.clk.tick - tickOrd f.sec f.tick) / 3600
      okayWith (pk f.peak.f ++ pk f.peak.eta ++ pk f.peak.cv ++ leBytes 4 age ++ leBytes 4 (f.source.getD 0xFFFFFFFF) ++ pk f.share ++
        ((List.range 8).map fun i => leBytes 4 (l.getD i 0xFFFFFFFF)).flatten) d) d

end Sys2Proof.Machine
end

