-- ==== Sys2Proof/Machine/Isl.lean ====
section
/-!
DEFINITION. The island engine (chapter 10): breaker states, components, clusters, islands and warnings (R287 to R301; log entry 22).
-/
namespace Sys2Proof.Machine

/-! ### The configuration in force -/

/-- The branches that preparation did not disable. -/
def islBranches (m : IslModel) : NMap IslBranch := m.branches.filter fun e => !m.prep.branchesOff.contains e.1
/-- The coherency inputs that preparation did not disable. -/
def islInputs (m : IslModel) : NMap IslInput := m.inputs.filter fun e => !m.prep.inputsOff.contains e.1
/-- The reference node in use (R291). -/
def refNode (c : IslConfig) : Option Nat := c.refNodes.find? fun n => n != 0xFFFFF && n < c.nodes
/-- COH_T in slots of the O-stream. -/
def islSpan (g : Gen) (c : IslConfig) : Nat :=
  match mfind g.os c.ostream with
  | some o => (f64Floor (f64Add (f64Mul (f32To64 c.cohT) (f64Int o.rate)) 0x3FE0000000000000)).toNat
  | none => 0
/-- The state of a branch: its last state, or DEFAULT. -/
def islClosed (d : Dev) (e : Nat × IslBranch) : Bool := if e.2.status.isNone then e.2.closed else (mfind d.isl.states e.1).getD e.2.closed
/-- The state of a branch as last applied. -/
def islApplied (d : Dev) (e : Nat × IslBranch) : Bool := (mfind d.isl.applied e.1).getD e.2.closed

/-! ### Components (R290) -/

/-- Two sets of nodes joined where each holds one end. -/
def joinSets (l : List (List Nat)) (a b : Nat) : List (List Nat) :=
  match l.find? (fun s => s.contains a), l.find? (fun s => s.contains b) with
  | some x, some y => if x = y then l else addKeys y x :: l.filter fun s => s != x && s != y
  | _, _ => l
/-- The connected sets of some nodes over edges. -/
def connected (nodes : List Nat) (edges : List (Nat × Nat)) : List (List Nat) :=
  edges.foldl (fun l e => joinSets l e.1 e.2) (nodes.map fun n => [n])
/-- The component that holds a node. -/
def compOf (l : List IslComp) (n : Nat) : Option IslComp := l.find? fun x => x.nodes.contains n
/-- The lowest identifier not used and not freed in the present slot. -/
def freeId (used : List Nat) : Nat := ((List.range (used.length + 1)).find? fun i => !used.contains i).getD 0
/-- The anchor of a component (R290). -/
def anchorOf (ref : Option Nat) (x : IslComp) : Nat := if x.id = 0 then ref.getD (x.nodes.headD 0) else x.nodes.headD 0
/-- The components as changes are applied: branch states, freed identifiers, search visits, and the islands whose component went. -/
structure IslWork where
  comps  : List IslComp
  shut   : List (Nat × Nat × Nat)
  freed  : List Nat
  visits : Nat := 0
  gone   : List (Nat × Nat × Nat) := []
  draws  : Nat
  deriving DecidableEq, Repr
/-- A closing (R290). -/
def islClose (k a b : Nat) (w : IslWork) : IslWork :=
  let w := { w with shut := w.shut ++ [(k, a, b)] }
  match compOf w.comps a, compOf w.comps b with
  | some x, some y =>
    if x.id = y.id then w
    else
      let id := if x.id = 0 || y.id = 0 then 0
        else if x.nodes.length = y.nodes.length then min x.id y.id else if y.nodes.length < x.nodes.length then x.id else y.id
      let lost := if id = x.id then y.id else x.id
      let z : IslComp := { id := id, nodes := addKeys y.nodes x.nodes }
      { w with comps := z :: w.comps.filter (fun c => c.id != x.id && c.id != y.id), freed := lost :: w.freed, gone := w.gone ++ [(lost, id, 0)] }
  | _, _ => w
/-- An opening (R290): the two-sided search. The number of visits is a free value within its bound. -/
def islOpen (ref : Option Nat) (k a b : Nat) (w : IslWork) : IslWork :=
  let shut := w.shut.filter fun e => e.1 != k
  let word := (Config.freeWord w.draws).toNat
  let w := { w with shut := shut, draws := w.draws + 1 }
  match compOf w.comps a with
  | none => w
  | some x =>
    let edges := (shut.filter fun e => x.nodes.contains e.2.1).map Prod.snd
    let parts := connected x.nodes edges
    match parts.find? (fun s => s.contains a), parts.find? (fun s => s.contains b) with
    | some p, some q =>
      if p = q then { w with visits := w.visits + word % 2 ^ 32 }
      else
        let size (s : List Nat) : Nat := s.length + (edges.filter fun e => s.contains e.1).length
        let keep := if p.contains (anchorOf ref x) then p else q
        let side := if p.contains (anchorOf ref x) then q else p
        let id := freeId (w.comps.map IslComp.id ++ w.freed)
        { w with comps := { id := x.id, nodes := keep } :: { id := id, nodes := side } :: w.comps.filter (fun c => c.id != x.id),
                 visits := w.visits + word % (2 * max (size p) (size q) + 1) }
    | _, _ => w
/-- How often a value occurs. -/
def countOf (l : List Nat) (x : Nat) : Nat := (l.filter (· = x)).length
/-- The value that most of a list hold, the lower of equals. -/
def majority (l : List Nat) : Option Nat :=
  (l.foldl (fun (b : Option (Nat × Nat)) x => match b with
    | none => some (x, countOf l x)
    | some y => let n := countOf l x; if y.2 < n || (y.2 = n && x < y.1) then some (x, n) else b) none).map Prod.fst
/-- Sets by size, largest first, then by their lowest member. -/
def insertSet (a : List Nat) : List (List Nat) → List (List Nat)
  | [] => [a]
  | b :: t => if b.length < a.length || (b.length = a.length && a.headD 0 ≤ b.headD 0) then a :: b :: t else b :: insertSet a t
/-- Identifiers for sets other than the main one: the old one of most of the members unless a larger set took it, else the lowest
free. -/
def nameSets (old : Nat → Option Nat) (sets : List (List Nat)) : List IslComp :=
  let sorted := sets.foldr insertSet []
  let first := sorted.foldl (fun (l : List (List Nat × Option Nat)) s =>
    let id := (majority (s.filterMap old)).filter fun i => i != 0 && !(l.any fun e => e.2 = some i)
    l ++ [(s, id)]) []
  let used := first.filterMap Prod.snd
  (first.foldl (fun (a : List IslComp × List Nat) e => match e.2 with
    | some i => (a.1 ++ [{ id := i, nodes := e.1 }], a.2)
    | none => let i := freeId (0 :: a.2); (a.1 ++ [{ id := i, nodes := e.1 }], i :: a.2)) ([], used)).1
/-- The full recomputation (R300). -/
def islRecompute (c : IslConfig) (old : List IslComp) (shut : List (Nat × Nat × Nat)) : List IslComp :=
  let sets := connected (List.range c.nodes) (shut.map Prod.snd)
  let main := (refNode c).bind fun n => sets.find? fun s => s.contains n
  (match main with | some s => [{ id := 0, nodes := s }] | none => []) ++
    nameSets (fun n => (compOf old n).map IslComp.id) (sets.filter fun s => some s != main)

/-! ### Frequencies (R291) -/

/-- The valid frequency of a coherency input in a slot. -/
def islFreq (g : Gen) (r : Record) (x : IslInput) : Option W64 := engVal g r DirEntry.islCoh x.freq
/-- The valid frequencies of a component. -/
def compFreqs (m : IslModel) (fs : NMap W64) (x : IslComp) : List W64 :=
  ((islInputs m).filter fun e => x.nodes.contains e.2.node).filterMap fun e => mfind fs e.1
/-- The valid frequencies of a slot by input. -/
def islFreqs (g : Gen) (r : Record) : NMap W64 := (islInputs g.isl).filterMap fun e => (islFreq g r e.2).map fun v => (e.1, v)

/-! ### Restarts and the first slot of a generation (R300, R301) -/

/-- An island slot is cleared with a cause (R294). -/
def islClear (r : Record) (k why : Nat) (d : Dev) : Dev :=
  match mfind d.isl.islands k with
  | none => d
  | some x =>
    let d := { d with isl := { d.isl with islands := mdel d.isl.islands k, ended := mdel d.isl.ended k } }
    let d := engClear (80 + k) (recCtx r) x.comp x.diff d
    logEv 0x0D02 k why ((recOrd r - tickOrd x.sec x.tick) / 3600) (bump d 0x0D 5)
/-- Unit 4 starts again. -/
def islRestart4 (d : Dev) : Dev :=
  { d with isl := { d.isl with inputs := [], clusters := [], incohN := [], cohSlots := 0, missed4 := 0 } }
/-- The engine starts again from empty state; slots shed before it are not gathered. -/
def islRestartAll (r : Record) (d : Dev) : Dev :=
  let d := (d.isl.islands.map Prod.fst).foldl (fun d k => islClear r k 3 d) d
  islRestart4 { d with isl := { d.isl with
    lost := [], states := [], readOnce := [], applied := [], comps := [], freed := [], judgeN := [], splitN := [], splitOff := 0,
    incohOff := 0, ended := [], noRef3 := {}, noRef4 := {}, coldSlots := 0, warm3 := false, recompute := true } }
/-- A restart counts and is logged. -/
def islRestarted (why : Nat) (d : Dev) : Dev := logEv 0x0D06 why 0 0 (setFlag 0x0D 1 (bump d 0x0D 10))
/-- The first slot of a generation. -/
def islAdopt (g : Gen) (c : IslConfig) (r : Record) (d : Dev) : Dev :=
  let m := g.isl
  let put (d : Dev) : Dev := { d with isl := { d.isl with force := some m, forceGen := r.summary.gen } }
  match d.isl.force.bind fun o => o.config.map fun x => (o, x) with
  | none => islRestarted 0 (islRestartAll r (put d))
  | some (o, x) =>
    let same (b : Nat) : Bool := mfind (islBranches o) b = mfind (islBranches m) b
    let d := put d
    let d := { d with isl := { d.isl with
      states := d.isl.states.filter fun e => same e.1
      readOnce := d.isl.readOnce.filter same
      recompute := d.isl.recompute || x.nodes != c.nodes || islBranches o != islBranches m || refNode x != refNode c } }
    if islInputs o != islInputs m then islRestarted 1 (islRestart4 d) else d
/-- The generation in force has no configuration any more. -/
def islRetire (d : Dev) : Dev :=
  if (islConfig d.cur).isNone || d.cur.isl.prep.off then { d with isl := { d.isl with force := none } } else d

/-! ### The start of a slot (R289) -/

/-- The breaker states of a slot are read. -/
def islGather (g : Gen) (r : Record) (d : Dev) : Dev :=
  (islBranches g.isl).foldl (fun d e => match e.2.status with
    | none => d
    | some (c, b, level) => match engVal g r (fun x => x.islTopo && x.type = 5) c with
      | some v =>
        if bit v.toNat (16 + b) then
          { d with isl := { d.isl with states := mset d.isl.states e.1 (bit v.toNat b != level), readOnce := addKey e.1 d.isl.readOnce } }
        else d
      | none => d) d
/-- The generation of a slot with its island engine's configuration. -/
def islGen (d : Dev) (r : Record) : Option (Gen × IslConfig) := (genByNum d r.summary.gen).bind fun g => (islConfig g).map fun c => (g, c)
/-- The breaker states of the slots of the generation in force that were shed before they started (R299). -/
def islGatherLost (d : Dev) : Dev :=
  let mine (x : Record) : Bool := x.summary.gen = d.isl.forceGen
  let lost := d.isl.lost.filter mine
  lost.foldl (fun d x => match genByNum d x.summary.gen with | some g => islGather g x d | none => d)
    { d with isl := { d.isl with lost := d.isl.lost.filter fun x => !mine x } }
/-- Unit 3 is COLD (R301): not every status bit was readable since the restart, within COLD_MAX slots of it. -/
def islCold3 (m : IslModel) (c : IslConfig) (d : Dev) : Bool :=
  !d.isl.warm3 && decide (d.isl.coldSlots ≤ c.coldMax) && ((islBranches m).any fun e => e.2.status.isSome && !d.isl.readOnce.contains e.1)
/-- A slot starts: both units get it, and the breaker states are gathered, those of slots shed before it first. -/
def islStart (g : Gen) (c : IslConfig) (r : Record) (d : Dev) : Dev :=
  let work (d : Dev) : Dev := { d with isl := { d.isl with lost := [], topo := some r, coh := some r } }
  if g.isl.prep.off then work d
  else
    let d := islGatherLost d
    let d := if d.isl.force.isNone || r.summary.gen != d.isl.forceGen then islGatherLost (islAdopt g c r d) else d
    let d := if d.isl.restartDue then
      islRestarted 2 (islRestartAll r { d with isl := { d.isl with restartDue := false } }) else d
    let d := islGather g r d
    let d := { d with isl := { d.isl with coldSlots := d.isl.coldSlots + 1 } }
    work { d with isl := { d.isl with warm3 := !islCold3 g.isl c d } }
/-- ISL_SLOT_START: both units are free, and the waiting slot starts. -/
def execIslSlotStart : State → Host.Outcome State Fault Refusal := runEng fun d =>
  match d.isl.topo.isNone && d.isl.coh.isNone, d.isl.notices with
  | true, r :: rest =>
    let e := { d with isl := { d.isl with notices := rest } }
    match islGen e r with
    | none => e
    | some (g, c) => almSettle d (islStart g c r e)
  | _, _ => d

/-! ### Unit 3 (R290, R291, R294, R295) -/

/-- The changes since the last delivered slot applied, or the full recomputation: the new components and what was counted. -/
def islApply (m : IslModel) (c : IslConfig) (d : Dev) : IslWork × Nat × Nat :=
  let bs := islBranches m
  let ends (e : Nat × IslBranch) : Nat × Nat × Nat := (e.1, e.2.a, e.2.b)
  if d.isl.recompute then
    let shut := (bs.filter (islClosed d)).map ends
    let comps := islRecompute c d.isl.comps shut
    let gone := (d.isl.comps.filter fun x => !(comps.any fun y => y.id = x.id)).map fun x => (x.id, x.id, 3)
    ({ comps := comps, shut := shut, freed := [], gone := gone, draws := d.draws }, 0, 0)
  else
    let opens := bs.filter fun e => islApplied d e && !islClosed d e
    let closes := bs.filter fun e => !islApplied d e && islClosed d e
    let w : IslWork := { comps := d.isl.comps, shut := (bs.filter (islApplied d)).map ends, freed := [], draws := d.draws }
    let w := opens.foldl (fun w e => islOpen (refNode c) e.1 e.2.a e.2.b w) w
    (closes.foldl (fun w e => islClose e.1 e.2.a e.2.b w) w, opens.length, closes.length)
/-- The islands follow a merge: into the main component, into another island, or with the identifier that survives (R294). -/
def islFollow (d : Dev) (x : Nat × Nat × Nat) : Dev :=
  match d.isl.islands.find? fun e => e.2.comp = x.1 && (mfind d.isl.ended e.1).isNone with
  | none => d
  | some (k, i) =>
    let stop (why : Nat) : Dev := { d with isl := { d.isl with ended := mset d.isl.ended k why } }
    if x.2.2 = 3 then stop 3
    else if x.2.1 = 0 then stop 0
    else if d.isl.islands.any (fun e => e.2.comp = x.2.1) then stop 1
    else { d with isl := { d.isl with islands := mset d.isl.islands k { i with comp := x.2.1 } } }
/-- A component judged in a slot: its frequency, its difference from the main one, nodes and valid frequencies. -/
structure Judged where
  comp  : IslComp
  fc    : Option W64
  diff  : W64
  valid : Nat
  deriving DecidableEq, Repr
/-- The components other than the main one with their frequencies. -/
def judgedOf (m : IslModel) (fs : NMap W64) (main : W64) (comps : List IslComp) : List Judged :=
  (comps.filter fun x => x.id != 0).map fun x =>
    let l := compFreqs m fs x
    let fc := f64Median l
    { comp := x, fc := fc, diff := (fc.map fun f => f64Sub f main).getD 0, valid := l.length }
/-- A component is declared an island (R294). -/
def islDeclare (c : IslConfig) (r : Record) (first : Bool) (x : Judged) (d : Dev) : Dev :=
  match (List.range 32).find? fun k => (mfind d.isl.islands k).isNone with
  | none => let d := setFlag 0x0D 5 d; if first then logEv 0x0D07 x.comp.id 0 0 d else d
  | some k =>
    let i : Island := { comp := x.comp.id, sec := r.summary.sec, tick := r.summary.tick, fc := x.fc.getD 0, diff := x.diff,
                        nodes := x.comp.nodes.length, valid := x.valid }
    let d := { d with isl := { d.isl with islands := mset d.isl.islands k i, splitN := mdel d.isl.splitN x.comp.id } }
    let d := logEv 0x0D01 k x.comp.id (unsigned 32 (f64Floor (f64Mul (f64Int 1000) x.diff))) (setFlag 0x0D 4 (bump d 0x0D 4))
    engRaise (80 + k) (recCtx r) x.comp.id x.diff (f32To64 c.islDf) d
/-- The rules of one component (R294, R295). -/
def islJudge (c : IslConfig) (r : Record) (d : Dev) (x : Judged) : Dev :=
  let id := x.comp.id
  let df := f32To64 c.islDf
  let known := d.isl.islands.find? fun e => e.2.comp = id
  let judged := c.minCoh ≤ x.valid && x.fc.isSome
  let far := judged && f64Lt df (f64Abs x.diff)
  let n := if far then min 255 (mget 0 d.isl.judgeN id + 1) else 0
  let s := if judged && !far then min 255 (mget 0 d.isl.splitN id + 1) else 0
  let first := n = c.islN && mget 0 d.isl.judgeN id < c.islN
  let d := { d with isl := { d.isl with judgeN := mput 0 d.isl.judgeN id n, splitN := mput 0 d.isl.splitN id s } }
  match known with
  | none => if far && c.islN ≤ n then islDeclare c r first x d else d
  | some (k, i) =>
    let dead := if x.valid = 0 then min 255 (i.dead + 1) else 0
    let j : Island := { i with nodes := x.comp.nodes.length, valid := x.valid, dead := dead, fc := x.fc.getD i.fc,
                               diff := if x.fc.isSome then x.diff else i.diff }
    let d := { d with isl := { d.isl with islands := mset d.isl.islands k j } }
    if c.islN ≤ dead then islClear r k 2 d else d
/-- The SPLIT warning after a slot (R295). -/
def islSplit (c : IslConfig) (r : Record) (l : List Judged) (d : Dev) : Dev :=
  let off := if d.isl.splitN.isEmpty then min 255 (d.isl.splitOff + 1) else 0
  let d := { d with isl := { d.isl with splitOff := off } }
  match l.find? fun x => c.islN ≤ mget 0 d.isl.splitN x.comp.id with
  | some x =>
    let d := if (sourceOf d 112).raised then d
      else logEv 0x0D03 x.comp.id x.comp.nodes.length 0 (setFlag 0x0D 3 (bump d 0x0D 6))
    engRaise 112 (recCtx r) x.comp.id x.diff (f32To64 c.islDf) d
  | none => if c.islN ≤ off then engClear 112 (recCtx r) (sourceOf d 112).detail.toNat (sourceOf d 112).value d else d
/-- The NO_REF alarm after a slot of a unit (Table 10-7). -/
def islNoRef (c : IslConfig) (r : Record) (unit : Nat) (on : Bool) (d : Dev) : Dev :=
  let d := if unit = 3 then { d with isl := { d.isl with noRef3 := d.isl.noRef3.next on } }
    else { d with isl := { d.isl with noRef4 := d.isl.noRef4.next on } }
  if c.islN ≤ d.isl.noRef3.onN then engRaise 114 (recCtx r) 3 0 0 d
  else if c.islN ≤ d.isl.noRef4.onN then engRaise 114 (recCtx r) 4 0 0 d
  else if c.islN ≤ (if unit = 3 then d.isl.noRef3.offN else d.isl.noRef4.offN) && d.isl.noRef3.onN = 0 && d.isl.noRef4.onN = 0 then
    engClear 114 (recCtx r) unit 0 d
  else d
/-- A slot of unit 3 in which R294 is not evaluated: no component is judged, so every count breaks, and no component meets SPLIT. -/
def islNotJudged (c : IslConfig) (r : Record) (d : Dev) : Dev :=
  let still := d.isl.islands.map fun e => (e.1, { e.2 with dead := 0 })
  islSplit c r [] { d with isl := { d.isl with judgeN := [], splitN := [], islands := still } }
/-- The rules of a VALID slot of unit 3. -/
def islRules (m : IslModel) (c : IslConfig) (r : Record) (fs : NMap W64) (main : W64) (d : Dev) : Dev :=
  let d := d.isl.ended.foldl (fun d e => islClear r e.1 e.2 d) d
  let l := judgedOf m fs main d.isl.comps
  let here (e : Nat × Nat) : Bool := l.any fun x => x.comp.id = e.1
  let d := { d with isl := { d.isl with judgeN := d.isl.judgeN.filter here, splitN := d.isl.splitN.filter here } }
  islSplit c r l (l.foldl (islJudge c r) d)
/-- A raised source of a unit. -/
def islAlarmOn (d : Dev) (unit : Nat) : Bool :=
  d.alm.sources.any fun e => e.2.raised && ((if unit = 3 then 80 ≤ e.1 && e.1 ≤ 112 else e.1 = 113) || (e.1 = 114 && e.2.detail.toNat = unit))
/-- Two lists hold the same entries. -/
def sameEntries {α : Type} [DecidableEq α] (a b : List α) : Bool := a.all b.contains && b.all a.contains
/-- The flags of a record (Table 10-4). -/
def islFlagBits (r : Record) (unit status : Nat) (cold change : Bool) (d : Dev) : Nat :=
  b2n r.summary.warming + 2 * b2n cold + 4 * b2n (status = 1) + 8 * b2n change + 16 * b2n (islAlarmOn d unit) +
    32 * b2n (if unit = 3 then d.isl.shed3 else d.isl.shed4) + 64 * b2n (bit d.isl.flags.toNat 5)
/-- The quality record (Table 10-4). -/
def islRecord (r : Record) (unit status flags n changes visits : Nat) (f : W64) (d : Dev) : Dev :=
  postRecord 8 (slotBytes r.summary ++ leBytes 1 0x0D ++ leBytes 1 (status + 16 * unit) ++ leBytes 2 flags ++ leBytes 4 n ++ leBytes 4 changes ++
    leBytes 4 visits ++ leBytes 1 d.isl.islands.length ++ leBytes 3 0 ++ leBytes 4 (nowNs d - r.commitNs) ++ leBytes 8 f.toNat) [] d
/-- The counters of a delivered slot. -/
def islCount (status : Nat) (d : Dev) : Dev :=
  match status with
  | 1 => setFlag 0x0D 2 (bump d 0x0D 8)
  | 2 => bump d 0x0D 9
  | _ => d
/-- The seconds since an island was declared. -/
def islAge (x : Island) (r : Record) : W64 := f64Div (f64Int (recOrd r - tickOrd x.sec x.tick : Nat)) (f64Int 3600)
/-- The value of an output of unit 3 (Table 10-3). -/
def islOut3 (g : Gen) (c : IslConfig) (r : Record) (status flags : Nat) (d : Dev) (e : DirEntry) : W64 :=
  let n := e.outnum
  let none1 := invalidVal 1
  if n = 1310720 then digitalOut (scaleOf g e.scale) (status + flags % 512 * 16)
  else if status != 0 then none1
  else if n < 1048576 then ((compOf d.isl.comps n).map fun x => f64Int x.id).getD none1
  else if 1114112 ≤ n && n < 1114368 then
    match mfind d.isl.islands ((n - 1114112) / 8) with
    | none => none1
    | some x => match n % 8 with
      | 0 => f64Int x.comp
      | 1 => realOut x.fc
      | 2 => realOut x.diff
      | 3 => f64Int x.nodes
      | 4 => f64Int x.valid
      | 5 => realOut (islAge x r)
      | 6 => ((d.isl.comps.find? fun y => y.id = x.comp).map fun y => f64Int (anchorOf (refNode c) y)).getD none1
      | _ => none1
  else if n = 1310722 then f64Int d.isl.comps.length
  else none1
/-- A report of a unit enters its DERIVED stream; in a disabled generation a stream that is not of that kind and rate takes none. -/
def islPost (g : Gen) (c : IslConfig) (stream : Nat) (r : Record) (vals : List W64) (d : Dev) : Bool × Dev :=
  if !g.isl.prep.off || derivedFits g stream c.ostream then
    enterInternal stream r.summary.sec (BitVec.ofNat 32 (tickStartNs r.summary.tick)) vals d
  else (true, d)
/-- Unit 3's work on a slot: the changes are applied and the components judged. Gives the status, COLD, f_main, the changes applied and the
search visits. -/
def islTopo (g : Gen) (c : IslConfig) (r : Record) (d : Dev) : (Nat × Bool × W64 × Nat × Nat) × Dev :=
  let a := islApply g.isl c d
  let applied := (islBranches g.isl).map fun e => (e.1, islClosed d e)
  let d := { d with draws := a.1.draws, isl := { d.isl with comps := a.1.comps, applied := applied, recompute := false, freed := a.1.freed } }
  let d := bumpN (bumpN (bumpN d 0x0D 1 a.2.1) 0x0D 2 a.2.2) 0x0D 3 a.1.visits
  let d := a.1.gone.foldl islFollow d
  let fs := islFreqs g r
  let main := (d.isl.comps.find? fun x => x.id = 0).bind fun x => f64Median (compFreqs g.isl fs x)
  let cold := islCold3 g.isl c d
  let st := if main.isNone then 1 else if cold then 2 else 0
  let d := if st = 0 then islRules g.isl c r fs (main.getD 0) d else if cold then d else islNotJudged c r d
  ((st, cold, main.getD 0, a.2.1 + a.2.2, a.1.visits), if cold then d else islNoRef c r 3 (st = 1) d)
/-- The delivery of unit 3's slot; a report that finds no room is a shed. -/
def islDeliver3 (g : Gen) (c : IslConfig) (r : Record) (before : Dev) : Dev :=
  let d := { before with isl := { before.isl with topo := none } }
  let room := islPost g c c.topoStream r [] d
  if !room.1 then islShed3 r room.2
  else
    let w := if g.isl.prep.off then ((3, false, 0, 0, 0), d) else islTopo g c r d
    let st := w.1.1
    let d := almSettle before w.2
    let fl := islFlagBits r 3 st w.1.2.1 (!sameEntries before.isl.comps d.isl.comps) d
    let d := (islPost g c c.topoStream r (derivedVals g c.topoStream 4 fun e => islOut3 g c r st fl d e) d).2
    let n := if g.isl.prep.off then 0 else d.isl.comps.length
    let d := islCount st (islRecord r 3 st fl n w.1.2.2.2.1 w.1.2.2.2.2 w.1.2.2.1 d)
    { d with isl := { d.isl with stTopo := st, shed3 := false, nComps := if g.isl.prep.off then d.isl.nComps else n } }
/-- ISL_TOPO_DELIVERED: unit 3 applies the changes, judges its components and delivers; a report that finds no room is a shed. -/
def execIslTopoDelivered : State → Host.Outcome State Fault Refusal := runEng fun d =>
  match d.isl.topo with
  | none => d
  | some r => match islGen d r with
    | none => { d with isl := { d.isl with topo := none } }
    | some (g, c) => islDeliver3 g c r d

/-! ### Unit 4 (R292, R293, R295) -/

/-- The first-order low-pass of R292: the smoothed slip so far, which the first slip starts, and the new slip. -/
def islSmooth (tau : W32) (rate : Nat) (last : Option W64) (v : W64) : W64 :=
  match last with
  | none => v
  | some s => f64Add s (f64Mul (Config.lowPassGain tau rate) (f64Sub v s))
/-- An input after a slot: `f` is its slip where it is valid, `ang` the wrapped angle to the reference; `per` is COH_T in slots. -/
def islStep (c : IslConfig) (rate per : Nat) (f ang : Option W64) (x : IslInRun) : IslInRun :=
  let last := x.hist.findSome? id
  let hist := ((ang.map fun a => unwrap last a) :: x.hist).take (per + 1)
  match f with
  | none =>
    let a := min 255 (x.absentN + 1)
    { x with hist := hist, absentN := a, validN := 0, out := x.out || decide (c.islN < a) }
  | some v =>
    let s := islSmooth c.cohTau rate x.slip v
    let drift := match hist.head?.bind id, (hist[per]?).bind id with
      | some p, some q => f64Div (f64Sub p q) degree
      | _, _ => f64Mul (f64Int 360) (f64Mul s (f32To64 c.cohT))
    let n := min 255 (x.validN + 1)
    { x with slip := some s, drift := drift, hist := hist, absentN := 0, validN := n, out := x.out && decide (n < c.islN) }
/-- The reference input in use (R292). -/
def islRef (m : IslModel) (c : IslConfig) (fs : NMap W64) : Option Nat :=
  c.refIns.find? fun i => i != 0xFFFF && (mfind (islInputs m) i).isSome && (mfind fs i).isSome
/-- Every input after a slot; without a reference the smoothed slips and drifts stay, the angle is absent and presence counts. -/
def islInputsStep (g : Gen) (c : IslConfig) (r : Option Record) (d : Dev) : Dev :=
  let m := g.isl
  let fs := (r.map (islFreqs g)).getD []
  let ref := islRef m c fs
  let rate := ((mfind g.os c.ostream).map OstreamDef.rate).getD 1
  let ph (i : Nat) : Option W64 := (mfind m.inputs i).bind fun x => x.phasor.bind fun p => r.bind fun r => engVal g r DirEntry.islCoh p
  let fRef := ref.bind fun i => mfind fs i
  (islInputs m).foldl (fun d e =>
    let x := mget {} d.isl.inputs e.1
    let f := match mfind fs e.1, fRef with | some a, some b => some (f64Sub a b) | _, _ => none
    let ang := match ph e.1, ref.bind ph with
      | some a, some b => let v := cMulConj (cxOf a) (cxOf b); some (angle64 v.2 v.1)
      | _, _ => none
    let y := if fRef.isNone && (mfind fs e.1).isSome then
        { x with hist := (none :: x.hist).take (islSpan g c + 1), absentN := 0, validN := min 255 (x.validN + 1), out := x.out && decide (x.validN + 1 < c.islN) }
      else islStep c rate (islSpan g c) f ang x
    let d := if y.out && !x.out then bump d 0x0D 12 else d
    { d with isl := { d.isl with inputs := mput {} d.isl.inputs e.1 y } }) d
/-- The cell of an input that is in use (R293). -/
def islCell (c : IslConfig) (x : IslInRun) : Option (Int × Int) :=
  if x.out then none
  else x.slip.map fun s => (f64Floor (f64Div s (f32To64 c.cohDf)), f64Floor (f64Div x.drift (f32To64 c.cohDa)))
/-- The clusters of a slot (R293). -/
def islClusters (m : IslModel) (c : IslConfig) (ref : Option Nat) (d : Dev) : NMap (List Nat) :=
  let cells := (islInputs m).filterMap fun e => (islCell c (mget {} d.isl.inputs e.1)).map fun p => (e.1, p)
  let near (p q : Int × Int) : Bool := (p.1 - q.1).natAbs ≤ 1 && (p.2 - q.2).natAbs ≤ 1
  let links := (cells.map fun a => (cells.filter fun b => a.1 < b.1 && near a.2 b.2).map fun b => (a.1, b.1)).flatten
  let sets := connected (cells.map Prod.fst) links
  let main := ref.bind fun i => sets.find? fun s => s.contains i
  let old (i : Nat) : Option Nat := (d.isl.clusters.find? fun e => e.2.contains i).map Prod.fst
  let named := nameSets old (sets.filter fun s => some s != main)
  (match main with | some s => [(0, s)] | none => []) ++ named.foldl (fun l x => mset l x.id x.nodes) []
/-- The INCOHERENT warning after a slot (R295), by the clusters that the slot formed. -/
def islIncoherent (m : IslModel) (c : IslConfig) (r : Record) (formed : NMap (List Nat)) (d : Dev) : Dev :=
  let mainNodes := ((d.isl.comps.find? fun x => x.id = 0).map IslComp.nodes).getD []
  let bound (i : Nat) : Bool := (mfind m.inputs i).any fun x => mainNodes.contains x.node
  let on := formed.filter fun e => e.1 != 0 && c.minMembers ≤ e.2.length && e.2.all bound
  let counts : NMap Nat := on.map fun e => (e.1, min 255 (mget 0 d.isl.incohN e.1 + 1))
  let off := if on.isEmpty then min 255 (d.isl.incohOff + 1) else 0
  let d := { d with isl := { d.isl with incohN := counts, incohOff := off } }
  match on.find? fun e => c.islN ≤ mget 0 counts e.1 with
  | some e =>
    let slips := e.2.filterMap fun i => (mget {} d.isl.inputs i).slip
    let mean := f64Div (f64Sum slips) (f64Int slips.length)
    let d := if (sourceOf d 113).raised then d else logEv 0x0D04 e.1 e.2.length 0 (setFlag 0x0D 3 (bump d 0x0D 7))
    engRaise 113 (recCtx r) e.1 mean 0 d
  | none => if c.islN ≤ off then engClear 113 (recCtx r) (sourceOf d 113).detail.toNat (sourceOf d 113).value d else d
/-- The value of an output of unit 4 (Table 10-3). -/
def islOut4 (g : Gen) (status flags : Nat) (d : Dev) (e : DirEntry) : W64 :=
  let n := e.outnum
  let none1 := invalidVal 1
  if n = 1310721 then digitalOut (scaleOf g e.scale) (status + flags % 512 * 16)
  else if status != 0 then none1
  else if 1048576 ≤ n && n < 1114112 then
    ((d.isl.clusters.find? fun x => x.2.contains (n - 1048576)).map fun x => f64Int x.1).getD none1
  else if n = 1310723 then f64Int d.isl.clusters.length
  else none1
/-- Unit 4's work on a slot: the features, clusters and the warning. Gives the status, COLD, f_ref and the inputs not OUT. -/
def islCoh (g : Gen) (c : IslConfig) (r : Record) (d : Dev) : (Nat × Bool × W64 × Nat) × Dev :=
  let m := g.isl
  let d := (List.range d.isl.missed4).foldl (fun d _ => islInputsStep g c none d) d
  let d := islInputsStep g c (some r) { d with isl := { d.isl with missed4 := 0, cohSlots := d.isl.cohSlots + 1 } }
  let fs := islFreqs g r
  let ref := islRef m c fs
  let cold := decide (d.isl.cohSlots ≤ islSpan g c)
  let st := if ref.isNone then 1 else if cold then 2 else 0
  let d := if ref.isNone then d else { d with isl := { d.isl with clusters := islClusters m c ref d } }
  let d := if cold then d else islNoRef c r 4 (st = 1) (islIncoherent m c r (if st = 0 then d.isl.clusters else []) d)
  let inUse := ((islInputs m).filter fun e => !(mget {} d.isl.inputs e.1).out).length
  ((st, cold, (ref.bind fun i => mfind fs i).getD 0, inUse), d)
/-- The delivery of unit 4's slot; a report that finds no room is a shed. -/
def islDeliver4 (g : Gen) (c : IslConfig) (r : Record) (before : Dev) : Dev :=
  let d := { before with isl := { before.isl with coh := none } }
  let room := islPost g c c.cohStream r [] d
  if !room.1 then islShed4 r room.2
  else
    let w := if g.isl.prep.off then ((3, false, 0, 0), d) else islCoh g c r d
    let st := w.1.1
    let d := almSettle before w.2
    let fl := islFlagBits r 4 st w.1.2.1 (!sameEntries before.isl.clusters d.isl.clusters) d
    let d := (islPost g c c.cohStream r (derivedVals g c.cohStream 4 fun e => islOut4 g st fl d e) d).2
    let n := if g.isl.prep.off then 0 else d.isl.clusters.length
    let d := islCount st (islRecord r 4 st fl n w.1.2.2.2 0 w.1.2.2.1 d)
    { d with isl := { d.isl with stCoh := st, shed4 := false, nClusters := if g.isl.prep.off then d.isl.nClusters else n } }
/-- ISL_COH_DELIVERED: unit 4 forms its features and clusters and delivers; a report that finds no room is a shed. -/
def execIslCohDelivered : State → Host.Outcome State Fault Refusal := runEng fun d =>
  match d.isl.coh with
  | none => d
  | some r => match islGen d r with
    | none => { d with isl := { d.isl with coh := none } }
    | some (g, c) => islDeliver4 g c r d

end Sys2Proof.Machine
end

