-- ==== Sys2Proof/Machine/IslCmd.lean ====
section
/-!
DEFINITION. The island engine's commands (chapter 10, Tables 10-2, 10-13 and 10-15) and its preparation (R300).
-/
namespace Sys2Proof.Machine

/-! ### ISL_CONFIG -/

/-- The configuration of a parameter block (Table 10-15). -/
def islConfigOf (b : Bytes) : IslConfig :=
  let n (o k : Nat) : Nat := leAt b o k
  let w (o : Nat) : W32 := BitVec.ofNat 32 (leAt b o 4)
  { enable := n 0 1 = 1, islN := n 1 1, ostream := n 2 2, topoStream := n 4 3, cohStream := n 7 3, nodes := n 10 4,
    refNodes := (List.range 4).map fun i => n (14 + 3 * i) 3, refIns := (List.range 4).map fun i => n (26 + 2 * i) 2, minCoh := n 34 1,
    coldMax := n 35 1, islDf := w 36, cohDf := w 40, cohDa := w 44, cohT := w 48, cohTau := w 52, minMembers := n 56 1 }
/-- A field outside Table 10-2 or Table 10-15. -/
def islFieldBad (b : Bytes) : Bool :=
  let c := islConfigOf b
  let outR (v lo hi : W32) : Bool := !f32Between v lo hi
  1 < leAt b 0 1 || c.islN = 0 || 4095 < c.ostream || 262143 < c.topoStream || 262143 < c.cohStream || c.nodes = 0 || 1048576 < c.nodes ||
  c.refNodes.any (fun n => 0xFFFFF < n) || c.minCoh = 0 || c.coldMax = 0 || outR c.islDf 0x3C23D70A 0x40A00000 ||
  outR c.cohDf 0x3BA3D70A 0x3F800000 || outR c.cohDa 0x3F800000 0x43340000 || outR c.cohT 0x3DCCCCCD 0x41200000 ||
  outR c.cohTau 0x3CA3D70A 0x40A00000 || c.minMembers = 0 || !allZero (cut b 57 7)
/-- COH_T is a whole number of periods at a rate, and at most 2,400 of them: the binary32 nearest to that number of periods. -/
def cohTFits (v : W32) (rate : Nat) : Bool :=
  let n := (f64Floor (f64Add (f64Mul (f32To64 v) (f64Int rate)) 0x3FE0000000000000)).toNat
  n ≤ 2400 && ofQ32 n rate = v
/-- The O-stream of a configuration, as COH_T needs it. -/
def islOstreamBad (g : Gen) (c : IslConfig) : Bool :=
  match mfind g.os c.ostream with
  | some o => !cohTFits c.cohT o.rate
  | none => true
/-- ISL_CONFIG (R288, R318). -/
def execIslConfig (h : Hdr) (src : BlockSrc) (block : Bytes) : State → Host.Outcome State Fault Refusal :=
  cmdBlock h 0x0620 src 64 block (fun b d =>
    let c := islConfigOf b
    stageFree (islFieldBad b || islOstreamBad d.staged c) (fun g => { g with isl := { g.isl with config := some c } }) d)

/-! ### ISL_LOAD and ISL_CLEAR -/

/-- The island engine's tables. -/
def islTables : Nat → Option EngTable
  | 0 => some { size := 2097152, width := 16 }
  | 1 => some { size := 65536, width := 16 }
  | _ => none
/-- An entry that ISL_LOAD refuses. -/
def islBad (table : Nat) (b : Bytes) : Bool :=
  let w (i : Nat) : Nat := leAt b (4 * i) 4
  if table = 0 then bits (w 0) 20 11 != 0 || bits (w 1) 20 12 != 0 || bit (w 2) 31 || 1 < w 3
  else bits (w 0) 25 6 != 0 || bits (w 1) 25 5 != 0 || bit (w 1) 31 || bits (w 2) 20 12 != 0 || w 3 != 0
/-- Writes an entry of a table. -/
def islPut (table : Nat) (g : Gen) (i : Nat) (b : Bytes) : Gen :=
  let w (i : Nat) : Nat := leAt b (4 * i) 4
  let x : IslBranch := { a := bits (w 0) 0 20, b := bits (w 1) 0 20, closed := bit (w 3) 0,
                         status := if bit (w 2) 30 then some (bits (w 2) 0 25, bits (w 2) 25 4, bit (w 2) 29) else none }
  let y : IslInput := { freq := bits (w 0) 0 25, phasor := if bit (w 1) 30 then some (bits (w 1) 0 25) else none, node := bits (w 2) 0 20 }
  let m := g.isl
  { g with isl :=
    if table = 0 then { m with branches := if bit (w 0) 31 then mset m.branches i x else mdel m.branches i }
    else { m with inputs := if bit (w 0) 31 then mset m.inputs i y else mdel m.inputs i } }
/-- ISL_LOAD. -/
def execIslLoad (h : Hdr) (p : LoadP) : State → Host.Outcome State Fault Refusal :=
  cmd h 0x0621 (p.bytes true) (p.source = 0) (engLoad h islTables p fun d =>
    { d with isl := { d.isl with loads := d.isl.loads ++ [loadRun h p] } })
/-- ISL_LOAD_DONE. -/
def execIslLoadDone (data : Bytes) (readOk : Bool) : State → Host.Outcome State Fault Refusal := runLive fun d =>
  match d.isl.loads with
  | [] => d
  | l :: rest => engDone l islTables islBad islPut data readOk { d with isl := { d.isl with loads := rest } }
/-- ISL_CLEAR. -/
def execIslClear (h : Hdr) (table : Byte) (first count : W32) : State → Host.Outcome State Fault Refusal :=
  cmdPlain h 0x0622 (pk table ++ pk first ++ pk count) fun d =>
    let f := first.toNat
    let n := count.toNat
    stageFree (match islTables table.toNat with | some t => rangeBad t.size f n | none => true) (fun g =>
      let m := g.isl
      { g with isl := if table = 0 then { m with branches := mclear m.branches f n } else { m with inputs := mclear m.inputs f n } }) d

/-! ### Preparation (R300) -/

/-- The outputs of a unit by number (Table 10-3). -/
def islOutputOf (unit n : Nat) : Bool :=
  if unit = 3 then n < 1048576 || (1114112 ≤ n && n < 1114368) || n = 1310720 || n = 1310722
  else (1048576 ≤ n && n < 1114112) || n = 1310721 || n = 1310723
/-- What preparation disables. -/
def islPrepOf (g : Gen) (c : IslConfig) : EnginePrep :=
  let coh := engChan g c.ostream DirEntry.islCoh
  let branchOk (b : IslBranch) : Bool := b.a < c.nodes && b.b < c.nodes && (match b.status with
    | some (s, _, _) => engChan g c.ostream DirEntry.islTopo (fun e => e.type = 5) s
    | none => true)
  let inputOk (x : IslInput) : Bool := x.node < c.nodes && coh (fun e => e.type = 2) x.freq && (match x.phasor with
    | some p => coh (isPhasorOf 0) p
    | none => true)
  let rate := ((mfind g.os c.ostream).map OstreamDef.rate).getD 0
  { branchesOff := (g.isl.branches.filter fun e => !branchOk e.2).map Prod.fst
    inputsOff := (g.isl.inputs.filter fun e => !inputOk e.2).map Prod.fst
    chansOff := badOutputs g c.topoStream 4 (islOutputOf 3) ++ badOutputs g c.cohStream 4 (islOutputOf 4)
    off := !(derivedAt g c.topoStream rate && derivedAt g c.cohStream rate) || (refNode c).isNone }
/-- The acceptance of GEN_SWITCH. -/
def islPrepare (d : Dev) : Dev :=
  let put (p : EnginePrep) : Dev := { d with staged := { d.staged with isl := { d.staged.isl with prep := p } } }
  match islConfig d.staged with
  | none => put {}
  | some c =>
    let p := islPrepOf d.staged c
    if p = {} then put p
    else logEv 0x0D05 p.branchesOff.length p.inputsOff.length (b2n p.off) (setFlag 0x0D 0 (put p))

/-! ### Status -/

/-- ISL_STAT; ALARM is an island source (80 to 114). -/
def islStat (d : Dev) : Nat :=
  d.isl.islands.length * 2 ^ 14 + b2n (d.alm.sources.any fun e => e.2.raised && 80 ≤ e.1 && e.1 ≤ 114) * 2 ^ 13 +
    b2n d.isl.force.isSome * 2 ^ 12 + d.isl.stCoh * 16 + d.isl.stTopo
/-- ISL_STATUS. -/
def execIslStatus (h : Hdr) : State → Host.Outcome State Fault Refusal :=
  cmdPlain h 0x0623 [] fun d => okayWith (leBytes 4 (islStat d) ++ leBytes 4 d.isl.nComps ++ leBytes 4 d.isl.nClusters ++
    leBytes 4 (min 0xFFFFFFFF d.isl.coldSlots) ++ leBytes 4 (min 0xFFFFFFFF d.isl.cohSlots) ++
    prepBytes (if d.clk.pending.isSome then d.staged else d.cur).isl.prep) d
/-- ISL_RESTART (R301). -/
def execIslRestart (h : Hdr) : State → Host.Outcome State Fault Refusal :=
  cmdPlain h 0x0624 [] fun d => checks [(d.isl.force.isNone, .notPermitted)] (fun d =>
    okay { d with isl := { d.isl with restartDue := true } }) d
/-- ISL_ISLAND_STATUS. -/
def execIslIslandStatus (h : Hdr) (slot : Byte) : State → Host.Outcome State Fault Refusal :=
  cmdPlain h 0x0625 (pk slot) fun d => checks [(31 < slot.toNat, .badParam)] (fun d =>
    match mfind d.isl.islands slot.toNat with
    | none => okayWith (List.replicate 28 0) d
    | some x =>
      let anchor := ((d.isl.comps.find? fun y => y.id = x.comp).map fun y => y.nodes.headD 0).getD 0
      let age := (tickOrd d.clk.sec d.clk.tick - tickOrd x.sec x.tick) / 3600
      okayWith (leBytes 4 x.comp ++ pk x.fc ++ leBytes 4 x.nodes ++ leBytes 4 x.valid ++ leBytes 4 age ++ leBytes 4 anchor) d) d

end Sys2Proof.Machine
end

