-- ==== Sys2Proof/Machine/Mtr.lean ====
section
/-!
DEFINITION. Tie-line metering (chapter 14, R382 to R403): contributions, energy registers, demand intervals, pulses and saves
(log entry 23). The powers of one sample are those of Phasor.lean.
-/
namespace Sys2Proof.Machine

/-- A channel of the front end. -/
def chanOf (d : Dev) (k : Nat) : LmfChan := mget {} d.lmf.chans k
/-- The PMU of a circuit. -/
def pmuOf (d : Dev) (c : Nat) : LmfPmu := mget {} d.lmf.pmus c
/-- A metered circuit. -/
def circOf (d : Dev) (c : Nat) : MtrCircuit := mget {} d.mtr.circuits c
/-- A metered circuit replaced. -/
def setCirc (c : Nat) (x : MtrCircuit) (d : Dev) : Dev := { d with mtr := { d.mtr with circuits := mput {} d.mtr.circuits c x } }
/-- A pulse output. -/
def pulseOf (d : Dev) (p : Nat) : MtrPulse := mget {} d.mtr.pulses p
/-- A pulse output replaced. -/
def setPulse (p : Nat) (x : MtrPulse) (d : Dev) : Dev := { d with mtr := { d.mtr with pulses := mput {} d.mtr.pulses p x } }
/-- Samples of one cycle of F_NOM. -/
def cycleLen (g : MtrConfig) : Nat := if g.f60 then 480 else 576
/-- The instant of a sample ordinal in ns. -/
def sampleNs (q : Nat) : Nat := q * 312500 / 9

/-! ### Demand intervals (R392 to R394) -/

/-- A periodic boundary lies at the start of a TAI second (R392). -/
def boundaryAt (m : MtrDemand) (l : List LeapEntry) (sec : Nat) : Bool :=
  if m.utcAlign then let u := utcOf l sec; !u.2 && u.1 % 86400 % m.len = 0 else sec % m.len = 0
/-- The first boundary after a second. -/
def nextBoundary (m : MtrDemand) (l : List LeapEntry) (sec : Nat) : Option Nat := (rangeFrom (sec + 1) (m.len + 2)).find? (boundaryAt m l)
/-- The last boundary at or before a second. -/
def lastBoundary (m : MtrDemand) (l : List LeapEntry) (sec : Nat) : Option Nat :=
  ((List.range (m.len + 3)).map fun i => sec - i).find? (boundaryAt m l)
/-- SYNC_ERR is 1. -/
def notSync (d : Dev) : Bool := bit d.tod.qualCode.toNat 7
/-- An interval opens at an instant in ns. -/
def openIv (d : Dev) (ns : Nat) : MtrInterval := { start := stampOfNs ns, flags := if notSync d then 16 else 0 }
/-- A flag set in an interval. -/
def MtrInterval.flag (v : MtrInterval) (i : Nat) : MtrInterval := { v with flags := setBit v.flags i }
/-- The flags of a list set in an interval. -/
def MtrInterval.mark (v : MtrInterval) (l : List Nat) : MtrInterval := l.foldl MtrInterval.flag v
/-- The interval in progress ends, with flags, and waits for its last contributions. -/
def closeIv (c : Nat) (stop : Stamp) (marks : List Nat) (next : Option MtrInterval) (d : Dev) : Dev :=
  let x := circOf d c
  match x.open_ with
  | none => setCirc c { x with open_ := next } d
  | some v =>
    let v := v.mark (if notSync d then 4 :: marks else marks)
    setCirc c { x with open_ := next, closing := x.closing ++ [(v, stop)], endDue := none, gapDue := false } d
/-- The interval of a circuit ends at the periodic boundary `b`; boundaries that have passed unseen end no further one. Flags mark the interval
that opens. -/
def endAtBoundary (c b : Nat) (marks : List Nat) (d : Dev) : Dev :=
  let x := circOf d c
  let s := max b ((lastBoundary x.demand (leapTable d) d.tod.sec.toNat).getD b)
  closeIv c (stampOfNs (b * secNs)) [] (some ((openIv d (s * secNs)).mark marks)) d
/-- Periodic boundaries end the interval in progress of a circuit. -/
def periodic (d : Dev) (c : Nat) : Bool :=
  let x := circOf d c
  x.config.enable && !x.demand.launchOnly && !(x.gapDue && unsetTime d)
/-- A periodic boundary that the counter has passed ends the interval in progress (R392). -/
def boundaryPassed (c : Nat) (marks : List Nat) (d : Dev) : Dev :=
  let x := circOf d c
  match x.open_ with
  | some v =>
    let from_ := v.start.sec.toNat + 1
    let b := (rangeFrom from_ (d.tod.sec.toNat + 1 - from_)).find? (boundaryAt x.demand (leapTable d))
    match periodic d c, b with
    | true, some b => endAtBoundary c b marks d
    | _, _ => d
  | none => d
/-- DEMAND_BOUNDARY (R392): the interval ends at its next periodic boundary. -/
def execDemandBoundary (circuit : Fin 8) : State → Host.Outcome State Fault Refusal := runEng fun d =>
  let c : Nat := circuit
  let x := circOf d c
  match x.open_ with
  | some v =>
    if !periodic d c then d
    else match nextBoundary x.demand (leapTable d) v.start.sec.toNat with
      | none => d
      | some b => endAtBoundary c b [] (bringTo d (b * secNs))
  | none => d
/-- The boundary of launch action 7 at an instant (R393); one that coincides with a periodic boundary makes one boundary. -/
def meterLaunch (mask ns : Nat) (d : Dev) : Dev :=
  ((List.range 8).filter fun c => bit mask c).foldl (fun d c =>
    let x := circOf d c
    let sec := ns / secNs
    let whole := ns % secNs = 0 && boundaryAt x.demand (leapTable d) sec
    let short := if x.demand.launchOnly || whole then [] else [0]
    match x.open_ with
    | some v =>
      if !x.config.enable then d
      else if whole && !x.demand.launchOnly && v.start.toNs = ns then
        match x.closing.reverse with
        | (w, e) :: t => setCirc c { x with closing := (((w.flag 1, e) :: t)).reverse } d
        | [] => d
      else closeIv c (stampOfNs ns) (1 :: short) (some ((openIv d ns).mark short)) d
    | none => d) d
/-- The flags field of an interval record. -/
def ivFlags (v : MtrInterval) : Nat := v.flags.toNat
/-- A register count from its accumulator. -/
def countOfAcc (v : Nat) : Nat := v / 2 ^ 32 % 2 ^ 64
/-- The energies of an interval as 13 words. -/
def ivEnergies (m : NMap Nat) : Bytes := ((List.range 13).map fun r => leBytes 8 (countOfAcc (mget 0 m r))).flatten
/-- The last contributions of an ended interval have been formed: those of every sample before its end; where no sample comes, at the latest
instant of R394. -/
def intervalFormed (d : Dev) (x : MtrCircuit) (v : MtrInterval) (stop : Stamp) : Bool :=
  let late := stop.toNs + sampleNs (cycleLen x.config - 1) + 520000
  let next := (x.samples.filter fun m => !m.done).reverse.head?
  if bit (ivFlags v) 3 then next.all fun m => !m.old
  else match next with
    | some m => stop.toNs ≤ sampleNs m.ord || late ≤ nowNs d
    | none => true
/-- INTERVAL_RECORD (R394): the oldest ended interval of a circuit is posted once its last contributions have been formed. -/
def execIntervalRecord (circuit : Fin 8) : State → Host.Outcome State Fault Refusal := runEng fun d =>
  let c : Nat := circuit
  let x := circOf d c
  match x.closing with
  | [] => d
  | (v, stop) :: t =>
    if !intervalFormed d x v stop then d else
    let head := v.start.bytes ++ [0x10, BitVec.ofNat 8 c] ++ leBytes 2 (ivFlags v) ++ stop.bytes ++ leBytes 4 v.gaps ++ leBytes 4 v.noload
    let e := padTo 128 (ivEnergies v.energy)
    let d := bump (setCirc c { x with closing := t } d) 0x10 11
    let d := if bit (ivFlags v) 0 then bump d 0x10 12 else d
    postRecord 8 head [e.take 64, e.drop 64] d

/-! ### Contributions (R384 to R389) -/

/-- The quadrant of Table 14-4, 1 to 4; 0 where the reactive power is 0. -/
def quadrant (p q : Int) : Nat := if q = 0 then 0 else if 0 < q then (if p < 0 then 2 else 1) else if p < 0 then 3 else 4
/-- Table 14-1: the registers a contribution adds to, with its parts; a quadrant goes by the signs of P and P1 before they are rounded. -/
def contribution (e : Int × Int × Int × Int × Int) (neg neg1 : Bool) : List (Nat × Nat) :=
  let (p, q, p1, q1, s) := e
  let sign (b : Bool) : Int := if b then -1 else 0
  let act (r : Nat) (v : Int) : List (Nat × Nat) := if 0 < v then [(r, v.natAbs)] else if v < 0 then [(r + 1, v.natAbs)] else []
  let rea (r : Nat) (v w : Int) : List (Nat × Nat) := let k := quadrant v w; if k = 0 then [] else [(r + k - 1, w.natAbs)]
  act 0 p ++ act 2 p1 ++ rea 4 (sign neg) q ++ rea 8 (sign neg1) q1 ++ [(12, s.toNat)]
/-- Parts added to accumulators of 96 bits, which wrap (R382). -/
def addParts (l : List (Nat × Nat)) (m : NMap Nat) : NMap Nat := l.foldl (fun m e => mmod 0 m e.1 fun v => (v + e.2) % 2 ^ 96) m
/-- A part reaches a pulse output (R395, R396): the residue grows, and pulses become owed. -/
def pulseAdd (c r part : Nat) (d : Dev) (p : Nat) : Dev :=
  let x := pulseOf d p
  if x.enabled && x.circuit = c && x.reg = r then
    let unit := x.kp * 2 ^ 32
    let total := x.residue + part
    let owed := x.owed + total / unit
    let lost := owed - 65535
    let d := setPulse p { x with residue := total % unit, owed := min 65535 owed } d
    if lost = 0 then d else tally tallyPulse p lost 0 (setFlag 0x10 3 (bumpN d 0x10 10 lost))
  else d
/-- A contribution enters the interval in which its sample lies: an ended one that still takes contributions, else the one in
progress (R392). -/
def intoInterval (m : MtrSample) (f : MtrInterval → MtrInterval) (x : MtrCircuit) : MtrCircuit :=
  let fits (e : MtrInterval × Stamp) : Bool := sampleNs m.ord < e.2.toNs && (m.old || !bit (ivFlags e.1) 3)
  match x.closing.span (fun e => !fits e) with
  | (a, e :: t) => { x with closing := a ++ (f e.1, e.2) :: t }
  | (_, []) => { x with open_ := x.open_.map f }
/-- The contribution of a sample (R384 to R388) from the samples about it, the N - 1 after it first. -/
def contribute (c : Nat) (m : MtrSample) (line : List MtrSample) (d : Dev) : Dev :=
  let x := circOf d c
  let r := meterPowers m.cfg.threeWire m.cfg.f60 m.cfg.creep (line.map fun y => (y.vals, y.fs))
  let w (i : Nat) : W64 := r.powers.getD i 0
  let quad := quadrant (if r.neg then -1 else 0) r.parts.2.1
  let pw : MtrPowers := { p := w 0, q := w 1, p1 := w 2, q1 := w 3, s := w 4 }
  let x := { x with latest := pw, ft := w 5, noload := r.noload, quad := if quad = 0 then x.quad else quad - 1 }
  if r.noload then bump (setCirc c (intoInterval m (fun v => { v with noload := v.noload + 1 }) x) d) 0x10 1
  else
    let l := contribution r.parts r.neg r.neg1
    let x := intoInterval m (fun v => { v with energy := addParts l v.energy }) { x with regs := addParts l x.regs }
    l.foldl (fun d e => (List.range 8).foldl (pulseAdd c e.1 e.2) d) (setCirc c x d)
/-- The contributions that have their window now are formed, oldest first; a change of N leaves none out. -/
def contributeDue (c : Nat) (d : Dev) : Dev :=
  let l := (circOf d c).samples
  let due := (l.zipIdx.filter fun e => !e.1.done && cycleLen e.1.cfg ≤ e.2 + 1).reverse
  let d := due.foldl (fun d e => contribute c e.1 (l.drop (e.2 + 1 - cycleLen e.1.cfg)) d) d
  let x := circOf d c
  setCirc c { x with samples := x.samples.zipIdx.map fun e => { e.1 with done := e.1.done || cycleLen e.1.cfg ≤ e.2 + 1 } } d
/-- Samples that contributions may still need. -/
def sampleKeep : Nat := 1400
/-- A sample of a circuit enters its line. -/
def addSample (c : Nat) (m : MtrSample) (d : Dev) : Dev :=
  let x := circOf d c
  setCirc c { x with samples := (m :: x.samples).take sampleKeep } d
/-- The interval in progress as a sample at an instant finds it: one begins where none is, and an end that is due comes (R383, R393). -/
def intervalAt (c ns : Nat) (d : Dev) : Dev :=
  let d := boundaryPassed c [] d
  let x := circOf d c
  match x.endDue, x.open_ with
  | some i, some _ => closeIv c (stampOfNs ns) (if i = 16 then [] else [i]) (some (openIv d ns)) d
  | _, none => setCirc c { x with open_ := some (openIv d ns), endDue := none } d
  | none, some _ => d
/-- One sample instant of a metered circuit: the interval's flags, and the contribution it completes (R387 to R389). A circuit that is no
longer metered goes on only until its last contributions are formed. -/
def meterSample (q c : Nat) (vals : List (BitVec 32)) (over_ : List Bool) (d : Dev) : Dev :=
  let x := circOf d c
  let ks := rangeFrom (6 * c) 6
  let m : MtrSample := { ord := q, vals := ks.map fun k => vals.getD k 0, fs := ks.map fun k => (chanOf d k).fs, cfg := x.config,
                         done := !x.config.enable }
  if x.config.enable then
    let gap := ks.any fun k => (chanOf d k).fault || (chanOf d k).settling
    let ovr := ks.any fun k => over_.getD k false
    let d := intervalAt c (sampleNs q) d
    let x := circOf d c
    let iv := x.open_.map fun v =>
      let v := if gap then { (v.flag 5) with gaps := v.gaps + 1 } else v
      if ovr then v.flag 6 else v
    let d := bump (addSample c m (setCirc c { x with open_ := iv } d)) 0x10 0
    let d := if gap then setFlag 0x10 4 (bump d 0x10 2) else d
    contributeDue c (if ovr then setFlag 0x10 6 d else d)
  else if x.samples.any fun y => !y.done then contributeDue c (addSample c m d)
  else if x.samples.isEmpty then d else setCirc c { x with samples := [] } d
/-- A TIME_SET moved the counter (R394): intervals in progress end where they were, and the next start at the next sample; one restored
from a save waits for METER_GAP. `at_` is the counter before. -/
def meterTimeStep (at_ : Stamp) (d : Dev) : Dev :=
  (List.range 8).foldl (fun d c =>
    let x := circOf d c
    let d := setCirc c { x with samples := x.samples.map fun m => { m with old := true } } d
    if x.open_.isSome && !x.gapDue then closeIv c at_ [3] none d else d) d
/-- DORMANT ends: where a boundary has passed meanwhile, the interval that it opened spans DORMANT too (R389). -/
def meterWake (d : Dev) : Dev := (List.range 8).foldl (fun d c => boundaryPassed c [2] d) d
/-- The intervals that span DORMANT carry GAP (R389). -/
def meterDormant (d : Dev) : Dev :=
  (List.range 8).foldl (fun d c => let x := circOf d c; setCirc c { x with open_ := x.open_.map fun v => v.flag 2 } d) d

/-! ### Pulses (R395, R396) -/

/-- The level of a pulse output shown at its pin. -/
def showPulse (p : Nat) (d : Dev) : Dev :=
  let x := pulseOf d p
  if x.enabled && drives d && !d.mtr.frozen then emit (.pin 2 p (padLevel x.openDrain (x.active == x.high))) d else d
/-- A WIDTH in ns. -/
def widthNs (x : MtrPulse) : Nat := x.width * 1000000
/-- An output becomes inactive. -/
def pulseOff (p : Nat) (d : Dev) : Dev := showPulse p (setPulse p { pulseOf d p with active := false, idleOp := some (opNs d) } d)
/-- A pulse that is owed starts. -/
def pulseOn (p : Nat) (d : Dev) : Dev :=
  let x := pulseOf d p
  showPulse p (bump (setPulse p { x with owed := x.owed - 1, active := true, endOp := opNs d + widthNs x } d) 0x10 9)
/-- PULSE_START: a pulse is owed, and starts once the output has been inactive for WIDTH. -/
def execPulseStart (output : Fin 8) : State → Host.Outcome State Fault Refusal := runEng fun d =>
  let x := pulseOf d output
  if x.enabled && x.owed != 0 && !x.active && !d.mtr.frozen then
    pulseOn output (match x.idleOp with
      | some o => waitUntil d (o + widthNs x)
      | none => d)
  else d
/-- PULSE_END: WIDTH has passed since the pulse began. -/
def execPulseEnd (output : Fin 8) : State → Host.Outcome State Fault Refusal := runEng fun d =>
  let x := pulseOf d output
  if x.active && !d.mtr.frozen then pulseOff output (waitUntil d x.endOp) else d

/-! ### Saving and restoring (R397 to R400) -/

/-- The position of a save. -/
def savePos (seq : W32) : Nat := seq.toNat % 64
/-- The snapshot of a save begins (R397): the position is without a valid CRC until the save is done. -/
def beginSave (cause : Nat) (d : Dev) : Dev :=
  let seq := d.mtr.seq + 1
  let r : MtrSave :=
    { seq := seq, cause := cause, ts := nowStamp d, state := d.tod.state, pcc := aonPcc d, opt := aonOpt d,
      regs := d.mtr.circuits.filterMap fun e => if e.2.regs.isEmpty then none else some (e.1, e.2.regs),
      opens := d.mtr.circuits.filterMap fun e => e.2.open_.map fun v => (e.1, v),
      pulses := d.mtr.pulses.map fun e => (e.1, (e.2.residue, e.2.owed)), crcOk := true }
  let saves := mset d.mtr.saves (savePos seq) { r with crcOk := false }
  { d with mtr := { d.mtr with seq := seq, saves := saves, saving := some (savePos seq, r) } }
/-- The save in progress is complete. -/
def endSave (d : Dev) : Dev :=
  match d.mtr.saving with
  | none => d
  | some (pos, r) =>
    let last := some (pos, r.cause, r.seq, BitVec.ofNat 32 r.ts.sec.toNat)
    bump { d with mtr := { d.mtr with saving := none, saves := mset d.mtr.saves pos r, last := last } } 0x10 (3 + r.cause)
/-- METER_SAVE_PERIODIC, every SAVE_PERIOD of operating time: held off by the power-fail warning (R529), and by a firmware restart until its
end (R452). -/
def execMeterSavePeriodic : State → Host.Outcome State Fault Refusal := runEng fun d =>
  if d.mtr.saving.isSome || d.pwr.pfw || d.pwr.seqRun || !fwTakes d then d
  else
    let d := waitUntil d d.mtr.saveOp
    beginSave 0 { d with mtr := { d.mtr with saveOp := opNs d + d.mtr.savePeriod * secNs } }
/-- METER_SAVE_DONE. -/
def execMeterSaveDone : State → Host.Outcome State Fault Refusal := runLive endSave
/-- The save of the power-fail order (R398): a save in progress is abandoned. -/
def meterPfwSave (d : Dev) : Dev :=
  let d := if d.mtr.saving.isSome then setFlag 0x10 2 (bump { d with mtr := { d.mtr with saving := none } } 0x10 6) else d
  beginSave 1 d
/-- `a` is the later sequence, modulo 2^32. -/
def seqAfter (a b : W32) : Bool := a != b && (a - b).toNat < 2 ^ 31
/-- The valid record of highest SEQ among a list. -/
def newestSave (l : List MtrSave) : Option MtrSave :=
  l.foldl (fun m r => match m with | none => some r | some y => if seqAfter r.seq y.seq then some r else some y) none
/-- Firmware restores metering at start-up (R399). -/
def meterRestore (d : Dev) : Dev :=
  let all := d.mtr.saves.map Prod.snd
  let d := { d with mtr := { d.mtr with saveOp := opNs d + d.mtr.savePeriod * secNs } }
  match newestSave (all.filter MtrSave.crcOk) with
  | none => logEv 0x1003 0 0 0 (setFlag 0x10 1 d)
  | some r =>
    let newer := all.any fun y => !y.crcOk && seqAfter y.seq r.seq
    let bad := if newer then (all.filter fun y => !y.crcOk).length else 0
    let d := (List.range 8).foldl (fun d c =>
      let x := circOf d c
      let v := mfind r.opens c
      setCirc c { x with regs := mget [] r.regs c, open_ := v, gapDue := v.isSome } d) d
    let d := r.pulses.foldl (fun d e => setPulse e.1 { pulseOf d e.1 with residue := e.2.1, owed := e.2.2 } d) d
    let sec : W32 := if r.state = .unset then 0xFFFFFFFF else BitVec.ofNat 32 r.ts.sec.toNat
    let newest := if bad = 0 then r.seq else ((newestSave all).map MtrSave.seq).getD r.seq
    let d := { d with mtr := { d.mtr with seq := newest, restored := some (sec, r.seq) } }
    let d := bump (logEv 0x1001 r.seq.toNat r.cause (r.opt.toNat / 1000) d) 0x10 7
    if bad = 0 then d else logEv 0x1002 r.seq.toNat bad 0 (setFlag 0x10 0 (bump d 0x10 8))
/-- The time state leaves UNSET after a restore (R394, R399): METER_GAP, and restored intervals whose end has passed close with GAP. -/
def meterGap (d : Dev) : Dev :=
  match d.mtr.restored with
  | none => d
  | some (sec, seq) =>
    let d := logEv 0x1004 sec.toNat (sampleNs (sampleFrom (9 * nowNs d)) / secNs % 2 ^ 32) seq.toNat { d with mtr := { d.mtr with restored := none } }
    (List.range 8).foldl (fun d c =>
      let x := circOf d c
      match x.open_ with
      | some v =>
        if !x.gapDue then d
        else
          let d := setCirc c { x with open_ := some (v.flag 2), gapDue := false } d
          match nextBoundary x.demand (leapTable d) v.start.sec.toNat with
          | some b => if !x.demand.launchOnly && b * secNs ≤ nowNs d then closeIv c (stampOfNs (b * secNs)) [] none d else d
          | none => d
      | none => d) d
/-- The 104 energy registers copied by a snapshot of code 0x10 (R401). -/
def meterSnap (d : Dev) : Dev :=
  let one (c r : Nat) : Nat × W64 := (16 * c + r, BitVec.ofNat 64 (countOfAcc (mget 0 (circOf d c).regs r)))
  let all := ((List.range 8).map fun c => (List.range 13).map (one c)).flatten
  { d with mtr := { d.mtr with snap := all.filter fun e => e.2 != 0 } }

/-! ### Commands (Table 14-9) -/

/-- A metered circuit set up; a change of its measurement ends the open interval. -/
def setupMeter (p : MtrConfigP) (d : Dev) : Dev :=
  let c := p.circuit.toNat
  let x := circOf d c
  let g : MtrConfig := { enable := p.enable = 1, threeWire := p.conn = 1, f60 := p.fnom = 60, iN := p.iN, uN := p.uN, creep := p.creep }
  let o := x.config
  let cuts := o.threeWire != g.threeWire || o.f60 != g.f60 || o.iN != g.iN || o.creep != g.creep
  setCirc c { x with config := g, endDue := if cuts && x.open_.isSome then some 7 else x.endDue } d
/-- MTR_CONFIG (R383); F_NOM is given as 50 or 60. -/
def execMtrConfig (h : Hdr) (p : MtrConfigP) : State → Host.Outcome State Fault Refusal :=
  cmdPlain h 0x0720 p.bytes fun d =>
    let creepBad := !f32Fin p.creep || f32Lt p.creep 0 || f64Lt (f64Mul 0x3F3A36E2EB1C432D (f32To64 p.iN)) (f32To64 p.creep)
    checks [(7 < p.circuit.toNat || 1 < p.enable.toNat || 1 < p.conn.toNat || (p.fnom != 50 && p.fnom != 60) ||
      !f32Between p.iN 0x3DCCCCCD 0x47C35000 || !f32Between p.uN 0x3F800000 0x49742400 || creepBad, .badParam)] (fun d => okay (setupMeter p d)) d
/-- The demand intervals of the masked circuits set. -/
def setupDemand (mask : Nat) (launchOnly : Bool) (len : Nat) (utcAlign : Bool) (d : Dev) : Dev :=
  ((List.range 8).filter fun c => bit mask c).foldl (fun d c =>
    let x := circOf d c
    let m : MtrDemand := { launchOnly := launchOnly, len := len, utcAlign := utcAlign }
    setCirc c { x with demand := m, endDue := if x.open_.isSome then some (x.endDue.getD 16) else none } d) d
/-- MTR_DEMAND (R392, R393). -/
def execMtrDemand (h : Hdr) (mask : Byte) (mode : Byte) (len : W16) (utcAlign : Byte) : State → Host.Outcome State Fault Refusal :=
  cmdPlain h 0x0721 (pk mask ++ pk mode ++ pk len ++ pk utcAlign) fun d =>
    checks [(1 < mode.toNat || !([60, 120, 180, 240, 300, 360, 600, 720, 900, 1200, 1800, 3600].contains len.toNat) || 1 < utcAlign.toNat,
      .badParam)] (fun d => okay (setupDemand mask.toNat (mode = 1) len.toNat (utcAlign = 1) d)) d
/-- A pulse output set up. -/
def setupPulse (p : MtrPulseP) (d : Dev) : Dev :=
  let k := p.output.toNat
  let x := pulseOf d k
  let same := x.circuit = p.circuit.toNat && x.reg = p.reg.toNat
  let y : MtrPulse :=
    { x with enabled := p.enable = 1, circuit := p.circuit.toNat, reg := p.reg.toNat, kp := p.kp.toNat, width := p.width.toNat,
             openDrain := p.drive = 1, high := p.active = 1, residue := if same then x.residue else 0,
             owed := if same then x.owed else 0, active := x.active && p.enable = 1 }
  let d := setPulse k y d
  if y.enabled then showPulse k d else emit (.pin 2 k none) d
/-- MTR_PULSE (R395); drive 0 push-pull, 1 open-drain; active level 0 low, 1 high. -/
def execMtrPulse (h : Hdr) (p : MtrPulseP) : State → Host.Outcome State Fault Refusal :=
  cmdPlain h 0x0722 p.bytes fun d =>
    checks [(7 < p.output.toNat || 7 < p.circuit.toNat || 12 < p.reg.toNat || p.kp = 0 || p.width = 0 || 1000 < p.width.toNat ||
      1 < p.drive.toNat || 1 < p.active.toNat || 1 < p.enable.toNat, .badParam)] (fun d => okay (setupPulse p d)) d
/-- MTR_SAVE_PARAMS (R397). -/
def execMtrSaveParams (h : Hdr) (period : W16) : State → Host.Outcome State Fault Refusal :=
  cmdPlain h 0x0723 (pk period) fun d => checks [(period = 0 || 3600 < period.toNat, .badParam)] (fun d =>
    okay { d with mtr := { d.mtr with savePeriod := period.toNat, saveOp := opNs d + period.toNat * secNs } }) d
/-- MTR_SAVE_NOW (R397): the reply is SEQ of the save. -/
def execMtrSaveNow (h : Hdr) : State → Host.Outcome State Fault Refusal :=
  cmdPlain h 0x0724 [] fun d => checks [(d.mtr.saving.isSome, .busy)] (fun d =>
    let d := beginSave 2 d
    okayWith (pk d.mtr.seq) d) d
/-- MTR_STATUS: powers, f_t, the interval start and the partial energies (log entry 11); 0 where nothing is in progress. -/
def execMtrStatus (h : Hdr) (circuit : Byte) : State → Host.Outcome State Fault Refusal :=
  cmdPlain h 0x0725 (pk circuit) fun d => checks [(7 < circuit.toNat, .badParam)] (fun d =>
    let x := circOf d circuit.toNat
    let v := x.open_.getD {}
    okayWith (pk x.latest.p ++ pk x.latest.q ++ pk x.latest.p1 ++ pk x.latest.q1 ++ pk x.latest.s ++ pk x.ft ++ v.start.bytes ++
      ivEnergies v.energy) d) d
/-- MTR_STARTUP_TEST (R391): it goes on until METER_STARTUP_TEST_DONE. -/
def execMtrStartupTest (h : Hdr) (circuit : Byte) : State → Host.Outcome State Fault Refusal :=
  cmdPlain h 0x0726 (pk circuit) fun d => checks [(7 < circuit.toNat, .badParam), (d.mtr.test.isSome, .busy),
    (!(circOf d circuit.toNat).config.enable, .notPermitted)] (fun d =>
    goesOn { d with mtr := { d.mtr with
      test := some { circuit := circuit.toNat, chan := h.chan, endOp := opNs d + 10 * secNs } } }) d
/-- The energy in mWh that the start-up test expects: 3 U_N 0.0005 In 10 s, by √3 for three-wire. -/
def testEnergy (g : MtrConfig) : W64 :=
  let one := f64Div (f64Mul (f32To64 g.uN) (f32To64 g.iN)) (f64Int 240)
  if g.threeWire then f64Div (f64Mul (f64Sqrt (f64Int 3)) one) (f64Int 3) else one
/-- A measured energy lies within ±0.5 % of the expected one. -/
def testNear (e : Nat) (want : W64) : Bool :=
  let q := f64Q want
  decide ((200 * ((e : Int) * q.2 - q.1)).natAbs ≤ q.1.natAbs)
/-- A sample of the start-up test (R391): U_N and 0.0005 I_N in each phase at F_NOM and unity power factor, rounded to nearest; phase A's
angle is 0 at sample 0 (log entry 23). In a three-wire circuit the voltages are those between phases, which lead by 30°. -/
def testSample (g : MtrConfig) (fs : List W32) (q : Nat) : List (BitVec 32) :=
  let turn (v : W64) : W64 := f64Mul twoPi v
  let base := turn (ofQ64 ((q * (if g.f60 then 60 else 50) : Nat) : Int) 28800)
  (List.range 6).map fun ch =>
    let lead := if ch < 3 && g.threeWire then turn (ofQ64 1 12) else 0
    let amp := if ch < 3 then f32To64 g.uN else f64Div (f32To64 g.iN) (f64Int 2000)
    let at_ := cos64 (f64Sub (f64Add base lead) (turn (ofQ64 (ch % 3 : Nat) 3)))
    let full := f32To64 (fs.getD ch 0)
    if full = 0 then 0
    else
      let v := f64Floor (f64Add (f64Div (f64Mul (f64Mul (f64Sqrt (f64Int 2)) amp) (f64Mul at_ (f64Int (2 ^ 30)))) full) 0x3FE0000000000000)
      BitVec.ofInt 32 (max (-2147483647) (min 2147483647 v))
/-- The test registers after 10 s (R391): ACT_IMP_TOT and ACT_IMP_FUND in register units, and whether a sample was a no-load sample. The
internal samples go on before and after the ten seconds. -/
def testEnergies (g : MtrConfig) (fs : List W32) : Nat × Nat × Bool :=
  let line (m : Nat) : MeterLine := (List.range (2 * cycleLen g + 2 * hilbertDelay)).map fun k => (testSample g fs (m + 4000 - k), fs)
  let r := (List.range 288000).foldl (fun (a : Nat × Nat × Bool) m =>
    let f := meterPowers g.threeWire g.f60 g.creep (line m)
    if f.noload then (a.1, a.2.1, true) else (a.1 + f.parts.1.toNat, a.2.1 + f.parts.2.2.1.toNat, a.2.2)) (0, 0, false)
  (countOfAcc r.1, countOfAcc r.2.1, r.2.2)
/-- The start-up test of a circuit ends: energies against the rated ones, logged, and the reply of MTR_STARTUP_TEST. -/
def testDone (c chan : Nat) (d : Dev) : Dev :=
  let g := (circOf d c).config
  let r := testEnergies g ((rangeFrom (6 * c) 6).map fun k => (chanOf d k).fs)
  let want := testEnergy g
  let pass := testNear r.1 want && testNear r.2.1 want && !r.2.2
  let d := bump (logEv 0x1007 c (b2n (!pass)) (r.1 % 2 ^ 32) { d with mtr := { d.mtr with test := none } }) 0x10 13
  match executingOn d chan with
  | none => d
  | some e => finishExec e .ok (leBytes 8 r.1 ++ leBytes 8 r.2.1 ++ leBytes 8 (f64Floor (f64Add want 0x3FE0000000000000)).toNat ++
      [BitVec.ofNat 8 (b2n (!pass))]) d
/-- METER_STARTUP_TEST_DONE (R391), 10 s after the start: the reply is both energies, the expected value and the result. -/
def execMeterStartupTestDone : State → Host.Outcome State Fault Refusal := runEng fun d =>
  match d.mtr.test with
  | none => d
  | some t => testDone t.circuit t.chan (waitUntil d t.endOp)
/-- The registers of the masked circuits and their pulse outputs' residues cleared, and the cleared state saved. -/
def clearMeters (mask : Nat) (d : Dev) : Dev :=
  let cs := (List.range 8).filter fun c => bit mask c
  let d := cs.foldl (fun d c =>
    let x := circOf d c
    let d := setCirc c { x with regs := [] } d
    if x.open_.isSome then closeIv c (nowStamp d) [8] (some { openIv d 0 with start := nowStamp d }) d else d) d
  let ps := (List.range 8).filter fun p => cs.contains (pulseOf d p).circuit
  let d := ps.foldl (fun d p => setPulse p { pulseOf d p with residue := 0 } d) d
  beginSave 2 (endSave (logEv 0x1005 mask 0 0 (setFlag 0x10 5 d)))
/-- MTR_CLEAR (R400): a save in progress is completed first. -/
def execMtrClear (h : Hdr) (mask : Byte) : State → Host.Outcome State Fault Refusal :=
  cmdPlain h 0x0727 (pk mask) fun d => checks [(!d.tmp.presence, .presenceRequired)] (fun d => okay (clearMeters mask.toNat d)) d

end Sys2Proof.Machine
end

