-- ==== Sys2Proof/Machine/PubCmd.lean ====
section
/-!
DEFINITION. The delivery rings (R219 to R224) and the commands of publishing and host delivery (Tables 7-10, 7-12 and 7-13).
-/
namespace Sys2Proof.Machine

/-! ### Writing records into rings (R220 to R224) -/

/-- Unread entries of a ring. -/
def Ring.depth (g : Ring) : Nat := (g.tail + g.size - g.head) % g.size
/-- The record's item word (R224). -/
def itemWord (x : HostRec) (rseq : W32) : Nat :=
  x.type * 2 ^ 60 + x.prio * 2 ^ 57 + (1 + x.more.length) % 2 ^ 25 * 2 ^ 32 + rseq.toNat
/-! ### Husk cells (R214, R215) -/

/-- A Husk cell: its item word, the item body, the link to the next cell and the priority. -/
structure Cell where
  word : W64
  body : Bytes
  next : BitVec 20
  prio : BitVec 3
  deriving DecidableEq, Repr
/-- The 64 bytes of a cell (R214): bytes 60 to 63 are reserved. -/
def Cell.bytes (c : Cell) : Bytes := pk c.word ++ cut c.body 0 48 ++ leBytes 4 (c.next.toNat + c.prio.toNat * 2 ^ 20) ++ [0, 0, 0, 0]
/-- The idle item: what a read of an empty queue returns (R215). -/
def idleItem : Bytes := leBytes 8 0x1D1E000000001D1E ++ List.replicate 56 0
/-- The cell of the item at a place of a feeder queue. -/
def feederCell (d : Dev) (r k : Nat) (x : HostRec) : Cell :=
  { word := BitVec.ofNat 64 (itemWord x (ringOf d r).rseq), body := Config.itemBody r k, next := Config.cellOf r (k + 1),
    prio := BitVec.ofNat 3 x.prio }
/-- What a read of a feeder queue returns: its oldest item of the highest priority, or the idle item. -/
def feederRead (d : Dev) (r : Nat) : Bytes :=
  let l := mget [] d.pub.feeders r
  match dequeue HostRec.prio l with
  | some (x, _) => (feederCell d r (l.idxOf x) x).bytes
  | none => idleItem

/-- TAIL written back (R220). -/
def tailBack (r : Nat) (d : Dev) : Dev :=
  let g := ringOf d r
  hostWrite g.wb (leBytes 4 (g.tail % 2 ^ 24)) (setRing d r { g with tailWb := g.tail })
/-- A ring's notice (R220): none while one is outstanding. -/
def ringNotice (r : Nat) (d : Dev) : Dev :=
  if (ringOf d r).notice then d
  else
    let d := tailBack r d
    sendMsix false (9 + r) (setRing d r { ringOf d r with notice := true })
/-- One entry written at TAIL; `k` entries of the record are written with it. -/
def putEntry (r k : Nat) (e : Bytes) (d : Dev) : Dev :=
  let g := ringOf d r
  let d := hostWrite (g.base + BitVec.ofNat 64 (64 * g.tail)) (padTo 64 e) d
  let d := bump (setRing d r { g with tail := (g.tail + 1) % g.size, since := if g.depth = 0 then opNs d else g.since }) 0x0A 15
  let d := if k % 64 = 0 then tailBack r d else d
  if g.depth + 1 = g.watermark then ringNotice r d else d
/-- The end of a record: TAIL is written back, and a ring that is being disabled is disabled. -/
def recordDone (r : Nat) (x : HostRec) (d : Dev) : Dev :=
  let d := bump (tailBack r d) 0x0A 14
  let g := ringOf d r
  let d := setRing d r { g with part := none, en := g.en && !g.closing, run := g.run && !g.closing, closing := false }
  if x.type = 5 then capWritten x.head d else d
/-- The entries of a record that are left, as far as the ring has room for them. -/
def ringPut (r : Nat) (x : HostRec) : List Bytes → Dev → Dev
  | [], d => recordDone r x d
  | e :: rest, d =>
    let g := ringOf d r
    if g.size - 1 ≤ g.depth then setRing d r { g with part := some (x, e :: rest) }
    else ringPut r x rest (putEntry r (1 + x.more.length - rest.length) e d)
/-- A record starts on its ring with the next RSEQ. -/
def startRecord (r : Nat) (x : HostRec) (d : Dev) : Dev :=
  let g := ringOf d r
  ringPut r x ((leBytes 8 (itemWord x g.rseq) ++ x.head) :: x.more) (setRing d r { g with rseq := g.rseq + 1 })
/-- The gap record of a ring (R223, R228). -/
def gapRec (g : Ring) : HostRec :=
  { type := 9, prio := typePrio 9, head := padTo 56 ((g.drops.map (leBytes 4)).flatten ++ g.firstDrop.bytes ++ g.lastDrop.bytes),
    more := [] }
/-- The gap record goes out before the next record, and the counts start again (R223). -/
def writeGap (r : Nat) (d : Dev) : Dev :=
  let g := ringOf d r
  if g.drops.all (· == 0) then d
  else
    let d := setRing d r { g with drops := List.replicate 8 0, firstDrop := {}, lastDrop := {} }
    startRecord r (gapRec g) (bump d 0x0A 17)
/-- The oldest record of the highest priority is taken from the feeder queue and written. -/
def writeNext (r : Nat) (d : Dev) : Dev :=
  match dequeue HostRec.prio (mget [] d.pub.feeders r) with
  | none => d
  | some (x, rest) => startRecord r x (queueRead r { d with pub := { d.pub with feeders := mput [] d.pub.feeders r rest } })
/-- The ring writes: it is enabled and not stopped, and the link is up. -/
def ringWrites (d : Dev) (r : Nat) : Bool :=
  let g := ringOf d r
  g.en && g.run && g.part.isNone && g.depth < g.size - 1 && d.gbl.linkUp && !d.gbl.pf0.d3hot
/-- RING_RECORD_WRITE: the record being written goes on; else a gap record where records were discarded, and the record at the head
of the feeder queue, unless a read of it gives the idle item. -/
def execRingRecordWrite (feeder : Fin 32) : State → Host.Outcome State Fault Refusal := runLive fun d =>
  let r : Nat := feeder
  let g := ringOf d r
  match g.part with
  | some (x, l) => if g.en && g.run && d.gbl.linkUp && !d.gbl.pf0.d3hot then ringPut r x l d else d
  | none =>
    if !ringWrites d r || (mget [] d.pub.feeders r).isEmpty then d
    else
      let d := writeGap r d
      if ringWrites d r then writeNext r d else d

/-- A record abandoned before it is complete (R222, R504): it counts as discarded. -/
def abandonPart (r : Nat) (d : Dev) : Dev :=
  match (ringOf d r).part with
  | some (x, _) => recDropped x (ringDrop r x.type (setRing d r { ringOf d r with part := none }))
  | none => d
/-- A HEAD write (R220, R222): a value between HEAD and TAIL returns entries; any other one stops the ring. -/
def ringHead (r v : Nat) (d : Dev) : Dev :=
  let g := ringOf d r
  let h := v % 2 ^ 24
  if !g.run then setRing d r { g with head := h }
  else if g.size ≤ h || g.depth < (h + g.size - g.head) % g.size then
    abandonPart r (logEv 0x0A03 r h 0 (setFlag 0x0A 2 (setRing d r { g with run := false, err := true, head := h })))
  else setRing d r { g with head := h, notice := false, since := if h = g.head then g.since else opNs d }
/-- RNG_DL_HEAD_WRITE. -/
def execRngDlHeadWrite (ring : Fin 32) (v : W32) : State → Host.Outcome State Fault Refusal := runLive (ringHead ring v.toNat)

/-! ### Stale notices (R218) -/

/-- QUEUE_STALE in the log, at most once per queue per 60 s; the spec gives the firmware's queue no ID (log entry 33). -/
def staleLog (q depth : Nat) (d : Dev) : Dev :=
  let x := qParams d q
  if x.logAt.all fun t => 60000 ≤ optSince d t then
    logEv 0x0A05 (if q = fwQueueId then Config.fwQueueId () else q) depth 0 (setQParams q { x with logAt := some d.log.opt } d)
  else d
/-- A stale notice counts and sets its flag. -/
def staleNotice (q depth : Nat) (d : Dev) : Dev := staleLog q depth (setFlag 0x0A 3 (bump d 0x0A 18))
/-- A queue of some depth has stood unread for its STALE_T: time runs on to the end of its stale timer, which starts again. -/
def queueStale (q depth : Nat) (d : Dev) : Dev :=
  let x := qParams d q
  if depth = 0 || x.staleT = 0 then d
  else
    let d := waitUntil d (x.since + x.staleT * 1000)
    staleNotice q depth (emit (.queueNotice q) (setQParams q { x with stale := true, since := opNs d } d))
/-- A ring's unread entries have stood for its STALE_T without a HEAD write (R220). -/
def ringStale (r : Nat) (d : Dev) : Dev :=
  let g := ringOf d r
  if !g.run || g.depth = 0 || g.staleT = 0 || g.notice then d
  else
    let d := ringNotice r (waitUntil d (g.since + g.staleT * 1000))
    staleNotice r g.depth (setRing d r { ringOf d r with stale := true, since := opNs d })
/-- QUEUE_STALE: queues 0 to 31 are the feeder queues, 32 to 43 the egress queues, 44 to 75 the delivery rings, 76 the firmware's work
queue. -/
def execQueueStale (queue : Fin 77) : State → Host.Outcome State Fault Refusal := runLive fun d =>
  let q : Nat := queue
  if q < 32 then queueStale q (mget [] d.pub.feeders q).length d
  else if q < 44 then queueStale q (mget [] d.pub.egress (q - 32)).length d
  else if q < 76 then ringStale (q - 44) d
  else queueStale q d.ing.fwQueue.length d

/-! ### Formats and templates (R196, R202, R207 to R209, R235) -/

/-- The fields of a Table 7-12 block. -/
def ostreamFmtOf (b : Bytes) : OstreamFmtP :=
  { ostream := BitVec.ofNat 16 (leAt b 0 2), proto := BitVec.ofNat 8 (leAt b 2 1), version := BitVec.ofNat 8 (leAt b 3 1),
    idcodeBase := BitVec.ofNat 16 (leAt b 4 2), timeBase := BitVec.ofNat 24 (leAt b 6 3), phFmt := BitVec.ofNat 8 (leAt b 9 1),
    frFmt := BitVec.ofNat 8 (leAt b 10 1), anFmt := BitVec.ofNat 8 (leAt b 11 1), vscale := BitVec.ofNat 16 (leAt b 12 2),
    iscale := BitVec.ofNat 16 (leAt b 14 2), frameMax := BitVec.ofNat 16 (leAt b 16 2), appidBase := BitVec.ofNat 16 (leAt b 18 2),
    confRev := BitVec.ofNat 32 (leAt b 20 4), ring := BitVec.ofNat 8 (leAt b 24 1), lateRing := BitVec.ofNat 8 (leAt b 25 1),
    svid := cut b 28 32, zeros := leAt b 26 2 = 0 && leAt b 60 4 = 0 }
/-- SVID without its padding. -/
def svidOf (p : OstreamFmtP) : Bytes := p.svid.takeWhile (· != 0)
/-- SVID is 1 to 32 visible ASCII characters, padded with 0. -/
def svidOk (p : OstreamFmtP) : Bool :=
  let s := svidOf p
  p.svid.length ≤ 32 && !s.isEmpty && s.all (fun c => 0x21 ≤ c.toNat && c.toNat ≤ 0x7E) && allZero (p.svid.drop s.length)
/-- A ring number, or 255 for none. -/
def ringNumBad (r : Byte) : Bool := 32 ≤ r.toNat && r != 255
/-- A field is outside Table 7-1. -/
def fmtBad (p : OstreamFmtP) : Bool :=
  4096 ≤ p.ostream.toNat || 1 < p.proto.toNat || (p.version != 1 && p.version != 2) || p.idcodeBase = 0 || p.timeBase = 0 ||
  3 < p.phFmt.toNat || 1 < p.frFmt.toNat || 1 < p.anFmt.toNat || p.frameMax.toNat < 64 || 9170 < p.frameMax.toNat ||
  ringNumBad p.ring || ringNumBad p.lateRing || !svidOk p || !p.zeros
/-- PUB_OSTREAM_FMT (R196, R235): a changed O-stream entry of the staged generation. -/
def execPubOstreamFmt (h : Hdr) (src : BlockSrc) (block : Bytes) : State → Host.Outcome State Fault Refusal :=
  cmdBlock h 0x0510 src 64 block (fun b =>
    let f := ostreamFmtOf b
    let o := f.ostream.toNat
    stageWith (fmtBad f) [] [keyOstream o] fun g => { g with fmts := mset g.fmts o { f with svid := svidOf f } })

/-- A tag of a Table 7-13 block. -/
def tagOf (b : Bytes) : TagP :=
  { tpid := BitVec.ofNat 8 (leAt b 0 1), pcp := BitVec.ofNat 8 (leAt b 1 1), vid := BitVec.ofNat 16 (leAt b 2 2) }
/-- The fields of a Table 7-13 block. -/
def templateOf (b : Bytes) : TemplateP :=
  { template := BitVec.ofNat 16 (leAt b 0 2), ostream := BitVec.ofNat 16 (leAt b 2 2), port := BitVec.ofNat 8 (leAt b 4 1),
    bits := BitVec.ofNat 8 (leAt b 5 1), ttl := BitVec.ofNat 8 (leAt b 6 1), dscp := BitVec.ofNat 8 (leAt b 7 1),
    dstIp := BitVec.ofNat 128 (beAt b 8 16), srcIp := BitVec.ofNat 128 (beAt b 24 16), dstMac := BitVec.ofNat 48 (beAt b 40 6),
    udpSrc := BitVec.ofNat 16 (leAt b 46 2), udpDst := BitVec.ofNat 16 (leAt b 48 2), tags := BitVec.ofNat 8 (leAt b 50 1),
    prio := BitVec.ofNat 8 (leAt b 51 1), outer := tagOf (b.drop 52), inner := tagOf (b.drop 56),
    maxAge := BitVec.ofNat 32 (leAt b 60 4), sig := BitVec.ofNat 8 (leAt b 64 1), zeros := allZero (b.drop 65) }
/-- A tag's fields are outside their ranges. -/
def tagBad (t : TagP) : Bool := 2 < t.tpid.toNat || 15 < t.pcp.toNat || 4095 < t.vid.toNat
/-- A unicast or multicast destination (Table 7-5): neither the unspecified address nor a broadcast or reserved one (log entry 33). -/
def dstIpOk (a : BitVec 128) : Bool :=
  if isMappedV4 a then bits a.toNat 24 8 != 0 && bits a.toNat 28 4 != 0xF else a != 0
/-- A field is outside Table 7-5. -/
def templateBad (t : TemplateP) : Bool :=
  16384 ≤ t.template.toNat || 4096 ≤ t.ostream.toNat || 12 ≤ t.port.toNat || 3 < t.bits.toNat || t.ttl = 0 || 63 < t.dscp.toNat ||
  t.udpSrc = 0 || t.udpDst = 0 || 2 < t.tags.toNat || 7 < t.prio.toNat || tagBad t.outer || tagBad t.inner || t.maxAge = 0 ||
  2000000 < t.maxAge.toNat || 5 < t.sig.toNat || !t.zeros || !dstIpOk t.dstIp || isMappedV4 t.dstIp != isMappedV4 t.srcIp ||
  ((mcastMac t.dstIp).isSome && t.dstMac != 0)
/-- PROTO and FRAME_MAX of an O-stream's staged format, or their defaults. -/
def stagedFmt (g : Gen) (o : Nat) : Nat × Nat :=
  match mfind g.fmts o with
  | some f => (f.proto.toNat, f.frameMax.toNat)
  | none => (0, 1472)
/-- The cases of R208. -/
def templateRefused (d : Dev) (t : TemplateP) : Bool :=
  let f := stagedFmt d.staged t.ostream.toNat
  let v6 := !isMappedV4 t.dstIp
  let others := d.staged.tpls.filter fun e => e.1 != t.template.toNat && e.2.ostream = t.ostream
  !isOwnIp d t.port.toNat v6 t.srcIp || (portOf d t.port.toNat).maxLen < f.2 + (if v6 then 66 else 46) || (t.sig != 0 && f.1 = 0) ||
  16 ≤ others.length
/-- PUB_TEMPLATE (R207, R208, R235). -/
def execPubTemplate (h : Hdr) (src : BlockSrc) (block : Bytes) : State → Host.Outcome State Fault Refusal :=
  cmdBlock h 0x0511 src 80 block (fun b d =>
    let t := templateOf b
    stageFree (templateBad t || templateRefused d t) (fun g => { g with tpls := mset g.tpls t.template.toNat t }) d)
/-- PUB_TEMPLATE_REMOVE. -/
def execPubTemplateRemove (h : Hdr) (template : W16) : State → Host.Outcome State Fault Refusal :=
  cmdPlain h 0x0512 (pk template) (stageFree (16384 ≤ template.toNat) fun g => { g with tpls := mdel g.tpls template.toNat })
/-- Bytes that the images of a generation take (R202). -/
def imageBytes (g : Gen) : Nat := (g.images.map fun e => e.2.length).sum
/-- PUB_CFG_IMAGE (R202): length 0 has no meaning, and a failed read of the host buffer gives INTERNAL_FAULT (R503). -/
def execPubCfgImage (h : Hdr) (ostream : W16) (shard : W16) (kind : Byte) (addr : W64) (len : W16) (image : Bytes) (readOk : Bool) :
    State → Host.Outcome State Fault Refusal :=
  cmd h 0x0513 (pk ostream ++ pk shard ++ [kind] ++ pk addr ++ pk len) true fun d =>
    let k := imgKey ostream.toNat shard.toNat kind.toNat
    let img := cut image 0 len.toNat
    let left := imageBytes { d.staged with images := mdel d.staged.images k }
    checks [(stagedShut d, .generationConflict), (4096 ≤ ostream.toNat || 3 < kind.toNat || len = 0, .badParam),
        (2 ^ 28 < left + len.toNat, .noResource), (!readOk, .internalFault)]
      (stageFree false fun g => { g with images := mset g.images k img }) d

/-- A template that a switch removes or changes starts anew; one that stays keeps its state (R203, R204). -/
def tplSwitch (old : Gen) (d : Dev) : Dev :=
  let same (t : Nat) : Bool := decide (mfind old.tpls t = mfind d.cur.tpls t)
  let gone := (old.tpls.map Prod.fst).filter fun t => !same t
  let d := gone.foldl (fun d t => if (mfind d.cur.tpls t).isSome then d else { d with pub := { d.pub with tpl := mdel d.pub.tpl t } }) d
  d.cur.tpls.foldl (fun d e =>
    if same e.1 then d else setTpl e.1 { tplOf d e.1 with on := e.2.startOn, spdu := 0, sent := 0, dropped := 0 } d) d

/-- PUB_TEMPLATE_STATUS: defined, transmission state, quarantine, SPDU number, frames sent and dropped (log entry 11). -/
def execPubTemplateStatus (h : Hdr) (template : W16) : State → Host.Outcome State Fault Refusal :=
  cmdPlain h 0x0519 (pk template) fun d =>
    let t := template.toNat
    let there := (mfind d.cur.tpls t).isSome
    let x := tplOf d t
    checks [(16384 ≤ t, .badParam)] (fun d => okayWith
      (if there then [1, BitVec.ofNat 8 (b2n x.on), BitVec.ofNat 8 (b2n x.quar)] ++ pk x.spdu ++ leBytes 6 x.sent ++ leBytes 6 x.dropped
       else List.replicate 19 0) d) d

/-- A template is quarantined (R209). -/
def quarTemplate (t slot cause : Nat) (x : TplRun) (d : Dev) : Dev :=
  logEv 0x0A01 t slot cause (setFlag 0x0A 4 (setTpl t { x with quar := true } d))
/-- Templates whose current binding names a Pip that can no longer be used (R209). -/
def quarTemplates (slot cause : Nat) (d : Dev) : Dev :=
  (d.pub.tpl.filter fun e => !e.2.quar && e.2.cur.any (·.slot == slot)).foldl (fun d e => quarTemplate e.1 slot cause e.2 d) d
/-- The bindings of a template take effect: a current Pip that can be used releases it, one that cannot quarantines it (R209). -/
def bindTemplate (t : Nat) (x : TplRun) (d : Dev) : Dev :=
  match x.cur.filter fun y => (pipFault d y.slot 1).isSome with
  | none => setTpl t { x with quar := false } d
  | some y => if x.quar then setTpl t x d else quarTemplate t y.slot (pipCause d y.slot) x d
/-- PUB_TEMPLATE_SIGKEY (R209). -/
def execPubTemplateSigkey (h : Hdr) (p : SigKeyP) : State → Host.Outcome State Fault Refusal :=
  cmdPlain h 0x0520 p.bytes fun d =>
    checks [(16384 ≤ p.index.toNat || 1 < p.binding.toNat || 1 < p.swap.toNat, .badParam)] (fun d =>
      match pipFault d p.slot.toNat 1 with
      | some st => reject st (countOrphan st d)
      | none =>
        let t := tplOf d p.index.toNat
        let b : Binding := { keyId := p.keyId, slot := p.slot.toNat, timeOfKey := p.timeOfKey, timeToNext := p.timeToNext }
        let n := setBinding (p.binding = 1) (p.swap = 1) b t.cur t.next
        okay (bindTemplate p.index.toNat { t with cur := n.1, next := n.2 } d)) d

/-! ### Rings, routes and queues -/

/-- PUB_RING (R219): every value is checked, whether it enables or disables (R556); a WATERMARK of 0 and a STALE_T above 1,000,000 µs are outside R218's ranges. A stopped ring may be enabled
again (R222). -/
def execPubRing (h : Hdr) (p : RingP) : State → Host.Outcome State Fault Refusal :=
  cmd h 0x0514 p.bytes (p.enable = 1) fun d =>
    let r := p.ring.toNat
    let g := ringOf d r
    let bad := 32 ≤ r || 1 < p.enable.toNat || p.base.toNat % 4096 != 0 || p.log2.toNat < 6 || 24 < p.log2.toNat ||
      p.wb.toNat % 4 != 0 || p.watermark = 0 || 1000000 < p.staleT.toNat
    if p.enable = 0 then
      checks [(bad, .badParam)] (fun d =>
        okay (setRing d r (if g.run && g.part.isSome then { g with closing := true } else
          { g with en := false, run := false, closing := false }))) d
    else
      checks [(bad, .badParam), (g.en && g.run, .busy)] (fun d =>
        let y : Ring := { g with
          base := p.base, size := 2 ^ p.log2.toNat, wb := p.wb, watermark := p.watermark.toNat, staleT := p.staleT.toNat, en := true,
          run := true, closing := false, notice := false, head := 0, tail := 0, tailWb := 0, rseq := 0, part := none }
        okay (setRing d r y)) d
/-- PUB_ROUTE (R221). -/
def execPubRoute (h : Hdr) (type : Byte) (ring : Byte) : State → Host.Outcome State Fault Refusal :=
  cmdPlain h 0x0515 [type, ring] fun d =>
    checks [(!([4, 5, 6, 7, 8] : List Nat).contains type.toNat || ringNumBad ring, .badParam)] (fun d =>
      okay { d with pub := { d.pub with routes := mput 255 d.pub.routes type.toNat ring.toNat } }) d
/-- PUB_QUEUE_PARAMS (R213, R218). -/
def execPubQueueParams (h : Hdr) (queue : Byte) (limit : W32) (watermark : W16) (staleT : W32) :
    State → Host.Outcome State Fault Refusal :=
  cmdPlain h 0x0516 ([queue] ++ pk limit ++ pk watermark ++ pk staleT) fun d =>
    let q := queue.toNat
    let reserve := if q < 32 then 4096 else 8192
    let bad := 44 ≤ q || limit.toNat < reserve || reserve + 438272 < limit.toNat || watermark = 0 || 1000000 < staleT.toNat
    checks [(bad, .badParam)] (fun d =>
      let y : QParams := { qParams d q with limit := limit.toNat, watermark := watermark.toNat, staleT := staleT.toNat }
      okay { d with pub := { d.pub with qparams := mput {} d.pub.qparams q y } }) d

/-! ### History (R230, R233) -/

/-- PUB_HIST_PLAN: T_h and the number of groups that keep their ring. -/
def execPubHistPlan (h : Hdr) (tMax : W32) : State → Host.Outcome State Fault Refusal :=
  cmdPlain h 0x0517 (pk tMax) fun d =>
    checks [(stagedShut d, .generationConflict)] (fun d =>
      match histPlan d.staged tMax.toNat with
      | none => reject .noResource d
      | some p =>
        let old := (d.cur.hist.map HistPlan.groups).getD []
        let kept := p.groups.filter old.contains
        okayWith (leBytes 8 p.tH ++ leBytes 4 kept.length) { d with staged := { d.staged with hist := some p } }) d
/-- A block's 128 bytes (R229). -/
def histBytes (b : HistBlock) : Bytes := pk b.head ++ (b.vals.map pk).flatten
/-- PUB_HIST_READ: `count` blocks of a group from an instant, copied to the host; the reply gives how many match. -/
def execPubHistRead (h : Hdr) (group : W32) (sec : W48) (tick : W16) (count : W32) (addr : W64) :
    State → Host.Outcome State Fault Refusal :=
  cmd h 0x0518 (pk group ++ pk sec ++ pk tick ++ pk count ++ pk addr) true fun d =>
    match ((d.cur.hist.map HistPlan.groups).getD [])[group.toNat]? with
    | none => reject .badParam d
    | some g =>
      let step := periodTicks g.rate
      checks [(3600 ≤ tick.toNat || tick.toNat % step != 0 || count = 0, .badParam)] (fun d =>
        let one (i : Nat) : Bytes × Nat :=
          let k := tickOrd sec tick.toNat + i * step
          let s := BitVec.ofNat 48 (k / 3600)
          match mfind d.pub.hist (histPos g s (k % 3600)) with
          | some b => (padTo 128 (histBytes b), b2n (headIs b.head s (k % 3600)))
          | none => (List.replicate 128 0, 0)
        let l := (List.range count.toNat).map one
        okayWith (leBytes 4 (l.map Prod.snd).sum) (hostWrite addr (l.map Prod.fst).flatten d)) d

end Sys2Proof.Machine
end

