-- ==== Sys2Proof/Machine/Gen.lean ====
section
/-!
DEFINITION. Generation switches (R8 to R10, R20 to R25, R552), and the counter snapshots of R12.
-/
namespace Sys2Proof.Machine

/-- The device is in DORMANT, or between the acceptance of PWR_DORMANT and the exit's alignment-ready (R525). -/
def dormantSpan (d : Dev) : Bool := decide (d.pwr.run = .entering) || decide (d.pwr.run = .dormant) || decide (d.pwr.run = .waking)
/-- A switch request meets R10, R22 or R525. -/
def switchConflict (gen : W16) (sec : W48) (tick : Nat) (d : Dev) : Bool :=
  gen != d.clk.gen + 1 || d.clk.pending.isSome || d.clk.retiring.isSome || decide (tickInst sec tick ≤ nowNs d) || dormantSpan d
/-- A switch is accepted (R22, R24): what the engines and the alarms prepare, and the loads that end in conflict (R159). -/
def startSwitch (gen : W16) (sec : W48) (tick : Nat) (entry : Option Nat) (d : Dev) : Dev :=
  let cut (l : List LoadRun) : List LoadRun := l.map fun x => { x with conflict := true }
  let d := { d with
    clk := { d.clk with pending := some { gen := gen, sec := sec, tick := tick, entry := entry }, swTick := BitVec.ofNat 12 tick,
                        nextGen := gen, swSec := sec }
    dir := { d.dir with loads := cut d.dir.loads }
    est := { d.est with loads := cut d.est.loads }
    osc := { d.osc with loads := cut d.osc.loads }
    isl := { d.isl with loads := cut d.isl.loads } }
  let d := islPrepare (oscPrepare (estPrepare gen d))
  { d with alm := { d.alm with plan := some (limitPlan d) } }
/-- A launch entry ends CANCELLED (R329). -/
def cancelEntry (i : Nat) (d : Dev) : Dev :=
  match mfind d.lch.entries i with
  | some e => bump { d with lch := { d.lch with entries := mset d.lch.entries i { e with status := .cancelled } } } 0x11 9
  | none => d
/-- A pending switch is withdrawn; the staged change set is kept (R25, R306, R310, R552). -/
def dropSwitch (d : Dev) : Dev :=
  let d := estCancel (alnWithdraw { d with clk := { d.clk with pending := none } })
  { d with
    alm := { d.alm with plan := none }
    staged := { d.staged with osc := { d.staged.osc with prep := {} }, isl := { d.staged.isl with prep := {} } } }
/-- The pending switch that a cancel reaches: its switch tick has not begun. -/
def cancellable (d : Dev) : Option Switch := d.clk.pending.filter fun s => decide (nowNs d < tickInst s.sec s.tick)
/-- GEN_CANCEL and LCH_CANCEL of an action 6 entry (R25, R329). -/
def cancelSwitch (d : Dev) : Answer :=
  match cancellable d with
  | none => reject .nothingToAbort d
  | some s =>
    let d := dropSwitch d
    okay (match s.entry with | some i => cancelEntry i d | none => d)
/-- GEN_SWITCH on this unit. -/
def genSwitch (gen : W16) (sec : W48) (tick : Nat) (d : Dev) : Answer :=
  checks [(switchConflict gen sec tick d, .generationConflict), (3599 < tick, .badParam)] (fun d => okay (startSwitch gen sec tick none d)) d
/-- GEN_SWITCH. -/
def execGenSwitch (h : Hdr) (gen : W16) (sec : W48) (tick : W16) : State → Host.Outcome State Fault Refusal :=
  cmdPlain h 0x0110 (pk gen ++ pk sec ++ pk tick) (genSwitch gen sec tick.toNat)
/-- GEN_CANCEL. -/
def execGenCancel (h : Hdr) : State → Host.Outcome State Fault Refusal := cmdPlain h 0x0111 [] cancelSwitch
/-- GEN_DISCARD_STAGED. -/
def execGenDiscardStaged (h : Hdr) : State → Host.Outcome State Fault Refusal :=
  cmdPlain h 0x0112 [] fun d => checks [(stagedShut d, .generationConflict)] (fun d =>
    okay { d with staged := d.cur, clk := { d.clk with chgDir := [], chgOther := [], redef := [] } }) d
/-- GEN_STATUS (log entry 11): current, next and staged numbers, the change-set counts, and bit 0 pending, bit 1 retiring. -/
def execGenStatus (h : Hdr) : State → Host.Outcome State Fault Refusal :=
  cmdPlain h 0x0113 [] fun d => okayWith (pk d.clk.gen ++ pk d.clk.nextGen ++ pk (stagedNum d) ++ leBytes 4 d.clk.chgDir.length ++
    leBytes 4 d.clk.chgOther.length ++ leBytes 1 (b2n d.clk.pending.isSome + 2 * b2n d.clk.retiring.isSome)) d

/-! ### Counter snapshots -/

/-- A code whose block keeps snapshot registers (Table 1-6). -/
def snapOk (code : Nat) : Bool := code = 0 || (2 ≤ code && code ≤ 0x14) || code = 0x16 || code = 0x17
/-- The counters of a block copied into its snapshot registers in one cycle (R12, R401). -/
def snapBlock (code : Nat) (d : Dev) : Dev :=
  let lo := cntKey code 0 0
  let hi := cntKey (code + 1) 0 0
  let d := { d with snap := d.snap.filter (fun e => e.1 < lo) ++ d.cnt.filter (fun e => lo ≤ e.1 && e.1 < hi) ++
                            d.snap.filter (fun e => hi ≤ e.1) }
  if code = 0x10 then meterSnap d else d
/-- COUNTER_SNAPSHOT. -/
def execCounterSnapshot (h : Hdr) (code : Byte) : State → Host.Outcome State Fault Refusal :=
  cmdPlain h 0x0120 (pk code) fun d => checks [(!snapOk code.toNat, .badParam)] (fun d => okay (snapBlock code.toNat d)) d

end Sys2Proof.Machine
end

