-- ==== Sys2Proof/Machine/Shadow.lean ====
section
/-!
DEFINITION. Reads of multi-word values (R13): a read of the lowest word latches the others into the shadow of its access path and
advances SEQ.
-/
namespace Sys2Proof.Machine

/-- The shadow of an access path; the two local-bus windows share one (R507). -/
def shadowOf (d : Dev) : Path → Shadow
  | .pf0 => d.gbl.pf0.shadow | .pf1 => d.gbl.pf1.shadow | .lb => d.gbl.lbShadow | .lbs => d.gbl.lbShadow
/-- The shadow of an access path replaced. -/
def setShadow (p : Path) (x : Shadow) (d : Dev) : Dev :=
  match p with
  | .pf0 => { d with gbl := { d.gbl with pf0 := { d.gbl.pf0 with shadow := x } } }
  | .pf1 => { d with gbl := { d.gbl with pf1 := { d.gbl.pf1 with shadow := x } } }
  | .lb => { d with gbl := { d.gbl with lbShadow := x } }
  | .lbs => { d with gbl := { d.gbl with lbShadow := x } }
/-- The data of a register read. -/
def readAs (v : Nat) (d : Dev) : Dev := { d with gbl := { d.gbl with lastRead := BitVec.ofNat 32 v } }
/-- A read of the lowest word at an address: SEQ advances, the other words are latched, and the low word is returned; each is given as a
function of SEQ. -/
def latchRead (p : Path) (addr : Nat) (low : Nat → Nat) (more : Nat → List (Nat × Nat)) (d : Dev) : Dev :=
  let s := shadowOf d p
  let n := mget 0 s.seq addr + 1
  let words := (more n.toNat).foldl (fun m e => mput 0 m e.1 (BitVec.ofNat 32 e.2)) s.words
  readAs (low n.toNat) (setShadow p { seq := mput 0 s.seq addr n, words := words } d)
/-- The two words of a 48-bit counter (R12). -/
def counterRead (p : Path) (addr : Nat) (c : W48) (d : Dev) : Dev :=
  latchRead p addr (fun n => c.toNat % 2 ^ 24 * 256 + n) (fun n => [(addr + 4, n * 2 ^ 24 + c.toNat / 2 ^ 24)]) d
/-- A word of a shadow; 0 before the first read of its low word on the path. -/
def shadowRead (p : Path) (addr : Nat) (d : Dev) : Dev := readAs (mget 0 (shadowOf d p).words addr).toNat d

end Sys2Proof.Machine
end

