-- ==== Sys2Proof/Machine/Lch.lean ====
section
/-!
DEFINITION. The launch table and the EVENT pins (chapter 11, R320 to R335).
-/
namespace Sys2Proof.Machine

/-! ### Entries and their instants (R320, R321) -/

/-- An entry replaced. -/
def setEntry (i : Nat) (e : LchEntry) (d : Dev) : Dev := { d with lch := { d.lch with entries := mset d.lch.entries i e } }
/-- PENDING or ARMED. -/
def LchEntry.filed (e : LchEntry) : Bool := decide (e.status = .pending) || decide (e.status = .armed)
/-- PENDING or ARMED with an instant still to come: one whose frame is held has executed (R325). -/
def LchEntry.due (e : LchEntry) : Bool := e.filed && !e.held
/-- Entries filed for a tick. -/
def filedIn (d : Dev) (sec : W48) (tick : Nat) : Nat :=
  (d.lch.entries.filter fun e => e.2.due && e.2.sec == sec && e.2.tick == tick).length
/-- The length of a tick in ns (R2). -/
def tickLen (k : Nat) : Nat := tickStartNs (k + 1) - tickStartNs k
/-- The code of a status (Table 11-3). -/
def lchCode : LchStatus → Nat
  | .none => 0 | .pending => 1 | .armed => 2 | .done => 3 | .delayed => 4 | .lateDone => 5 | .missed => 6 | .notSync => 7
  | .failed => 8 | .cancelled => 9 | .suppressed => 10
/-- The entry of a Table 11-1 block. -/
def lchEntryOf (b : Bytes) : LchEntry :=
  let fl := leAt b 13 1
  { sec := BitVec.ofNat 48 (leAt b 0 6), tick := leAt b 6 2, offset := leAt b 8 4, action := leAt b 12 1, syncReq := bit fl 0,
    lateRun := bit fl 1, report := bit fl 2, count := leAt b 14 2, period := leAt b 16 4, params := cut b 20 12 }
/-- A byte of PARAMS, numbered as in Table 11-2. -/
def LchEntry.par (e : LchEntry) (at_ len : Nat) : Nat := leAt e.params (at_ - 20) len
/-- The PARAMS of an entry are outside Table 11-2. -/
def lchParamsBad (e : LchEntry) : Bool :=
  let zeroFrom (k : Nat) : Bool := allZero (e.params.drop (k - 20))
  match e.action with
  | 1 => 11 < e.par 20 1 || 1023 < e.par 21 2 || !zeroFrom 23
  | 2 => 7 < e.par 20 1 || 3 < e.par 21 1 || e.par 22 2 != 0 || !zeroFrom 28 ||
      (if e.par 21 1 = 3 then e.par 24 4 < 10 || 1000000000 < e.par 24 4 else e.par 24 4 != 0)
  | 3 => 15 < e.par 20 1 || 1 < e.par 21 1 || !zeroFrom 22
  | 4 => 31 < e.par 20 1 || !zeroFrom 21
  | 5 => !snapOk (e.par 20 1) || !zeroFrom 21
  | 6 => e.offset != 0 || e.period != 0 || !zeroFrom 22
  | 7 => e.offset != 0 || !zeroFrom 21
  | _ => true
/-- The fields of an entry are outside Tables 11-1 and 11-2; OFFSET fits every tick that an occurrence lands on (R328): the lengths of
ticks recur after nine. -/
def lchBad (b : Bytes) : Bool :=
  let e := lchEntryOf b
  let lands := (List.range (if e.period = 0 then 1 else if e.count = 0 then 9 else min 9 (e.count + 1))).map fun j => (e.tick + j * e.period) % 3600
  3599 < e.tick || !(lands.all fun k => e.offset < tickLen k) || 7 < leAt b 13 1 || e.period = 1 || 311040000 < e.period || lchParamsBad e
/-- The counter's tick, as an ordinal. -/
def nowOrd (d : Dev) : Nat := tickOrd d.tod.sec (tickOfNs d.tod.ns.toNat)
/-- LCH_WRITE (R321). -/
def execLchWrite (h : Hdr) (index : W16) (entry : Bytes) : State → Host.Outcome State Fault Refusal :=
  cmdPlain h 0x0801 (pk index ++ cut entry 0 32) fun d =>
    let b := cut entry 0 32
    let e := lchEntryOf b
    let i := index.toNat
    if 16383 < i || lchBad b then reject .badParam d
    else if tickOrd e.sec e.tick < nowOrd d + 2 then (d, some (.badParam, [1]))
    else checks [((mfind d.lch.entries i).any LchEntry.filed, .busy), (256 ≤ filedIn d e.sec e.tick, .noResource),
        (e.action = 6 && switchConflict (BitVec.ofNat 16 (e.par 20 2)) e.sec e.tick d, .generationConflict)] (fun d =>
      let d := { d with lch := { d.lch with delayed := d.lch.delayed.map fun y => if y.entry = i then { y with own := false } else y } }
      let d := bump (setEntry i e d) 0x11 0
      okay (if e.action = 6 then startSwitch (BitVec.ofNat 16 (e.par 20 2)) e.sec e.tick (some i) d else d)) d
/-- LCH_CANCEL (R329). -/
def execLchCancel (h : Hdr) (index : W16) : State → Host.Outcome State Fault Refusal :=
  cmdPlain h 0x0802 (pk index) fun d => checks [(16383 < index.toNat, .badParam)] (fun d =>
    let i := index.toNat
    match mfind d.lch.entries i with
    | none => reject .nothingToAbort d
    | some e =>
      if e.action = 6 then (if e.filed && d.clk.pending.any (fun s => s.entry == some i) then cancelSwitch d else reject .nothingToAbort d)
      else match e.status with
        | .pending => okay (cancelEntry i d)
        | .armed => reject .nothingToAbort (if e.period = 0 then d else setEntry i { e with ending := true } d)
        | _ => reject .nothingToAbort d) d
/-- LCH_STATUS (log entry 11): status, cause, next instant, repetitions run (the occurrences after the first) and last actual time. -/
def execLchStatus (h : Hdr) (index : W16) : State → Host.Outcome State Fault Refusal :=
  cmdPlain h 0x0803 (pk index) fun d => checks [(16383 < index.toNat, .badParam)] (fun d =>
    okayWith (match mfind d.lch.entries index.toNat with
      | none => List.replicate 28 0
      | some e => leBytes 1 (lchCode e.status) ++ leBytes 1 e.cause ++ leBytes 6 e.sec.toNat ++ leBytes 2 e.tick ++ leBytes 4 e.offset ++
          leBytes 4 (e.runs - 1) ++ leBytes 6 e.last.1.toNat ++ leBytes 4 e.last.2.toNat) d) d
/-- LCH_FRAME_LOAD (R326). -/
def execLchFrameLoad (h : Hdr) (buffer : W16) (len : W16) (addr : W64) (data : Bytes) (readOk : Bool) :
    State → Host.Outcome State Fault Refusal :=
  cmd h 0x0804 (pk buffer ++ pk len ++ pk addr) true fun d =>
    let used := d.lch.entries.any fun e => decide (e.2.status = .armed) && e.2.action == 1 && e.2.par 21 2 == buffer.toNat
    checks [(1023 < buffer.toNat || len.toNat < 60 || 2044 < len.toNat, .badParam), (used, .busy), (!readOk, .internalFault)] (fun d =>
      okay { d with lch := { d.lch with buffers := mset d.lch.buffers buffer.toNat (cut data 0 len.toNat) } }) d

/-! ### Pins (R323, R333) -/

/-- An EVENT pin. -/
def eventPin (d : Dev) (n : Nat) : EventPin := mget {} d.lch.pins n
/-- An EVENT pin replaced. -/
def setEvent (n : Nat) (x : EventPin) (d : Dev) : Dev := { d with lch := { d.lch with pins := mput {} d.lch.pins n x } }
/-- The level of an EVENT output shown at its pin. -/
def showEvent (n : Nat) (d : Dev) : Dev :=
  let x := eventPin d n
  if decide (x.mode = .output) && drives d && !d.lch.frozen then emit (.pin 1 n (padLevel x.openDrain x.level)) d else d
/-- LCH_EVENT_CONFIG (R333): mode 0 off, 1 output, 2 input; drive 0 push-pull, 1 open-drain; active 0 low, 1 high; edges bit 0 rising,
bit 1 falling. -/
def execLchEventConfig (h : Hdr) (p : EventConfigP) : State → Host.Outcome State Fault Refusal :=
  cmdPlain h 0x0805 p.bytes fun d =>
    checks [(7 < p.pin.toNat || 2 < p.mode.toNat || 1 < p.drive.toNat || 1 < p.active.toNat || 3 < p.edges.toNat ||
      (p.mode = 2 && p.edges = 0), .badParam)] (fun d =>
      let n := p.pin.toNat
      let x : EventPin :=
        { mode := if p.mode = 0 then .off else if p.mode = 1 then .output else .input, openDrain := p.drive = 1, high := p.active = 1,
          edges := BitVec.ofNat 2 p.edges.toNat, level := if p.mode = 1 then p.active = 0 else false }
      let d := setEvent n x d
      okay (if p.mode = 1 then showEvent n d else emit (.pin 1 n none) d)) d
/-- EVENT_PULSE_END: time runs on to the end of the pin's pulse, and the pin returns to idle (R323). -/
def execEventPulseEnd (pin : Fin 8) : State → Host.Outcome State Fault Refusal := runLive fun d =>
  let x := eventPin d pin
  match x.pulseEnd with
  | none => d
  | some t => showEvent pin (setEvent pin { x with pulseEnd := none, level := !x.high } (bringTo d t))
/-- EVENT_INPUT_EDGE (R333): the edge is recorded where its direction is; every edge triggers captures (R342), and a rising one converter
groups (R375). -/
def execEventInputEdge (pin : Fin 8) (rise : Bool) : State → Host.Outcome State Fault Refusal := runLive fun d =>
  let n : Nat := pin
  let x := eventPin d n
  if !decide (x.mode = .input) then d
  else
    let d := setEvent n { x with level := rise } d
    let x := eventPin d n
    let d :=
      if !bit x.edges.toNat (if rise then 0 else 1) then d
      else if x.queue.length < 16 then bump (setEvent n { x with queue := x.queue ++ [{ rise := rise, ts := nowStamp d }] } d) 0x11 13
      else tally tallyLch (8 + n) 1 0 (setFlag 0x11 6 (bump (bump d 0x11 13) 0x11 14))
    let t := nowNs d
    let d := offerTrigger 3 (fun w => w.toNat = n) (some (edgeBit rise)) t (unskew d (48 + n) t) d
    if rise && engRuns d then auxEventEdge n d else d
/-- The oldest edge of a pin's queue as registers at a base address: reading removes it (R333). -/
def eventRead (p : Path) (n : Nat) (d : Dev) : Dev :=
  let x := eventPin d n
  let a := 0x140100 + 0x10 * n
  let e := x.queue.headD { rise := false, ts := {} }
  let d := setEvent n { x with queue := x.queue.drop 1 } d
  latchRead p a (fun s => e.ts.frac.toNat * 65536 + b2n e.rise * 8192 + x.queue.length * 256 + s)
    (fun s => [(a + 4, e.ts.ns.toNat), (a + 8, e.ts.sec.toNat % 2 ^ 32), (a + 12, s * 2 ^ 24 + e.ts.sec.toNat / 2 ^ 32)]) d
/-- LCH_EV_LO_READ; the register lies in the PF0 map only. -/
def execLchEvLoRead (path : Path) (pin : Fin 8) : State → Host.Outcome State Fault Refusal := runLive fun d =>
  if isSecure path then d else eventRead path pin d

/-! ### Completions (R332) -/

/-- The oldest completion as registers: reading removes it. -/
def doneRead (p : Path) (d : Dev) : Dev :=
  let e := d.lch.done.headD { entry := 0, cause := 0, status := .none, sec := 0, ns := 0 }
  let d := { d with lch := { d.lch with done := d.lch.done.drop 1 } }
  latchRead p 0x140010 (fun s => e.entry * 65536 + e.cause * 4096 + lchCode e.status * 256 + s)
    (fun s => [(0x140014, e.ns.toNat), (0x140018, e.sec.toNat % 2 ^ 32), (0x14001C, s * 2 ^ 24 + e.sec.toNat / 2 ^ 32)]) d
/-- LCH_DONE_0_READ; the register lies in the PF0 map only. -/
def execLchDone0Read (path : Path) : State → Host.Outcome State Fault Refusal := runLive fun d => if isSecure path then d else doneRead path d
/-- The counters, flags and summaries of an occurrence's status (R334, R335). -/
def countStatus (i : Nat) (st : LchStatus) (cause : Nat) (d : Dev) : Dev :=
  match st with
  | .done => bump d 0x11 1
  | .delayed => setFlag 0x11 3 (bump (bump d 0x11 1) 0x11 4)
  | .lateDone => bump (bump d 0x11 1) 0x11 5
  | .missed => tally tallyLch 0 1 i (setFlag 0x11 0 (bump d 0x11 6))
  | .notSync => tally tallyLch 2 1 i (setFlag 0x11 2 (bump d 0x11 7))
  | .failed => tally tallyLch 1 1 (i + cause * 65536) (setFlag 0x11 1 (bump d 0x11 8))
  | .suppressed => setFlag 0x11 7 (bump d 0x11 11)
  | _ => d
/-- A completion is posted where R332 asks for one. -/
def postDone (i : Nat) (st : LchStatus) (cause : Nat) (report : Bool) (ns : Nat) (d : Dev) : Dev :=
  let always := decide (st = .missed) || decide (st = .notSync) || decide (st = .failed)
  if !(always || report) then d
  else if 256 ≤ d.lch.done.length then tally tallyLch 3 1 0 (setFlag 0x11 5 (bump d 0x11 12))
  else
    let c : LchDone := { entry := i, cause := cause, status := st, sec := BitVec.ofNat 48 (ns / secNs), ns := BitVec.ofNat 32 (ns % secNs) }
    { d with lch := { d.lch with done := d.lch.done ++ [c] } }
/-- An occurrence ends: counters, completion. -/
def endOccurrence (i : Nat) (st : LchStatus) (cause : Nat) (report : Bool) (ns : Nat) (d : Dev) : Dev :=
  postDone i st cause report ns (countStatus i st cause d)
/-- The occurrence `k` periods on. -/
def LchEntry.later (e : LchEntry) (k : Nat) : LchEntry :=
  let o := tickOrd e.sec e.tick + k * e.period
  { e with sec := BitVec.ofNat 48 (o / 3600), tick := o % 3600 }
/-- A repetition is left to run (R328). -/
def LchEntry.goesOn (e : LchEntry) : Bool := e.period != 0 && !e.ending && (e.count = 0 || e.runs ≤ e.count)
/-- An occurrence is filed; one that finds its tick holding 256 entries is skipped with status MISSED (R328). At most 64 ticks can be so
full. -/
def fileAt (i : Nat) : Nat → LchEntry → Dev → Dev
  | 0, n, d => setEntry i n d
  | fuel + 1, n, d =>
    if filedIn d n.sec n.tick < 256 then setEntry i { n with status := .pending } d
    else
      let n := { n with runs := n.runs + 1, status := .missed, cause := 0 }
      let d := endOccurrence i .missed 0 n.report n.inst (setEntry i n d)
      if n.goesOn then fileAt i fuel (n.later 1) d else d
/-- A repeating entry is filed again at its next occurrence; any other one keeps its status. -/
def refile (i : Nat) (next : LchEntry → LchEntry) (e : LchEntry) (d : Dev) : Dev :=
  if e.goesOn then fileAt i 66 (next e) d else setEntry i e d
/-- An actual time in ns, kept. -/
def LchEntry.ranAt (e : LchEntry) (ns : Nat) : LchEntry := { e with last := (BitVec.ofNat 48 (ns / secNs), BitVec.ofNat 32 (ns % secNs)) }
/-- An occurrence of an entry has ended at an actual time: its status is kept, and a repeating entry is filed again. -/
def finishEntry (i : Nat) (e : LchEntry) (st : LchStatus) (cause ns : Nat) (next : LchEntry → LchEntry) (d : Dev) : Dev :=
  let e := { e.ranAt ns with status := st, cause := cause, runs := e.runs + 1 }
  refile i next e (endOccurrence i st cause e.report ns (setEntry i e d))
/-- The occurrence after an occurrence in time (R328). -/
def LchEntry.after (e : LchEntry) : LchEntry := e.later 1

/-! ### Execution (R322 to R331) -/

/-- A pin action is counted, and a coincidence with one that acted on the same pin at the same instant (R322). -/
def countAct (before : Option Nat) (e : LchEntry) (d : Dev) : Dev :=
  let d := bump d 0x11 3
  if before = some e.inst then setFlag 0x11 4 (bump d 0x11 10) else d
/-- No action is remembered on any pin: the counter has moved, and its instants are others. -/
def forgetActs (d : Dev) : Dev :=
  { d with lch := { d.lch with acts := [], pins := d.lch.pins.map fun x => (x.1, { x.2 with acted := none }) } }
/-- The status of an action that was carried out. -/
def ranAs (late : Bool) : LchStatus := if late then .lateDone else .done
/-- The unit is a standby: pin actions set state without driving, frames are not sent (R331). -/
def suppressed (d : Dev) : Bool := !drives d && !decide (d.hrd.role = .fenced)
/-- Action 2: the level, toggle or pulse of an EVENT pin; each but a pulse ends a pulse, and a pulse starts its width anew (R323). -/
def pinAction (e : LchEntry) (late : Bool) (d : Dev) : Dev × LchStatus × Nat :=
  let n := e.par 20 1
  let x := eventPin d n
  if !decide (x.mode = .output) then (d, .failed, 3)
  else
    let level := match e.par 21 1 with | 0 => !x.high | 1 => x.high | 2 => !x.level | _ => x.high
    let at_ := if late then nowNs d else e.inst
    let ends := if e.par 21 1 = 3 then some (at_ + e.par 24 4) else none
    let d := countAct x.acted e (setEvent n { x with level := level, pulseEnd := ends, acted := some e.inst } d)
    (showEvent n d, if suppressed d then .suppressed else ranAs late, 0)
/-- Action 3: an alarm pin's launch level (R309). -/
def alarmAction (e : LchEntry) (late : Bool) (d : Dev) : Dev × LchStatus × Nat :=
  let n := e.par 20 1
  let d := countAct (mfind d.lch.acts n) e { d with
    alm := { d.alm with launch := putBit d.alm.launch n (e.par 21 1 = 1) }
    lch := { d.lch with acts := mset d.lch.acts n e.inst } }
  (pinsFollow d, if suppressed d then .suppressed else ranAs late, 0)
/-- A launched frame goes out (R325): refused for size or link, or sent; one that MACsec cannot protect does not go out. -/
def launchSend (p : Nat) (b : Bytes) (d : Dev) : Dev × Option Nat :=
  let x := portOf d p
  let f : TxFrame := { bytes := b, kind := 3, source := 0, mark := none }
  if !portUp d p then (d, some 1)
  else if x.maxLen + 4 * (stripTags x (b.drop 12)).1 < b.length + 4 then (txSend p f d, some 2)
  else
    let ok := (macsecSeal d p b).isSome
    let till := opNs d + wireNs x (wireBytes d p b - 8)
    let d := txSend p f d
    if ok then (bump { d with lch := { d.lch with wire := mset d.lch.wire p till } } 0x11 2, none) else (d, some 1)
/-- An earlier launch holds the port: its frame is held, or is on the wire when the preamble must begin (R325). -/
def launchAhead (d : Dev) (p : Nat) : Bool :=
  (d.lch.delayed.any fun y => y.port == p) || (mfind d.lch.wire p).any fun t => decide (opNs d < t + wireNs (portOf d p) 8)
/-- Action 1: a frame; none where PAUSE, which is then counted (R86), or an earlier launch holds it. -/
def frameAction (i : Nat) (e : LchEntry) (late : Bool) (d : Dev) : Dev × Option (LchStatus × Nat) :=
  let p := e.par 20 1
  let x := portOf d p
  if !drives d then (d, some (.suppressed, 0))
  else if !portUp d p then (d, some (.failed, 1))
  else match mfind d.lch.buffers (e.par 21 2) with
    | none => (d, some (.failed, 6))
    | some b =>
      let paused := pauseLeft d x != 0
      if paused || launchAhead d p then
        let y : LchHeld := { entry := i, port := p, frame := b, late := late, report := e.report }
        let d := if paused then portCnt p 29 d else d
        ({ d with lch := { d.lch with delayed := d.lch.delayed ++ [y] } }, none)
      else
        let r := launchSend p b d
        (r.1, some (match r.2 with | some c => (.failed, c) | none => (ranAs late, 0)))
/-- What an entry's action does at its instant (Table 11-2, R331). -/
def runAction (i : Nat) (e : LchEntry) (late : Bool) (d : Dev) : Dev × Option (LchStatus × Nat) :=
  let dormant := decide (d.pwr.run = .dormant) || decide (d.pwr.run = .waking)
  if dormant && (e.action = 1 || e.action = 4 || e.action = 5 || e.action = 7) then (d, some (.failed, 4))
  else match e.action with
    | 1 => frameAction i e late d
    | 2 => let r := pinAction e late d; (r.1, some r.2)
    | 3 => let r := alarmAction e late d; (r.1, some r.2)
    | 4 => (capTrigger (e.par 20 1) 6 0xFF 0 e.inst e.inst d, some (ranAs late, 0))
    | 5 => (snapBlock (e.par 20 1) d, some (ranAs late, 0))
    | 7 => (meterLaunch (e.par 20 1) e.inst d, some (ranAs late, 0))
    | _ => (d, some (.done, 0))
/-- A repeating entry whose occurrence is held is filed again at once; any other one stays ARMED until its frame has gone out. -/
def holdEntry (i : Nat) (e : LchEntry) (next : LchEntry → LchEntry) (d : Dev) : Dev :=
  let e := { e with runs := e.runs + 1 }
  refile i next { e with status := .armed, held := !e.goesOn } d
/-- One occurrence of an entry (R322, R327); `next` is the occurrence after it. -/
def launchRun (i : Nat) (e : LchEntry) (late : Bool) (next : LchEntry → LchEntry) (d : Dev) : Dev :=
  if e.action != 6 && e.syncReq && notSync d then finishEntry i e .notSync 0 e.inst next d
  else match runAction i e late d with
    | (d, some (st, cause)) => finishEntry i e st cause (if e.action = 1 then nowNs d else e.inst) next d
    | (d, none) => holdEntry i e next d
/-- One occurrence of an entry that is due. -/
def launchDue (i : Nat) (d : Dev) : Dev :=
  match mfind d.lch.entries i with
  | some e => if e.due then launchRun i e false LchEntry.after d else d
  | none => d
/-- The entries due at an instant up to an index, ascending. -/
def dueUpTo (d : Dev) (i inst : Nat) : List Nat :=
  (List.range (i + 1)).filter fun k => (mfind d.lch.entries k).any fun e => e.due && e.inst == inst
/-- LAUNCH_EXECUTE: the instant of a PENDING or ARMED entry. Those of lower index that are due at the same instant execute before it
(R322, log entry 34). -/
def execLaunchExecute (entry : Fin 16384) : State → Host.Outcome State Fault Refusal := runLive fun d =>
  let i : Nat := entry
  match mfind d.lch.entries i with
  | none => d
  | some e => if e.due then (dueUpTo d i e.inst).foldl (fun d k => launchDue k d) (bringTo d e.inst) else d
/-- A held frame of an entry has gone out, or not: its occurrence ends. -/
def endHeld (y : LchHeld) (st : LchStatus) (cause : Nat) (d : Dev) : Dev :=
  let d := endOccurrence y.entry st cause y.report (nowNs d) d
  match if y.own then mfind d.lch.entries y.entry else none with
  | some e =>
    let e := e.ranAt (nowNs d)
    setEntry y.entry (if e.held then { e with status := st, cause := cause, held := false } else e) d
  | none => d
/-- LAUNCH_FRAME_DELAYED: the oldest held frame of a port goes out as soon as the port is free (R325); an earlier launched frame's end is
waited for. -/
def execLaunchFrameDelayed (port : Fin 12) : State → Host.Outcome State Fault Refusal := runLive fun d =>
  let p : Nat := port
  match d.lch.delayed.find? fun y => y.port == p with
  | none => d
  | some y =>
    if portUp d p && (pauseLeft d (portOf d p) != 0 || reservedFor d p y.frame) then d
    else
      let till := mget 0 d.lch.wire p
      let d := if portUp d p && opNs d < till then bringTo d (nowNs d + (till + wireNs (portOf d p) 8 - opNs d)) else d
      let r := launchSend p y.frame { d with lch := { d.lch with delayed := d.lch.delayed.eraseP fun y => y.port == p } }
      match r.2 with
      | some c => endHeld y .failed c r.1
      | none => endHeld y (if y.late then .lateDone else .delayed) 0 r.1
/-- At a tick start the PENDING entries of the next tick become ARMED (R322). -/
def lchArm (ord : Nat) (d : Dev) : Dev :=
  let arm (e : LchEntry) : LchEntry :=
    if decide (e.status = .pending) && tickOrd e.sec e.tick ≤ ord + 1 then { e with status := .armed } else e
  { d with lch := { d.lch with entries := d.lch.entries.map fun e => (e.1, arm e.2) } }
/-- The first occurrence of a repeating entry at or after an instant (R330). -/
def LchEntry.resumeAt (e : LchEntry) (ns : Nat) : LchEntry :=
  let gap := tickOrd (BitVec.ofNat 48 (ns / secNs)) (tickOfNs (ns % secNs)) - tickOrd e.sec e.tick
  let k := max 1 (ceilDiv gap e.period)
  if ns ≤ (e.later k).inst then e.later k else e.later (k + 1)
/-- Insertion of an entry by instant, then index. -/
def byInstant (x : Nat × LchEntry) : List (Nat × LchEntry) → List (Nat × LchEntry)
  | [] => [x]
  | y :: t => if x.2.inst < y.2.inst || (x.2.inst = y.2.inst && x.1 < y.1) then x :: y :: t else y :: byInstant x t
/-- TIME_SET carried the counter forward (R330): the entries passed execute late or are missed, and repeating ones resume at or after
the new value. -/
def lchPassed (d : Dev) : Dev :=
  let now := nowNs d
  let passed := (d.lch.entries.filter fun e => e.2.due && e.2.inst < now).foldl (fun l e => byInstant e l) []
  let next (e : LchEntry) : LchEntry := e.resumeAt now
  passed.foldl (fun d x =>
    if x.2.lateRun && x.2.action != 6 then launchRun x.1 x.2 true next d else finishEntry x.1 x.2 .missed 0 x.2.inst next d) d

end Sys2Proof.Machine
end

