-- ==== Sys2Proof/Machine/Lmf.lean ====
section
/-!
DEFINITION. The local measurement front end (chapter 13, R357 to R372): channels, faults, samples, the local PMU and their commands. The
filter chain itself is analogue to this model: a sample's value is an operand of LOCAL_SAMPLE (log entry 23).
-/
namespace Sys2Proof.Machine

/-! ### Channels (R360 to R368) -/

/-- A channel replaced. -/
def setChan (k : Nat) (x : LmfChan) (d : Dev) : Dev := { d with lmf := { d.lmf with chans := mput {} d.lmf.chans k x } }
/-- R of a circuit; 0 before the first LMF_CHAN. -/
def ratioOf (d : Dev) (c : Nat) : Nat := mget 0 d.lmf.r c
/-- G of a channel in ps (R364): f_mod is 500 MHz / D; 6 / 28,800 s is 208,333,333.3 ps. -/
def groupDelay (div ratio : Nat) (median : Bool) : Nat :=
  3000 * div * (ratio - 1) + 2000 * (2 * b2n median + 7) * div * ratio + 208333333
/-- LMF_GD_k: 0 while the channel is disabled. -/
def delayOf (d : Dev) (k : Nat) : Nat :=
  let x := chanOf d k
  if x.enabled then groupDelay d.lmf.d (ratioOf d (k / 6)) x.median else 0
/-- Where SETTLING of a channel that restarts now ends, in operating time: after G + 0.5 ms (R367). -/
def settleEnd (d : Dev) (k : Nat) : Nat := opNs d + ceilDiv (delayOf d k) 1000 + 500000
/-- Channels restart (R367) for a cause: those enabled among `ks`; a channel in FAULT stays there. -/
def restartChans (ks : List Nat) (cause : Nat) (d : Dev) : Dev :=
  let ks := ks.filter fun k => (chanOf d k).enabled
  if ks.isEmpty then d
  else
    let mask := ks.foldl (fun m k => m + 2 ^ k) 0
    let d := ks.foldl (fun d k => let x := chanOf d k; setChan k { x with settling := !x.fault, settleOp := settleEnd d k } d) d
    logEv 0x0E02 (mask % 2 ^ 32) (mask / 2 ^ 32) cause (setFlag 0x0E 2 (bumpN d 0x0E 4 ks.length))
/-- Every channel restarts, and the sample instants are found anew (R367: TIME_SET and the exit from DORMANT). -/
def restartAll (cause : Nat) (d : Dev) : Dev :=
  restartChans (List.range 48) cause { d with lmf := { d.lmf with sample := none, windows := [] } }
/-- MOD_FAULT (R368). -/
def execModFault (chan : Fin 48) (level : Bool) : State → Host.Outcome State Fault Refusal := runEng fun d =>
  let x := chanOf d chan
  if !x.enabled || x.fault then d
  else logEv 0x0E01 chan (b2n level) 0 (setFlag 0x0E 0 (bump (setChan chan { x with fault := true, settling := false, faultAt := some (nowStamp d) } d)
    0x0E 3))
/-- MOD_FAULT_CLEAR: the channel leaves FAULT, and settles. -/
def execModFaultClear (chan : Fin 48) : State → Host.Outcome State Fault Refusal := runEng fun d =>
  let x := chanOf d chan
  if x.fault then restartChans [chan] 3 (setChan chan { x with fault := false } d) else d
/-- A channel's SETTLING ends. -/
def chanSettle (k : Nat) (d : Dev) : Dev := setChan k { chanOf d k with settling := false } d
/-- Channels whose settling time has passed are settled before the next sample. -/
def settlePassed (d : Dev) : Dev :=
  ((List.range 48).filter fun k => let x := chanOf d k; x.settling && x.settleOp ≤ opNs d).foldl (fun d k => chanSettle k d) d
/-- CHANNEL_SETTLED: G + 0.5 ms has passed since the restart. -/
def execChannelSettled (chan : Fin 48) : State → Host.Outcome State Fault Refusal := runEng fun d =>
  let x := chanOf d chan
  if x.settling then chanSettle chan (waitUntil d x.settleOp) else d

/-! ### Samples (R361 to R366) -/

/-- The value of a channel's sample: saturated, 0 in FAULT or SETTLING. -/
def sampleValue (x : LmfChan) (v : BitVec 32) : BitVec 32 :=
  if !x.enabled || x.fault || x.settling then 0 else if v = 0x80000000 then 0x80000001 else v
/-- The ordinal of the sample instant that follows the last one; the first at or after the counter where none is known. -/
def nextSample (d : Dev) : Nat :=
  match d.lmf.sample with
  | some q => q + 1
  | none => ceilDiv (9 * nowNs d) 312500
/-- The samples that the PMU of a circuit keeps: the longest window, and what a report may lag behind. -/
def windowKeep : Nat := 24000
/-- One circuit's samples enter the window that its PMU takes; a circuit without an enabled channel has none. -/
def pmuPush (q c : Nat) (vals : List (BitVec 32)) (ovr : List Bool) (d : Dev) : Dev :=
  let ks := rangeFrom (6 * c) 6
  if ks.any fun k => (chanOf d k).enabled then
    let bad (k : Nat) : Bool := let x := chanOf d k; !x.enabled || x.fault || x.settling
    let p : LmfPoint := { ord := q, vals := ks.map fun k => vals.getD k 0, fs := ks.map fun k => (chanOf d k).fs, bad := ks.map bad, ovr := ks.map fun k => ovr.getD k false,
                          qual := d.tod.qualCode }
    { d with lmf := { d.lmf with windows := mset d.lmf.windows c ((p :: mget [] d.lmf.windows c).take windowKeep) } }
  else d
/-- After a move of the counter or a pause of all channels, reports begin anew at the first sample. -/
def pmuAnew (q : Nat) (d : Dev) : Dev :=
  let runs := ((List.range 8).filter fun c => (pmuOf d c).enabled).foldl (fun m c => mset m c [{ set := pmuOf d c, next := ceilDiv q 8 }]) []
  { d with lmf := { d.lmf with pmuRuns := runs, windows := [] } }
/-- Sample q of the enabled channels: corrected values, overrange counts, metering, capture and the PMU windows. -/
def takeSample (q : Nat) (on : List Nat) (samples : List ChanSample) (d : Dev) : Dev :=
  let get (k : Nat) : ChanSample := samples.getD k { value := 0, ovr := false, repl := 0 }
  let vals := (List.range 48).map fun k => sampleValue (chanOf d k) (get k).value
  let isOver (k : Nat) : Bool := let x := chanOf d k; x.enabled && !x.fault && !x.settling && (get k).ovr
  let over_ := (List.range 48).map isOver
  let repl := (on.map fun k => if (chanOf d k).median then (get k).repl else 0).sum
  let nOver := (over_.filter id).length
  let d := { d with lmf := { d.lmf with sample := some q } }
  let d := bumpN (bumpN (bumpN d 0x0E 0 on.length) 0x0E 1 repl) 0x0E 2 nOver
  let d := if nOver = 0 then d else setFlag 0x0E 1 d
  let d := (List.range 8).foldl (fun d c => meterSample q c vals over_ d) d
  let bad := on.filter fun k => (chanOf d k).fault || (chanOf d k).settling || over_.getD k false
  let d := capLocal q vals bad d
  (List.range 8).foldl (fun d c => pmuPush q c vals over_ d) d
/-- LOCAL_SAMPLE: one sample instant of every enabled channel reaches metering, capture and the PMU (R363, R366). -/
def execLocalSample (samples : List ChanSample) : State → Host.Outcome State Fault Refusal := runEng fun d =>
  let q := nextSample d
  let d := settlePassed (bringTo d (q * 312500 / 9))
  let d := if d.lmf.sample.isNone then pmuAnew q d else d
  let on := (List.range 48).filter fun k => (chanOf d k).enabled
  if on.isEmpty then d else takeSample q on samples d

/-! ### The local PMU (R369 to R371) -/

/-- Samples of half a window (Table 13-4). -/
def halfWindow (x : LmfPmu) : Nat := if x.mClass then 14400 * 7 / x.rate else if x.f60 then 480 else 576
/-- The next report instant of settings at or after a tick, where they have one. -/
def runInstant (r : PmuRun) : Option Nat :=
  let per := periodTicks r.set.rate
  let t := ceilDiv r.next per * per
  if r.set.enabled && r.stop.all fun e => decide (t < e) then some t else none
/-- The report that a circuit's PMU owes: the settings and the instant, an ordinal tick, whose window is complete at sample `q`. -/
def pmuDue (d : Dev) (c q : Nat) : Option (PmuRun × Nat) :=
  (mget [] d.lmf.pmuRuns c).findSome? fun r =>
    (runInstant r).bind fun t => if 8 * t + halfWindow r.set ≤ q then some (r, t) else none
/-- A report has been made: its settings go on from the next tick, and settings without a report to come are dropped. -/
def pmuDone (c : Nat) (r : PmuRun) (t : Nat) (d : Dev) : Dev :=
  let l := (mget [] d.lmf.pmuRuns c).map fun x => if x = r then { x with next := t + 1 } else x
  { d with lmf := { d.lmf with pmuRuns := mset d.lmf.pmuRuns c (l.filter fun x => (runInstant x).isSome) } }
/-- New settings of a circuit's PMU govern its instants from a tick on (R369). -/
def pmuChange (c : Nat) (x : LmfPmu) (from_ : Nat) (d : Dev) : Dev :=
  let l := (mget [] d.lmf.pmuRuns c).map fun r => { r with stop := some ((r.stop.map (min from_)).getD from_) }
  { d with lmf := { d.lmf with
    pmus := mput {} d.lmf.pmus c x
    pmuRuns := mset d.lmf.pmuRuns c ((l ++ [({ set := x, next := from_ } : PmuRun)]).filter fun r => (runInstant r).isSome) } }
/-- Why a phasor of a channel is invalid over a window, 0 if it is not. -/
def pmuWhy (w : List LmfPoint) (full : Bool) (i : Nat) : Nat :=
  if !full || w.any (fun p => p.bad.getD i true) then 2 else if w.any fun p => p.ovr.getD i false then 4 else 0
/-- The thirteen values after STAT with their reasons (R371). -/
def pmuValues (est : List W64) (why : List Nat) (fs : W32) : List W64 :=
  let a (i : Nat) : Nat := why.getD i 2
  let volt := max (a 0) (max (a 1) (a 2))
  let cur := max (a 3) (max (a 4) (a 5))
  let v1 := phMag (est.getD 6 0)
  let low := f64Lt (f64Mul (f64Int 8) (f64Mul v1 v1)) (f64Mul 0x3F647AE147AE147B (f64Mul (f32To64 fs) (f32To64 fs)))
  let val (i w : Nat) : W64 := if w = 0 then est.getD i 0 else invalidVal w
  ((List.range 6).map fun i => val i (a i)) ++ ((List.range 3).map fun i => val (6 + i) volt) ++
    ((List.range 3).map fun i => val (9 + i) cur) ++ ((List.range 2).map fun i => val (12 + i) (b2n (volt != 0 || low)))
/-- STAT of a report (R371), by CLK_QUAL at its instant. -/
def pmuStat (d : Dev) (c q : Nat) (bad : Bool) : Nat :=
  let fresh := (mfind d.lmf.changed c).any fun o => optSince d o < 60000
  b2n bad * 2 ^ 14 + bits q 7 1 * 2 ^ 13 + b2n fresh * 2 ^ 10 + bits q 4 3 * 2 ^ 6 + bits q 8 2 * 2 ^ 4
/-- The report of a circuit under settings for the instant t: its estimate enters the stream; one that finds no room is lost and flagged. -/
def pmuReport (c : Nat) (x : LmfPmu) (t : Nat) (d : Dev) : Dev :=
  let half := halfWindow x
  let lo := 8 * t - half
  let w := ((mget [] d.lmf.windows c).filter fun p => lo ≤ p.ord && p.ord ≤ 8 * t + half).reverse
  let ks := rangeFrom (6 * c) 6
  let fs := ks.map fun k => (chanOf d k).fs
  let why := (List.range 6).map (pmuWhy w (decide (w.length = 2 * half + 1)))
  let near := ((mget [] d.lmf.windows c).filter fun p => lo ≤ p.ord + 288 && p.ord ≤ 8 * t + half + 288).reverse
  let ws := (List.range 6).map fun i => near.map fun p => ((p.ord : Int) - (8 * t : Nat), primary (p.fs.getD i 0) (p.vals.getD i 0))
  let est := pmuEstimate x.mClass (if x.f60 then 60 else 50) x.rate (8 * t % 28800) ws
  let vals := pmuValues est why (fs.headD 0)
  let bad := vals.any isInvalid
  let qual := ((w.find? fun p => p.ord = 8 * t).map LmfPoint.qual).getD d.tod.qualCode
  let d := bump d 0x0E 5
  let d := if bad then bump d 0x0E 6 else d
  let sent := enterInternal x.stream (BitVec.ofNat 48 (t / 3600)) (BitVec.ofNat 32 (tickStartNs (t % 3600)))
    (BitVec.ofNat 64 (pmuStat d c qual.toNat bad) :: vals) d
  if sent.1 then sent.2 else setFlag 0x0E 3 (bump sent.2 0x0E 7)
/-- LOCAL_PMU_REPORT: the report of the next instant whose window is complete. -/
def execLocalPmuReport (circuit : Fin 8) : State → Host.Outcome State Fault Refusal := runEng fun d =>
  let c : Nat := circuit
  match d.lmf.sample.bind (pmuDue d c) with
  | none => d
  | some e => pmuReport c e.1.set e.2 (pmuDone c e.1 e.2 d)

/-! ### Commands (Table 13-11) -/

/-- The ordinal of the tick after the one in progress. -/
def nextTick (d : Dev) : Nat := tickOrd d.tod.sec (tickOfNs d.tod.ns.toNat) + 1
/-- A circuit's settings were changed by a command (R371). -/
def noteChange (c : Nat) (d : Dev) : Dev := { d with lmf := { d.lmf with changed := mset d.lmf.changed c d.log.opt } }
/-- LMF_CLOCK (R358). -/
def execLmfClock (h : Hdr) (p : LmfClockP) : State → Host.Outcome State Fault Refusal :=
  cmdPlain h 0x0701 p.bytes fun d => checks [(p.d.toNat < 20 || 50 < p.d.toNat, .badParam)] (fun d =>
    let was := d.lmf.d
    let d := { d with lmf := { d.lmf with d := p.d.toNat, clkOn := p.enable, edges := p.edges } }
    okay (if was = p.d.toNat then d else restartChans (List.range 48) 0 d)) d
/-- f_i = f_mod / R lies between 115.2 kHz and 781.25 kHz (R360). -/
def modFits (div ratio : Nat) : Bool := div != 0 && 115200 * (div * ratio) ≤ 500000000 && 500000000 * 100 ≤ 78125000 * (div * ratio)
/-- A channel set up: it, or its circuit where the ratio changes, starts anew; the first of all channels finds the sample instants anew, since
those passed meanwhile gave no sample (R5). -/
def setupChan (p : LmfChanP) (d : Dev) : Dev :=
  let k := p.chan.toNat
  let pd := p.pd.toInt
  let c := k / 6
  let x := chanOf d k
  let on := p.enable = 1
  let newR := ratioOf d c != p.r.toNat
  let idle := (List.range 48).all fun j => !(chanOf d j).enabled
  let y : LmfChan := { x with enabled := on, median := p.median = 1, pd := pd, fs := p.fs, fault := x.fault && on, settling := x.settling && on }
  let d := setChan k y { d with lmf := { d.lmf with r := mset d.lmf.r c p.r.toNat, sample := if idle then none else d.lmf.sample } }
  let d := if x.pd = pd then d else bump d 0x0E 8
  let d := if newR then restartChans (rangeFrom (6 * c) 6) 0 d
    else if on && (!x.enabled || x.median != y.median) then restartChans [k] 0 d else d
  if newR || y != x then noteChange c d else d
/-- LMF_CHAN (R360, R361, R365). -/
def execLmfChan (h : Hdr) (p : LmfChanP) : State → Host.Outcome State Fault Refusal :=
  cmdPlain h 0x0702 p.bytes fun d =>
    let pd := p.pd.toInt
    checks [(47 < p.chan.toNat || 1 < p.enable.toNat || !([32, 64, 128].contains p.r.toNat) || 1 < p.median.toNat || pd < -200000 ||
      200000 < pd || !f32Fin p.fs || !f32Lt 0 p.fs || !modFits d.lmf.d p.r.toNat, .badParam)]
      (fun d => okayWith (leBytes 4 (groupDelay d.lmf.d p.r.toNat (p.median = 1))) (setupChan p d)) d
/-- LMF_PMU (R369, R370): class 0 P, 1 M; F_nom 50 or 60. -/
def execLmfPmu (h : Hdr) (p : LmfPmuP) : State → Host.Outcome State Fault Refusal :=
  cmdPlain h 0x0703 p.bytes fun d => checks [(7 < p.circuit.toNat || 1 < p.enable.toNat || !rates.contains p.rate.toNat || 1 < p.cls.toNat ||
      (p.fnom != 50 && p.fnom != 60) || 262143 < p.stream.toNat || (p.cls = 1 && (p.rate.toNat < 10 || 60 < p.rate.toNat)), .badParam)] (fun d =>
    let c := p.circuit.toNat
    let x : LmfPmu := { enabled := p.enable = 1, rate := p.rate.toNat, mClass := p.cls = 1, f60 := p.fnom = 60, stream := p.stream.toNat }
    okay (if pmuOf d c = x then d else noteChange c (pmuChange c x (nextTick d) d))) d
/-- LMF_STATUS: per channel G, PD, state (bit 0 enabled, 1 SETTLING, 2 FAULT) and fault time; then the PMU's settings (log entry 11). -/
def execLmfStatus (h : Hdr) (circuit : Byte) : State → Host.Outcome State Fault Refusal :=
  cmdPlain h 0x0704 (pk circuit) fun d => checks [(7 < circuit.toNat, .badParam)] (fun d =>
    let c := circuit.toNat
    let one (k : Nat) : Bytes :=
      let x := chanOf d k
      leBytes 4 (delayOf d k) ++ leBytes 4 (unsigned 32 x.pd) ++ leBytes 1 (b2n x.enabled + 2 * b2n x.settling + 4 * b2n x.fault) ++
        (x.faultAt.getD {}).bytes
    let m := pmuOf d c
    okayWith (((rangeFrom (6 * c) 6).map one).flatten ++ leBytes 1 (b2n m.enabled) ++ leBytes 1 m.rate ++ leBytes 1 (b2n m.mClass) ++
      leBytes 1 (if m.f60 then 60 else 50) ++ leBytes 3 m.stream) d) d

end Sys2Proof.Machine
end

