-- ==== Sys2Proof/Machine/TodCmd.lean ====
section
/-!
DEFINITION. The meanings of the timebase's events and commands (chapter 2), but for those that set the counter (Timeset.lean).
-/
namespace Sys2Proof.Machine

/-! ### Second start (R54, R57, R63 to R67, R466) -/

/-- A new leap-second table, or an entry whose T is this second, takes effect (R67). -/
def applyLeap (d : Dev) : Dev :=
  let fresh := d.tod.leapNew.isSome
  let d := match d.tod.leapNew with
    | some l => { d with tod := { d.tod with leap := some l, leapNew := none } }
    | none => d
  match leapAt (leapTable d) d.tod.sec.toNat with
  | none => d
  | some e =>
    if fresh || (e.t = d.tod.sec && d.tod.leapSeen != some e.t) then
      logEv 0x0108 e.off (e.t.toNat % 2 ^ 32) 0 { d with tod := { d.tod with leapSeen := some e.t } }
    else d

/-- New parameters or a changeover re-base the schedule at this second start (R57). -/
def applyRebase (d : Dev) : Dev :=
  if d.tod.rebase then
    let u := (evalU d).getD d.tod.uH
    let sch := decide (d.tod.state = .holdover) || decide (d.tod.state = .freerun) || d.tod.acqHold
    { d with tod := { d.tod with
      params := d.tod.newParams.getD d.tod.params
      newParams := none
      oscUsed := d.tod.osc
      rebase := false
      uH := if sch then u else d.tod.uH
      baseAt := if sch then (d.tod.sec, d.tod.ns) else d.tod.baseAt } }
  else d

/-- U and every field derived from it (R54, R56), and the first passing of HOLD_SPEC in a holdover (R57). -/
def applyQuality (d : Dev) : Dev :=
  let u := evalU d
  let tSec := match d.tod.state with
    | .unset => 0
    | .locked => 0
    | .acquiring => if d.tod.acqHold then sinceBase d / secNs else 0
    | _ => sinceBase d / secNs
  let d := { d with tod := { d.tod with
    u := u
    qualU := BitVec.ofNat 32 (u.getD 0xFFFFFFFF)
    qualCode := BitVec.ofNat 32 (qualCodeOf d.tod u tSec)
    timeSrc := BitVec.ofNat 8 (timeSource d)
    hoSec := BitVec.ofNat 32 (min tSec 0xFFFFFFFF) } }
  match u with
  | some v =>
    if decide (d.tod.state = .holdover) && d.tod.params.holdSpec < v && !d.tod.holdFlagged then
      logEv 0x010A v 0 0 (setFlag 0x01 7 { d with tod := { d.tod with holdFlagged := true } })
    else d
  | none => d

/-- The unit's condition and role let the time outputs drive (R63, R477, Table 20-5). -/
def timeOutsAllowed (d : Dev) : Bool :=
  !d.pwr.held && !d.cmd.loader && !decide (d.pwr.run = .tampered) && !decide (d.hrd.role = .fenced) &&
    (!d.hrd.enabled || decide (d.hrd.role = .unpaired) || d.hrd.timeOutsOurs || d.hrd.timeOutStandby)

/-- A number laid at a position of a frame, least significant bit first. -/
def atPos (pos v : Nat) : Nat := v * 2 ^ pos

/-- A number of two decimal digits in BCD with one position between them: units at `pos`, tens at `pos + 5`. -/
def bcdAt (pos v : Nat) : Nat := atPos pos (v % 10) + atPos (pos + 5) (v / 10 % 10)

/-- The IRIG-B frame of the second that begins (R65, Table 2-11), position p in bit p. The places inside the ranges of Table 2-11, the sign
of the time offset and the parity are those of IRIG-B and IEEE 1344 (PRESUMED, log entry 10). -/
def irigFrame (d : Dev) : BitVec 100 :=
  let l := leapTable d
  let s := d.tod.sec.toNat
  let u := utcOf l s
  let base := (((if u.2 then u.1 - 1 else u.1 : Nat) : Int) + d.tod.irigLocal * 1800).toNat
  let sod := base % 86400
  let days := base / 86400
  let y := (dateOf days).1
  let day := days - daysOf y 1 1 + 1
  let sbs := if d.tod.irigB005 then 0 else sod + b2n u.2
  let f := leapFlags l s
  let pend := f.1 && (!f.2.2 || (leapChanges l).any fun e => e.2 && e.1 ≤ s + 59 && s + 1 ≤ e.1)
  let half := d.tod.irigLocal.natAbs
  let v := bcdAt 1 (sod % 60 + b2n u.2) + bcdAt 10 (sod / 60 % 60) + bcdAt 20 (sod / 3600) + bcdAt 30 day + atPos 40 (day / 100) +
    bcdAt 50 (y % 100) + atPos 60 (b2n pend) + atPos 61 (b2n (f.1 && f.2.2)) +
    atPos 64 (b2n (decide (0 < d.tod.irigLocal))) + atPos 65 (half / 2) + atPos 70 (half % 2) + atPos 71 (tqNow d)
  BitVec.ofNat 100 (v + atPos 75 ((popCount 75 v + b2n (Config.irigOdd ())) % 2) + atPos 76 (bits d.tod.qualCode.toNat 4 3) +
    atPos 80 (sbs % 512) + atPos 90 (sbs / 512))

/-- A UTC second starts at a TAI second (R69): its name differs from that of the second before. -/
def utcStart (l : List LeapEntry) (sec : Nat) : Bool := utcOf l sec != utcOf l (sec - 1)

/-- The instant of an output's edge for the second that begins: a positive offset moves it earlier (R63). -/
def edgeAt (d : Dev) (offset : Int) : Int := (instNs d.tod.sec 0 : Int) - offset

/-- The pulse of a PPS output: its rising edge, and the end of its width (R63, Table 2-10). -/
def ppsPulse (n : Nat) (d : Dev) : Dev :=
  let x := if n = 0 then d.tod.pps0 else d.tod.pps1
  if x.en && (!x.utc || utcStart (leapTable d) d.tod.sec.toNat) then
    let rise := edgeAt d x.offset
    let y := { x with high := true, fallAt := (rise + (x.width * 1000 : Nat)).toNat }
    emit (.ppsOut n rise) { d with tod := if n = 0 then { d.tod with pps0 := y } else { d.tod with pps1 := y } }
  else d

/-- The defined edges of a second start (R63). -/
def timeEdges (d : Dev) : Dev :=
  let on := !unsetTime d && timeOutsAllowed d
  let d := { d with tod := { d.tod with driving := on } }
  if on then
    let d := ppsPulse 1 (ppsPulse 0 d)
    let d := if d.tod.ref10En then emit (.ref10Out (edgeAt d d.tod.ref10Off)) d else d
    if d.tod.irigEn && utcStart (leapTable d) d.tod.sec.toNat then emit (.irig (irigFrame d) (edgeAt d d.tod.irigOff)) d else d
  else d

/-- LOG_TIME_ANCHOR at a qualifying second start (R466). -/
def timeAnchor (d : Dev) : Dev :=
  let due := match d.log.anchorAt with
    | none => true
    | some t => d.log.anchorDue || 86400000 ≤ optSince d t
  if !unsetTime d && due then
    let st := match d.tod.state with
      | .unset => 0
      | .freerun => 1
      | .acquiring => 2
      | .locked => 3
      | .holdover => 4
    logEv 0x1301 (d.tod.sec.toNat % 2 ^ 32) (d.tod.sec.toNat / 2 ^ 32 + st * 65536) (d.tod.u.getD 0)
      { d with log := { d.log with anchorAt := some d.log.opt, anchorDue := false } }
  else d

/-- The time outputs change hands at the first second start at or after a switch-over (R490). -/
def handOverOuts (d : Dev) : Dev :=
  if d.hrd.timeOutsDue then
    { d with hrd := { d.hrd with timeOutsDue := false, timeOutsOurs := decide (d.hrd.role = .active) } }
  else d

/-- A TAI second start: the next one, or the one just reached. -/
def secondStart (d : Dev) : Dev :=
  let s := if d.tod.secDone = some d.tod.sec then d.tod.sec.toNat + 1 else d.tod.sec.toNat
  let d := bringTo d (s * secNs)
  let d := applyQuality (applyRebase (applyLeap d))
  timeAnchor (timeEdges (handOverOuts { d with tod := { d.tod with secDone := some d.tod.sec } }))

/-- SECOND_START. -/
def execSecondStart : State → Host.Outcome State Fault Refusal := runLive secondStart

/-- The characters of a decimal number with at least `w` digits. -/
def decBytes (w n : Nat) : Bytes :=
  let s := (Nat.toDigits 10 n).map fun c => BitVec.ofNat 8 c.toNat
  List.replicate (w - s.length) 0x30 ++ s

/-- The characters of a text. -/
def ascii (s : String) : Bytes := s.toList.map fun c => BitVec.ofNat 8 c.toNat

/-- A sentence with its checksum and line end: `$`, the body, `*`, and two hexadecimal digits. -/
def nmea (body : Bytes) : Bytes :=
  let c := body.foldl (fun a b => a ^^^ b) 0
  let hex (n : Nat) : Byte := BitVec.ofNat 8 (if n < 10 then 0x30 + n else 0x37 + n)
  [0x24] ++ body ++ [0x2A, hex (c.toNat / 16), hex (c.toNat % 16), 0x0D, 0x0A]

/-- The code of the time state (Table 2-2). -/
def stateCode (t : TimeState) : Nat :=
  match t with
  | .unset => 0 | .freerun => 1 | .acquiring => 2 | .locked => 3 | .holdover => 4

/-- The ZDA sentence of the present UTC second and the $PWLST sentence (R66). Its talker GP, the fraction .00 and the local zone 00,00 are
NMEA 0183's usual ones (PRESUMED, log entry 33). -/
def serialText (d : Dev) : Bytes :=
  let u := utcOf (leapTable d) d.tod.sec.toNat
  let base := if u.2 then u.1 - 1 else u.1
  let sod := base % 86400
  let dt := dateOf (base / 86400)
  nmea (ascii "GPZDA," ++ decBytes 2 (sod / 3600) ++ decBytes 2 (sod / 60 % 60) ++ decBytes 2 (sod % 60 + b2n u.2) ++
    ascii ".00," ++ decBytes 2 dt.2.2 ++ ascii "," ++ decBytes 2 dt.2.1 ++ ascii "," ++ decBytes 4 dt.1 ++ ascii ",00,00") ++
  nmea (ascii "PWLST," ++ decBytes 1 (stateCode d.tod.state) ++ ascii "," ++
    decBytes 1 (if unsetTime d then 4294967295 else d.tod.qualU.toNat) ++ ascii "," ++ decBytes 1 (utcOff d))

/-- TOD_SER_OUT_SENTENCE: sent 20 ms after the second start, where the output drives (R66). -/
def execTodSerOutSentence : State → Host.Outcome State Fault Refusal := runLive fun d =>
  if d.tod.serOutEn && d.tod.driving && timeOutsAllowed d then
    let d := bringTo d (instNs d.tod.sec 20000000)
    emit (.serial (serialText d)) d
  else d

/-- PPS_OUT_PULSE_END: the pulse's width has passed (R63). -/
def execPpsOutPulseEnd (output : Fin 2) : State → Host.Outcome State Fault Refusal := runLive fun d =>
  let x := if output = 0 then d.tod.pps0 else d.tod.pps1
  if x.high then
    let y := { x with high := false }
    bringTo { d with tod := if output = 0 then { d.tod with pps0 := y } else { d.tod with pps1 := y } } x.fallAt
  else d

/-! ### Steering (R46 to R49) -/

/-- TOD_INC_WRITE: firmware's write of the increment (R46). -/
def execTodIncWrite (value : W48) : State → Host.Outcome State Fault Refusal := runLive fun d =>
  -- 1.999,0 ns and 2.001,0 ns in units of 2^-40 ns, compared without rounding
  if value.toNat * 1000 < 1999 * 2 ^ 40 || 2001 * 2 ^ 40 < value.toNat * 1000 || decide (d.tod.state = .holdover) then
    logEv 0x0109 (value.toNat % 2 ^ 32) (value.toNat / 2 ^ 32) 0 (setFlag 0x01 0 d)
  else { d with tod := { d.tod with inc := value } }

/-- PHASE_ADJ_DONE: the remaining cycles of the adjustment pass, the last one adding the remainder (R47). -/
def execPhaseAdjDone : State → Host.Outcome State Fault Refusal := runLive fun d =>
  match d.tod.adj with
  | none => d
  | some a => let d1 := addOpt d (2 * (a.n - a.done)); { d1 with tod := countCycles d1.tod (a.n - a.done) }

/-- TIME_PHASE_ADJUST (R47, R48). -/
def execTimePhaseAdjust (h : Hdr) (s : W64) (n : W32) : State → Host.Outcome State Fault Refusal :=
  cmdPlain h 0x0203 (pk s ++ pk n) fun d =>
    -- |S| / N above 0.000,4 ns per cycle: |S| × 2^-16 × 10,000 > 4 × N
    checks [(n = 0 || 4 * n.toNat * 65536 < s.toInt.natAbs * 10000, .badParam), (d.tod.adj.isSome, .busy),
      (!decide (d.tod.state = .freerun), .notPermitted)]
      (fun d => okay { d with tod := { d.tod with adj := some { s := s.toInt, n := n.toNat, done := 0 } } }) d

/-- TIME_PHASE_ABORT (R49). -/
def execTimePhaseAbort (h : Hdr) : State → Host.Outcome State Fault Refusal :=
  cmdPlain h 0x0204 [] fun d =>
    match d.tod.adj with
    | none => reject .nothingToAbort d
    | some a => okayWith (leBytes 8 (unsigned 64 (adjPart a))) { d with tod := { d.tod with adj := none } }

/-! ### References (R51 to R53) -/

/-- The highest-ranked listed reference that is present, but for one code. -/
def nextRef (d : Dev) (but : Nat) : Option Nat := d.tod.refList.find? fun c => c != but && (mfind d.tod.present c).isSome

/-- The loss of the PTP reference is the loss of the slave port's master: announceReceiptTimeout, or missed Syncs (Table 2-1). -/
def loseMaster (d : Dev) : Dev :=
  let p := d.tod.slavePort.toNat
  if p < 12 then settlePtp { d with tod := { d.tod with ptp := mput {} d.tod.ptp p { mget {} d.tod.ptp p with parent := none, quiet := 0 } } } else d

/-- The selected reference is no longer there to steer to: the next one of the list that is present, or none (R52, Table 2-2). -/
def leaveRef (code : Nat) (d : Dev) : Dev :=
  match nextRef d code with
  | some c => switchRef c d
  | none => loseTime d

/-- A present reference is lost (R52, Table 2-1); the loss of the selected one moves the servo, with U at that moment (Table 2-3). -/
def refGone (code : Nat) (d : Dev) : Dev :=
  let mine := decide (d.tod.ref.toNat = code)
  let d := { d with tod := { d.tod with present := mdel d.tod.present code } }
  let d := if !mine || unsetTime d then d else leaveRef code (logEv 0x0101 code 0 0 (setFlag 0x01 2 d))
  if code = 3 then loseMaster d else d

/-- TIME_REF_LOST: a reference is declared lost by its timeout (Table 2-1), the one in use or another one that was present. HOST is never
lost. -/
def execTimeRefLost (code : BitVec 3) : State → Host.Outcome State Fault Refusal := runLive fun d =>
  let c := code.toNat
  if c = 0 || 5 ≤ c || ((mfind d.tod.present c).isNone && d.tod.ref != code) then d else refGone c d

/-- REFERENCE_UPGRADE: a higher-ranked reference has been present for 60 s (R52). -/
def execReferenceUpgrade : State → Host.Outcome State Fault Refusal := runLive fun d =>
  let mine := (rankOf d d.tod.ref.toNat).getD 4
  match (d.tod.refList.take mine).find? fun c => match mfind d.tod.present c with
    | some t => 60000 ≤ optSince d t
    | none => false with
  | some c => if d.tod.ref = 0 || !fwTakes d then d else switchRef c d
  | none => d

/-- REF10_CHANGEOVER: the CLK_TOD PLL takes REF10_IN or REFCLK_100 (R53). -/
def execRef10Changeover (within : Bool) : State → Host.Outcome State Fault Refusal := runLive fun d =>
  if d.tod.osc = within then d
  else
    let d := { d with tod := { d.tod with osc := within, rebase := true } }
    if within then logEv 0x0105 0 0 0 d else logEv 0x0104 0 0 0 (setFlag 0x01 3 d)

/-- A reference's claim of TAI - UTC that disagrees with the table (R68). -/
def leapClaim (code claim : Nat) (d : Dev) : Dev := if claim != utcOff d then logEv 0x010C code claim 0 d else d

/-- TIME_REF_SELECT (R50 to R52). A reference in use that the new list leaves out is steered to no longer, and edges of an input that the list
leaves out are no longer taken, so that nothing shows it present (DEDUCED, log entry 33). -/
def execTimeRefSelect (h : Hdr) (refs : W32) (pol baud : Byte) : State → Host.Outcome State Fault Refusal :=
  cmdPlain h 0x0205 (pk refs ++ [pol, baud]) fun d =>
    let l := (List.range 4).map fun i => bits refs.toNat (8 * i) 8
    let used := l.takeWhile (· != 0)
    let bad := !(l.drop used.length).all (· == 0) || used.any (5 < ·) || !used.Nodup
    checks [(bad || 4 ≤ pol.toNat || 5 ≤ baud.toNat, .badParam)]
      (fun d =>
        let kept := d.tod.present.filter fun e => used.contains e.1 || (e.1 != 1 && e.1 != 2)
        let d := { d with tod := { d.tod with
          refList := used, polarity := BitVec.ofNat 2 pol.toNat, serInBaud := baud.toNat, present := kept } }
        let cur := d.tod.ref.toNat
        okay (if cur = 0 || used.contains cur then d else checkDeferred (leaveRef cur d))) d

/-- TIME_QUAL_PARAMS (R55, R57). -/
def execTimeQualParams (h : Hdr) (uLock fRef10 aRef10 fRef100 aRef100 holdSpec degraded : W32) :
    State → Host.Outcome State Fault Refusal :=
  cmdPlain h 0x0206 (pk uLock ++ pk fRef10 ++ pk aRef10 ++ pk fRef100 ++ pk aRef100 ++ pk holdSpec ++ pk degraded) fun d =>
    checks [(degraded != 52 && degraded != 187, .badParam)]
      (fun d => okay { d with tod := { d.tod with rebase := true, newParams := some (
        { uLock := uLock.toNat, fRef10 := fRef10.toNat, aRef10 := aRef10.toNat, fRef100 := fRef100.toNat,
          aRef100 := aRef100.toNat, holdSpec := holdSpec.toNat, degraded := degraded.toNat } : QualParams) } }) d

/-- TIME_LEAP_SET (R67, R68). -/
def execTimeLeapSet (h : Hdr) (entries : List LeapP) : State → Host.Outcome State Fault Refusal :=
  cmdPlain h 0x0207 ([BitVec.ofNat 8 entries.length] ++ (entries.map LeapP.bytes).flatten) fun d =>
    let l : List LeapEntry := entries.map fun e => { t := e.t, off := e.off.toNat }
    let now := d.tod.sec.toNat
    let moves := (rangeFrom now 62).any fun s => offAt l s != offAt (leapTable d) s
    checks [(!leapOk l, .badParam), (!unsetTime d && moves, .notPermitted)]
      (fun d => okay { d with tod := { d.tod with leapNew := some l } }) d

/-! ### PTP (R59 to R62) -/

/-- The port's instance replaced, and the states of all ports follow. -/
def setPtp (p : Nat) (x : PtpPort) (d : Dev) : Dev :=
  settlePtp { d with tod := { d.tod with ptp := mput {} d.tod.ptp p x } }

/-- Firmware reads the transmit timestamps of a port and sends the Follow_Up or Pdelay_Resp_Follow_Up of each (R61). -/
def sendFollowUps (p : Nat) (d : Dev) : Dev :=
  let q := mget {} d.tod.txq p
  let x := mget {} d.tod.ptp p
  let d := { d with tod := { d.tod with
    txq := mput {} d.tod.txq p { q with entries := [] }
    ptp := mput {} d.tod.ptp p { x with asked := x.asked.filter fun a => !q.entries.any fun e => e.mtype = (3 : BitVec 4) && e.seqId = a.1 } } }
  q.entries.foldl (fun d e =>
    let t : Stamp := { sec := e.sec, ns := e.ns, frac := e.frac }
    if e.mtype = (0 : BitVec 4) then
      sendPtp p x 8 e.seqId false false (ptpHeader d p 8 44 e.domain 0 e.seqId 2 0 ++ ptpTime t) d
    else if e.mtype = (3 : BitVec 4) then
      match x.asked.find? fun a => a.1 == e.seqId with
      | some a => sendPtp p x 0xA e.seqId true false
          (ptpHeader d p 0xA 54 e.domain 0 e.seqId 5 0x7F ++ ptpTime t ++ beBytes 8 a.2.1.toNat ++ beBytes 2 a.2.2.toNat) d
      | none => d
    else d) d

/-- A port's parent whose Announce has not come for announceReceiptTimeout, 3 intervals, is lost: on the slave port, the PTP reference with
it (R59, Tables 2-1 and 2-8). -/
def ageParent (p : Nat) (d : Dev) : Dev :=
  let x := mget {} d.tod.ptp p
  if x.parent.isNone then d
  else
    let d := { d with tod := { d.tod with ptp := mput {} d.tod.ptp p { x with quiet := x.quiet + 1 } } }
    if x.quiet + 1 < 3 then d
    else if d.tod.slavePort.toNat = p then refGone 3 d
    else setPtp p { x with parent := none, quiet := 0 } d

/-- PTP_TX_INTERVAL: the one-second messages of a port (R59, R60, Table 2-8). No Announce is sent after a second start in UNSET (R56). -/
def execPtpTxInterval (port : Fin 12) : State → Host.Outcome State Fault Refusal := runLive fun d =>
  let x := mget {} d.tod.ptp port
  if x.enable && fwTakes d && !decide (d.hrd.role = .fenced) then
    let d := ageParent port d
    let x := mget {} d.tod.ptp port
    let seq := x.txSeq + 1
    let d := sendFollowUps port { d with tod := { d.tod with ptp := mput {} d.tod.ptp port { x with txSeq := seq } } }
    let d := sendPtp port x 2 seq true true
      (ptpHeader d port 2 54 x.domain 0x0200 seq 5 0 ++ List.replicate 20 0) d
    if decide (x.state = .master) && d.tod.u.isSome && !x.slaveOnly then
      let d := sendPtp port x 0xB seq false false (announceMsg d port x seq) d
      sendPtp port x 0 seq false true (ptpHeader d port 0 44 x.domain 0x0200 seq 0 0 ++ ptpTime {}) d
    else d
  else d

/-- TIME_PTP_PORT (R59, Table 2-8). -/
def execTimePtpPort (h : Hdr) (p : PtpPortP) : State → Host.Outcome State Fault Refusal :=
  cmdPlain h 0x0208 p.bytes fun d =>
    let bad := 12 ≤ p.port.toNat || 1 < p.enable.toNat || 1 < p.profile.toNat || 1 < p.slaveOnly.toNat || 1 < p.peerAddr.toNat ||
      4095 ≤ p.vid.toNat || 7 < p.pcp.toNat || (p.profile = 1 && (p.gmId.toNat < 3 || 254 < p.gmId.toNat))
    let other := (ptpPorts d).any fun q => q != p.port.toNat && (mget {} d.tod.ptp q).slaveOnly
    checks [(bad, .badParam), (p.enable = 1 && p.slaveOnly = 1 && other, .notPermitted)]
      (fun d =>
        let x := mget {} d.tod.ptp p.port.toNat
        okay (setPtp p.port.toNat { x with
          enable := p.enable = 1, profile := p.profile, domain := p.domain, priority1 := p.priority1, priority2 := p.priority2,
          slaveOnly := p.slaveOnly = 1, localPeer := p.peerAddr = 1, vid := p.vid, pcp := p.pcp, gmId := p.gmId,
          variance := p.variance, parent := if p.enable = 1 then x.parent else none } d)) d

/-! ### Outputs, status and reads -/

/-- TIME_OUTPUTS (R63, R65, R66). -/
def execTimeOutputs (h : Hdr) (p : TimeOutputsP) : State → Host.Outcome State Fault Refusal :=
  cmdPlain h 0x0209 p.bytes fun d =>
    let offOk (v : W32) : Bool := v.toInt.natAbs ≤ 100000
    let widthOk (v : W32) : Bool := 1 ≤ v.toNat && v.toNat ≤ 500000
    let bad := 4 ≤ p.ppsEn.toNat || 4 ≤ p.ppsUtc.toNat || !offOk p.ppsOff0 || !offOk p.ppsOff1 || !widthOk p.ppsWidth0 ||
      !widthOk p.ppsWidth1 || 1 < p.ref10En.toNat || !offOk p.ref10Off || 1 < p.irigEn.toNat || 1 < p.irigB005.toNat ||
      31 < p.irigLocal.toInt.natAbs || !offOk p.irigOff || 1 < p.serEn.toNat || 4 < p.serBaud.toNat
    checks [(bad, .badParam)]
      (fun d => okay { d with tod := { d.tod with
        pps0 := { d.tod.pps0 with en := bit p.ppsEn.toNat 0, utc := bit p.ppsUtc.toNat 0, offset := p.ppsOff0.toInt,
                                  width := p.ppsWidth0.toNat }
        pps1 := { d.tod.pps1 with en := bit p.ppsEn.toNat 1, utc := bit p.ppsUtc.toNat 1, offset := p.ppsOff1.toInt,
                                  width := p.ppsWidth1.toNat }
        ref10En := p.ref10En = 1, ref10Off := p.ref10Off.toInt, irigEn := p.irigEn = 1, irigB005 := p.irigB005 = 1,
        irigLocal := p.irigLocal.toInt, irigOff := p.irigOff.toInt, serOutEn := p.serEn = 1, serOutBaud := p.serBaud.toNat } }) d

/-- The code of a PTP port state in the TIME_STATUS reply. -/
def ptpCode (s : PtpState) : Nat :=
  match s with
  | .disabled => 0 | .master => 1 | .passive => 2 | .slave => 3

/-- TIME_STATUS: state, reference, U, last offset, the PTP port states, a deferred TIME_SET and the leap-second table. -/
def execTimeStatus (h : Hdr) : State → Host.Outcome State Fault Refusal :=
  cmdPlain h 0x0201 [] fun d =>
    let dfr := match d.tod.deferred with
      | some x => [1] ++ leBytes 6 x.sec.toNat ++ leBytes 4 x.ns.toNat ++ leBytes 4 x.uH.toNat
      | none => List.replicate 15 0
    let l := leapTable d
    okayWith ([BitVec.ofNat 8 (stateCode d.tod.state), BitVec.ofNat 8 d.tod.ref.toNat] ++ leBytes 4 d.tod.qualU.toNat ++
      leBytes 8 (unsigned 64 d.tod.lastOffset) ++
      ((List.range 12).map fun p => BitVec.ofNat 8 (ptpCode (mget {} d.tod.ptp p).state)) ++ dfr ++
      [BitVec.ofNat 8 l.length] ++ (l.map fun e => leBytes 6 e.t.toNat ++ [BitVec.ofNat 8 e.off]).flatten) d

end Sys2Proof.Machine
end

