-- ==== Sys2Proof/Machine/Timeset.lean ====
section
/-!
DEFINITION. Setting the counter: TIME_SET, and the labelled reference events that set it in UNSET (R49 to R51, R330, R549 to R552), and
the reads of the time window.
-/
namespace Sys2Proof.Machine

/-- A forward move to or beyond the switch tick of a pending switch withdraws it (R552). -/
def withdrawPassed (d : Dev) : Dev :=
  match d.clk.pending with
  | none => d
  | some s =>
    if nowNs d < tickInst s.sec s.tick then d
    else
      let d := logEv 0x1506 s.gen.toNat (logSec d s.sec) s.tick (dropSwitch d)
      match s.entry.bind fun i => (mfind d.lch.entries i).map fun e => (i, e) with
      | some (i, e) => if e.due then finishEntry i e .missed 0 e.inst LchEntry.after d else d
      | none => d
/-- The tick that the wheel is in after the counter was set: the last one that began before the counter's value. -/
def wheelAt (d : Dev) : W48 × Nat :=
  let n := nowNs d - 1
  (BitVec.ofNat 48 (n / secNs), tickOfNs (n % secNs))
/-- The counter takes a value other than by increment (R43): an adjustment is cut (R49), a passed switch is withdrawn (R552), passed launch
entries act (R330), the counts of the second end (R549), the wheel follows, the next second start is the first at or after the value (R64), and channels and metering restart (R367, R394). -/
def moveCounter (ns : Nat) (d : Dev) : Dev :=
  let was := nowStamp d
  let fwd := decide (nowNs d < ns)
  let d := setCounter (cutAdjust d) ns
  let d := forgetActs (if fwd then lchPassed (withdrawPassed d) else d)
  let w := wheelAt d
  let before (s : W48 × Nat) : Bool := decide (ns < tickInst s.1 s.2)
  let back := d.old.isNone && d.clk.genStart.any before
  let d := { d with clk := { d.clk with
    sec := w.1
    tick := w.2
    genStart := if back then none else d.clk.genStart
    oldStart := if d.clk.oldStart.any before then none else d.clk.oldStart
    closed := d.clk.closed ++ d.clk.tallies
    tallies := [] } }
  let d := { d with tod := { d.tod with secDone := if ns % secNs = 0 then none else some d.tod.sec } }
  restartAll 1 (meterTimeStep was d)
/-- TIME_SET applied (R551, Table 2-2): FREERUN with the given uncertainty, from this instant. -/
def applySet (sec : W48) (ns : W32) (uH : W32) (d : Dev) : Dev :=
  let fromUnset := unsetTime d
  let d := moveCounter (instNs sec ns.toNat) d
  let d := { d with
    tod := { d.tod with state := .freerun, ref := 0, inLock := 0, acqHold := false, uH := uH.toNat, baseAt := (sec, ns), holdFlagged := false,
                        deferred := none }
    log := { d.log with anchorDue := true } }
  let d := logEv 0x010B (sec.toNat % 2 ^ 32) uH.toNat 0 d
  if fromUnset then meterGap d else d
/-- TIME_SET (R551): a later one replaces one that waits. -/
def execTimeSet (h : Hdr) (sec : W48) (ns : W32) (uH : W32) (atPps : Byte) : State → Host.Outcome State Fault Refusal :=
  cmdPlain h 0x0202 (pk sec ++ pk ns ++ pk uH ++ pk atPps) fun d =>
    checks [(secNs ≤ ns.toNat || 1 < atPps.toNat, .badParam),
      (!(unsetTime d || decide (d.tod.state = .freerun)) || !d.cur.os.isEmpty, .notPermitted)] (fun d =>
      let d := dropDeferred 0 d
      if atPps = 1 then accepted { d with tod := { d.tod with deferred := some { sec := sec, ns := ns, uH := uH } } }
      else okay (applySet sec ns uH d)) d
/-- A higher-ranked reference of the list that can label the counter is present (R550). -/
def outranked (code : Nat) (d : Dev) : Bool :=
  (d.tod.refList.take ((rankOf d code).getD 0)).any fun c => (c = 1 || c = 3 || c = 4) && (mfind d.tod.present c).isSome
/-- In UNSET, a labelled event of a listed reference sets the counter (R550). -/
def acquire (code ns : Nat) (event : W48 × W32) (d : Dev) : Dev :=
  if (rankOf d code).isNone || outranked code d then d else meterGap (acquireFrom code ns event (moveCounter ns d))
/-- An instant in ns as a second and its ns. -/
def splitNs (ns : Nat) : W48 × W32 := (BitVec.ofNat 48 (ns / secNs), BitVec.ofNat 32 (ns % secNs))
/-- A labelled reference event at an instant of the counter: the time it gives against the counter, by its offset in ns. -/
def labelled (code : Nat) (off : Int) (at_ : Nat) (d : Dev) : Dev :=
  if unsetTime d then acquire code ((nowNs d : Int) + off).toNat (splitNs ((at_ : Int) + off).toNat) d
  else refEvent code off (splitNs at_) d

/-! ### PPS inputs and the serial time of day (R50, R51) -/

/-- The snapshot registers of an input. -/
def snapOf (d : Dev) (n : Nat) : Snap := if n = 0 then d.tod.snap0 else d.tod.snap1
/-- The snapshot registers of an input replaced. -/
def setSnap (n : Nat) (x : Snap) (d : Dev) : Dev :=
  { d with tod := if n = 0 then { d.tod with snap0 := x } else { d.tod with snap1 := x } }
/-- Firmware takes the edges of an input: it serves a listed reference, or a TIME_SET waits for PPS_IN_0 (R50). -/
def takesEdges (d : Dev) (n : Nat) : Bool := fwTakes d && (d.tod.refList.contains (n + 1) || (n = 0 && d.tod.deferred.isSome))
/-- The offset of the nearest second start, in ns. -/
def nearestOff (d : Dev) : Int :=
  let ns := d.tod.ns.toNat
  if ns < 500000000 then -(ns : Int) else ((secNs - ns : Nat) : Int)
/-- PPS_EDGE: an active edge of PPS_IN_n; `taken` says that firmware has taken the edge before it. -/
def execPpsEdge (input : Fin 2) (taken : Bool) : State → Host.Outcome State Fault Refusal := runLive fun d =>
  let n : Nat := input
  let x := snapOf d n
  let t := nowStamp d
  let takes := takesEdges d n
  let d := if takes && x.untaken && !taken then setFlag 0x01 (4 + n) d else d
  let d := setSnap n { frac := t.frac, ns := t.ns, sec := t.sec, edges := x.edges + 1, untaken := takes, valid := true } d
  if !takes then d
  else match d.tod.deferred, n with
    | some s, 0 => applySet s.sec s.ns s.uH d
    | _, 1 => let o := nearestOff d; if unsetTime d then d
      else if 100000000 < o.natAbs then (if (mfind d.tod.present 2).isSome then refGone 2 d else d)
      else refEvent 2 o (d.tod.sec, d.tod.ns) d
    | _, _ => d
/-- The UTC second that a sentence names, as a count since 1970. -/
def sentenceSoc (m : NmeaIn) : Nat := daysOf m.year m.month m.day * 86400 + m.hour * 3600 + m.minute * 60 + m.second
/-- TOD_SER_IN_SENTENCE (R51): it labels the PPS_IN_0 edge that it follows by 10 ms to 900 ms; firmware compares it with the leap-second
table (R68). -/
def execTodSerInSentence (m : NmeaIn) : State → Host.Outcome State Fault Refusal := runLive fun d =>
  let e := d.tod.snap0
  if !m.valid || 60 < m.second || m.afterMs < 10 || 900 < m.afterMs || !e.valid then setFlag 0x01 8 d
  else if !fwTakes d then d
  else
    let soc := sentenceSoc m
    let tai := taiOf (leapTable d) soc (m.second = 60)
    let edge := instNs e.sec e.ns.toNat
    let off : Int := (tai * secNs : Nat) - (edge : Int)
    let d := if unsetTime d || off.natAbs < 500000000 then d
      else leapClaim 1 ((edge + 500000000) / secNs - soc) d
    labelled 1 off edge d

/-! ### PTP messages received (R59, R68) -/

/-- PTP_RX: firmware processes a PTP message of a port that runs an instance of the message's domain (R59). -/
def execPtpRx (port : Fin 12) (domain : Byte) (m : PtpMsg) : State → Host.Outcome State Fault Refusal := runLive fun d =>
  let p : Nat := port
  let x := mget {} d.tod.ptp p
  if !x.enable || x.domain != domain || !fwTakes d || decide (d.hrd.role = .fenced) then d
  else match m with
    | .announce p1 cls acc var p2 ident steps utc tti src =>
      let g : GmData := { priority1 := p1, clockClass := cls, accuracy := acc, variance := var, priority2 := p2, identity := ident,
                          steps := steps, utcOffset := utc, tti := tti, timeSource := src }
      let d := setPtp p { x with parent := some g, quiet := 0 } d
      if d.tod.slavePort.toNat = p && !unsetTime d then leapClaim 3 utc d else d
    | .sync _ _ off => if decide (x.state = .slave) then labelled 3 off (nowNs d) d else d
    | .pdelayReq seq ident from_ =>
      let asked := (x.asked ++ [(seq, ident, from_)]).drop (x.asked.length - 15)
      let d := { d with tod := { d.tod with ptp := mput {} d.tod.ptp p { x with asked := asked } } }
      sendPtp p x 3 seq true true (ptpHeader d p 3 54 x.domain 0x0200 seq 5 0x7F ++ ptpTime (nowStamp d) ++ beBytes 8 ident.toNat ++
        beBytes 2 from_.toNat) d
    | .pdelayResp delay => { d with tod := { d.tod with ptp := mput {} d.tod.ptp p { x with meanDelay := delay } } }

/-! ### The time window (R70) -/

/-- A read of TOD_NOW_0 on a path. -/
def todNow (p : Path) (d : Dev) : Dev :=
  let t := nowStamp d
  latchRead p 0x1000 (fun _ => t.ns.toNat)
    (fun _ => [(0x1004, t.sec.toNat % 2 ^ 32), (0x1008, t.frac.toNat * 65536 + t.sec.toNat / 2 ^ 32)]) d
/-- TOD_NOW_0_READ: on every path, PF1 too, where R70 has the window but R506 maps no other word of TOD (DESIGN CHOICE, log entry 33). -/
def execTodNow0Read (path : Path) : State → Host.Outcome State Fault Refusal := runLive (todNow path)

end Sys2Proof.Machine
end

