-- ==== Sys2Proof/Machine/Hrd.lean ====
section
/-!
DEFINITION. Paired operation (chapter 18, R476 to R499; log entry 26).
-/
namespace Sys2Proof.Machine

/-! ### Ticks and roles -/

/-- The ordinal of the wheel's tick. -/
def wheelOrd (d : Dev) : Nat := tickOrd d.clk.sec d.clk.tick
/-- The start of the tick of an ordinal, in ns. -/
def ordNs (o : Nat) : Nat := tickInst (BitVec.ofNat 48 (o / 3600)) (o % 3600)
/-- The ordinal of the first tick that starts at or after an instant. -/
def firstTickFrom (ns : Nat) : Nat :=
  let k := tickOrd (BitVec.ofNat 48 (ns / secNs)) (tickOfNs (ns % secNs))
  if ns ≤ ordNs k then k else k + 1
/-- The ordinal of the tick whose start lies within 2 µs of the counter (R481). -/
def heartTick (d : Dev) : Option Nat :=
  let k := nowOrd d
  if nowNs d ≤ ordNs k + 2000 then some k else if ordNs (k + 1) ≤ nowNs d + 2000 then some (k + 1) else none
/-- The code of a role (Table 18-1). -/
def roleCode (r : Role) : Nat := match r with | .unpaired => 0 | .pairing => 1 | .active => 2 | .standby => 3 | .fenced => 4
/-- The role of a code; any other code is taken as UNPAIRED. -/
def roleOf (n : Nat) : Role := match n with | 1 => .pairing | 2 => .active | 3 => .standby | 4 => .fenced | _ => .unpaired
/-- Alignment-ready has been reached, and the data path runs. -/
def alignReady (d : Dev) : Bool := decide (d.pwr.run = .ready)
/-- The unit pulls HERD_ACT_N low (Table 18-2, R482). -/
def actDriven (d : Dev) : Bool := decide (d.hrd.role = .active) && !d.hrd.departed
/-- Counts in Table 18-7. -/
def hrdCnt (i : Nat) (d : Dev) : Dev := bump d 0x14 i

/-! ### The health word (Table 18-3) -/

/-- A recorded OPT lies within the last `ms` milliseconds. -/
def within (d : Dev) (t : Option (BitVec 40)) (ms : Nat) : Bool := t.any fun x => decide (optSince d x ≤ ms)
/-- TIME_OK. -/
def timeOk (d : Dev) : Bool := !bit d.tod.qualCode.toNat 7
/-- XCHK_FAIL. -/
def xchkFail (d : Dev) : Bool := within d d.hrd.xchkAt 10000
/-- MIRROR_OK holds (R485): the peer has been heard, the digests and the generations are equal, and no TARGET 0 command holds it clear. -/
def mirrorHolds (d : Dev) : Bool :=
  d.hrd.peerHeard && d.hrd.digest == d.hrd.peerDigest && bits d.hrd.peerHealth.toNat 0 16 == d.clk.gen.toNat && !d.hrd.mirrorHeld
/-- FIT (R488). -/
def fitNow (d : Dev) : Bool :=
  decide (d.hrd.role = .standby) && alignReady d && d.hrd.hb && d.hrd.mirrorOk && timeOk d && !d.hrd.memFail && !xchkFail d
/-- The witness ports (R489). -/
def witnessPorts (d : Dev) : List Nat := (List.range 12).filter (isWitness d)
/-- WITNESS_OK. -/
def witnessOk (d : Dev) : Bool :=
  !(witnessPorts d).isEmpty && (witnessPorts d).all fun p => within d (mfind d.hrd.beaconAt p) 1000
/-- The unit is in DORMANT. -/
def inDormant (d : Dev) : Bool := decide (d.pwr.run = .dormant) || decide (d.pwr.run = .waking)
/-- An exit cause of DORMANT (R526): 0 PWR_WAKE, 1 GOING_DOWN, 2 HB_LOST. The first one counts. During the entry it waits; in DORMANT the
domains relock, and the exit falls at the first tick start at least 20 ms later. -/
def noteExit (c : Nat) (d : Dev) : Dev :=
  let cause := some (d.pwr.exitCause.getD (BitVec.ofNat 2 c))
  let k := firstTickFrom (nowNs d + 20000000)
  match d.pwr.run with
  | .entering => { d with pwr := { d.pwr with exitCause := cause } }
  | .dormant => { d with pwr := { d.pwr with run := .waking, exitCause := cause, wokeTick := some (BitVec.ofNat 48 (k / 3600), k % 3600) } }
  | _ => d
/-- The health word. -/
def healthWord (d : Dev) : W32 :=
  let b (i : Nat) (c : Bool) : Nat := b2n c * 2 ^ i
  BitVec.ofNat 32 (roleCode d.hrd.role * 2 ^ 28 + b 27 (fitNow d) + b 26 d.hrd.mirrorOk + b 25 (timeOk d) + b 24 d.hrd.memFail +
    b 23 (xchkFail d) + b 22 (within d d.hrd.cellBadAt 1000) + b 21 (witnessOk d) + b 20 (inDormant d) + b 19 d.hrd.departed +
    d.hrd.departCause.toNat * 2 ^ 16 + d.clk.gen.toNat)
/-- FIT, TIME_OK, WITNESS_OK and GOING_DOWN of the peer, from its last word. -/
def peerBit (d : Dev) (i : Nat) : Bool := bit d.hrd.peerHealth.toNat i

/-! ### Outputs -/

/-- The levels of the outputs as the unit computes them (R480). -/
def levelsNow (d : Dev) : Levels :=
  let word (n : Nat) (f : Nat → Bool) : Nat := (List.range n).foldl (fun v i => v + b2n (f i) * 2 ^ i) 0
  { alarms := BitVec.ofNat 16 (word 16 fun p => let x := pinOf d p; x.enabled && x.asserted == x.high)
    events := BitVec.ofNat 8 (word 8 fun n => let x := eventPin d n; decide (x.mode = .output) && x.level)
    pulses := BitVec.ofNat 8 (word 8 fun p => let x := pulseOf d p; x.enabled && x.active == x.high) }
/-- Every output that the unit drives shows its own computed state. -/
def showAll (d : Dev) : Dev :=
  let d := (List.range 16).foldl (fun d p => showPin p d) d
  (List.range 8).foldl (fun d p => showPulse p d) ((List.range 8).foldl (fun d n => showEvent n d) d)
/-- The outputs freeze, or follow their computed state again. -/
def setFrozen (lv : Option Levels) (d : Dev) : Dev :=
  { d with
    hrd := { d.hrd with frozen := lv }
    alm := { d.alm with frozen := lv.map Levels.alarms }
    lch := { d.lch with frozen := lv.isSome }
    mtr := { d.mtr with frozen := lv.isSome } }
/-- The outputs go out at given levels. -/
def emitLevels (lv : Levels) (d : Dev) : Dev :=
  let d := (List.range 16).foldl (fun d p =>
    let x := pinOf d p
    if x.enabled then emit (.pin 0 p (padLevel x.openDrain (bit lv.alarms.toNat p))) d else d) d
  let d := (List.range 8).foldl (fun d n =>
    let x := eventPin d n
    if decide (x.mode = .output) then emit (.pin 1 n (padLevel x.openDrain (bit lv.events.toNat n))) d else d) d
  (List.range 8).foldl (fun d p =>
    let x := pulseOf d p
    if x.enabled then emit (.pin 2 p (padLevel x.openDrain (bit lv.pulses.toNat p))) d else d) d
/-- An alarm pin that the new active asserts keeps MIN_WIDTH from T (R490). -/
def takePins (lv : Levels) (d : Dev) : Dev :=
  (List.range 16).foldl (fun d p =>
    let x := pinOf d p
    if x.enabled && (x.asserted || bit lv.alarms.toNat p == x.high) then setPin p { x with asserted := true, running := x.minWidth != 0 } d
    else d) d
/-- GOOSE templates continue from the mirrored stNum plus 1 (R490). -/
def continueGoose (d : Dev) : Dev :=
  d.hrd.mirror.foldl (fun d e => match mfind d.alm.goose e.1 with
    | some g =>
      if leAt g.desc 0 1 != 1 then d
      else sendGoose e.1 (tellPeer e.1 (setGoose e.1 { g with stNum := nextNum e.2.1, sqNum := 0, changed := nowStamp d,
                                                              interval := leAt g.desc 62 2 } d))
    | none => d) d
/-- The trunk and station lanes fall idle (R98). -/
def lanesIdle (d : Dev) : Dev :=
  (List.range 12).foldl (fun d p => let x := portOf d p; if decide (x.link = .up) then linkFall p .down noCut d else d) d
/-- GOING_DOWN announced with a cause (R482). -/
def goingDown (cause : Nat) (d : Dev) : Dev :=
  let yields := decide (d.hrd.role = .active) && d.hrd.hb && decide (d.hrd.peerRole = .standby)
  let d := { d with hrd := { d.hrd with
    departed := true, departCause := BitVec.ofNat 3 cause
    yieldAt := if yields then some (firstTickFrom (nowNs d + 2000)) else d.hrd.yieldAt } }
  let w := healthWord d
  emit (.goingDown w) { d with hrd := { d.hrd with health := w } }
/-- A pending switch-over is withdrawn, and SW_FAIL is set (R491, HRD_FLAGS). -/
def withdrawSwitch (d : Dev) : Dev :=
  match d.hrd.switch with
  | none => d
  | some _ =>
    let d := setFlag 0x14 4 { d with hrd := { d.hrd with switch := none } }
    if d.hrd.frozen.isSome && d.hrd.driveMirror.isNone then showAll (setFrozen none d) else d
/-- The role changes (R499): what the new role means to outputs, masters and time outputs follows. -/
def setRole (r : Role) (cause : Nat) (d : Dev) : Dev :=
  let was := d.hrd.role
  if was = r then d
  else
    let d := { d with hrd := { d.hrd with role := r, roleDue := none, fenceDue := false, yieldAt := none } }
    let d := logEv 0x1401 (roleCode was) (roleCode r) cause (setFlag 0x14 2 d)
    settlePtp (if drives d then d else emit .release (setFrozen none { d with hrd := { d.hrd with driveMirror := none } }))
/-- The unit enters FENCED (R494 to R496). -/
def enterFenced (d : Dev) : Dev :=
  let was := d.hrd.role
  let d := withdrawSwitch d
  let d := setRole .fenced 4 d
  let d := { d with hrd := { d.hrd with timeOutsOurs := false, timeOutsDue := false }, tod := { d.tod with driving := false } }
  lanesIdle (goingDown 4 (logEv 0x1405 (roleCode was) 0 0 (setFlag 0x14 3 (hrdCnt 9 d))))
/-- The unit becomes ACTIVE and drives its own computed state at once: at a pairing decision or by command. -/
def becomeActive (cause : Nat) (d : Dev) : Dev :=
  showAll (setRole .active cause { d with hrd := { d.hrd with timeOutsDue := true, departed := false, departCause := 0 } })
/-- The unit becomes ACTIVE at the start of a tick under steps 3 to 5 of R490, driving mirrored levels for that tick; `now` says that the
old active cannot drive the time outputs. -/
def takeOver (cause : Nat) (now : Bool) (d : Dev) : Dev :=
  let lv := d.hrd.peerLevels
  let d := setRole .active cause d
  let d := { d with hrd := { d.hrd with timeOutsDue := !now, timeOutsOurs := d.hrd.timeOutsOurs || now } }
  let d := takePins lv (setFrozen (some lv) { d with hrd := { d.hrd with driveMirror := some (lv, nowOrd d) } })
  continueGoose (emitLevels lv d)
/-- A role decided before alignment-ready waits for it (R478). -/
def takeRole (r : Role) (cause : Nat) (d : Dev) : Dev :=
  if !alignReady d then { d with hrd := { d.hrd with roleDue := some (r, cause) } }
  else if r = .active then becomeActive cause d
  else setRole r cause d
/-- Alignment-ready has been reached: a role that waited is taken. -/
def roleAtReady (d : Dev) : Dev := match d.hrd.roleDue with | some (r, c) => takeRole r c d | none => d
/-- PAIRING is entered: what was heard before does not count (R478). -/
def enterPairing (cause : Nat) (d : Dev) : Dev :=
  let d := { d with hrd := { d.hrd with
    peerHeard := false, hbRun := 0, departed := false, departCause := 0, pairWaitOp := some (opNs d + d.hrd.pairWait * secNs) } }
  setRole .pairing cause d

/-! ### Heartbeats (R480, R481, R495) -/

/-- A heartbeat counts for a tick: presence, and its return for 8 consecutive ticks after a loss. -/
def heardAt (k : Nat) (d : Dev) : Dev :=
  if d.hrd.hbAt.any (k ≤ ·) then d
  else
    let n := if d.hrd.hbAt = some (k - 1) then d.hrd.hbRun + 1 else 1
    let d := { d with hrd := { d.hrd with hb := true, hbAt := some k, hbRun := n } }
    match d.hrd.outage with
    | none => d
    | some t =>
      if n < 8 then d
      else logEv 0x1403 (min t 0xFFFFFFFF) 0 0 { d with hrd := { d.hrd with outage := none, isolated := false } }
/-- LINK_DEGRADED is set. -/
def degraded (d : Dev) : Dev := setFlag 0x14 0 { d with hrd := { d.hrd with cellBadAt := some d.log.opt } }
/-- What a role heard from the peer means to the unit's own role (Table 18-1, R478). -/
def hearRole (d : Dev) : Dev :=
  if decide (d.hrd.role = .pairing) && decide (d.hrd.peerRole = .active) then takeRole .standby 0 d
  else if decide (d.hrd.role = .standby) && decide (d.hrd.peerRole = .unpaired) then enterPairing 0 d
  else d
/-- What the peer says of a switch-over (R491): the standby takes up or drops the announced tick, the active notes the acknowledgement. -/
def hearSwitch (b : Heartbeat) (d : Dev) : Dev :=
  match d.hrd.role, d.hrd.switch with
  | .active, some s => { d with hrd := { d.hrd with switch := some { s with acked := s.acked || b.acked } } }
  | .standby, _ =>
    let s := b.announce.map fun a => { sec := a.1, tick := a.2.toNat % 3600, auto := false, acked := true, taker := true }
    { d with hrd := { d.hrd with switch := s } }
  | _, _ => d
/-- Two active units hear each other for 8 consecutive ticks, neither departing: the one with PRIORITY low enters FENCED at the next tick
start (R495). -/
def twoActive (d : Dev) : Dev :=
  if decide (d.hrd.role = .active) && decide (d.hrd.peerRole = .active) && !d.pwr.straps.priority && d.hrd.hb && decide (8 ≤ d.hrd.hbRun) &&
      !d.hrd.departed && !peerBit d 19 then
    { d with hrd := { d.hrd with fenceDue := true } }
  else d
/-- A cell's time in 2^-16 ns. -/
def cellUnits (t : CellTime) : Nat := (t.sec.toNat * secNs + t.ns.toNat) * 65536 + t.frac.toNat
/-- A time in 2^-16 ns as a cell carries it. -/
def cellTime (u : Nat) : CellTime :=
  { sec := BitVec.ofNat 48 (u / 65536 / secNs), ns := BitVec.ofNat 32 (u / 65536 % secNs), frac := BitVec.ofNat 16 u }
/-- Peer time minus own time in 2^-16 ns from the four timestamps of a pair of cells (R481): this unit's cell, the one sent nearest to when
the peer received it, and the peer's, received now; none before each has heard the other. HERD_ASYM is taken off (DEDUCED, log entry 26). -/
def herdOffset (d : Dev) (b : Heartbeat) : Option Int :=
  match b.rxAt, d.hrd.sentAt with
  | some r, t :: l =>
    let rx : Int := cellUnits r
    let sent := l.foldl (fun (x y : Nat) => if (rx - (y : Int)).natAbs < (rx - (x : Int)).natAbs then y else x) t
    let own := nowStamp d
    let got : Int := cellUnits { sec := own.sec, ns := own.ns, frac := own.frac }
    some (((rx - sent) + ((cellUnits b.txAt : Int) - got)) / 2 - d.hrd.asym)
  | _, _ => none
/-- Peer minus own, corrected by HERD_ASYM, as HRD_OFFSET holds it. -/
def offsetWord (v : Int) : W32 := BitVec.ofNat 32 (unsigned 32 (max (-2147483648) (min 2147483647 v)))
/-- A valid cell: the peer's state, the offset of the HERD reference, and what follows from both. -/
def heartCell (b : Heartbeat) (d : Dev) : Dev :=
  let off := herdOffset d b
  let own := nowStamp d
  let k := heartTick d
  let d := { d with hrd := { d.hrd with
    peerHealth := b.health, peerRole := roleOf b.role.toNat, peerPriority := b.priority, peerDigest := b.digest, peerHeard := true,
    peerLevels := { alarms := b.alarms, events := b.events, pulses := b.pulses }, peerU := b.peerU.toNat + 5,
    offset := (off.map offsetWord).getD d.hrd.offset, cellRx := some { sec := own.sec, ns := own.ns, frac := own.frac },
    peerFit := match k with | some k => (((k, bit b.health.toNat 27) :: d.hrd.peerFit).take 10) | none => d.hrd.peerFit } }
  let d := hrdCnt 0 d
  let d := match k with | some k => heardAt k d | none => d
  let d := if d.hrd.hb then d else { d with hrd := { d.hrd with offset := 0 } }
  let d := twoActive (hearRole (hearSwitch b d))
  if !d.hrd.hb || !fwTakes d then d
  else
    let d := match b.utcOffset with | some u => if unsetTime d then d else leapClaim 4 u.toNat d | none => d
    match off with
    | some x => labelled 4 (Int.tdiv x 65536) (nowNs d) d
    | none => d
/-- HEARTBEAT_RX: a cell that fails its CRC or carries another PAIR_ID is discarded; a pulse without a cell keeps the heartbeat. -/
def execHeartbeatRx (b : Heartbeat) : State → Host.Outcome State Fault Refusal := runLive fun d =>
  let d := { d with hrd := { d.hrd with actIn := b.actIn } }
  if b.sideband then match heartTick d with
    | some k => if d.hrd.hbAt.any (k ≤ ·) then d else heardAt k (degraded (hrdCnt 2 d))
    | none => d
  else if !b.crcOk then degraded (hrdCnt 3 d)
  else if b.pairId != d.hrd.pairId then hrdCnt 15 d
  else heartCell b d
/-- A tick has a heartbeat. -/
def tickHeard (d : Dev) (k : Nat) : Bool := d.hrd.hbAt == some k || (d.hrd.hbAt == some (k + 1) && 2 ≤ d.hrd.hbRun)
/-- FIT bits of the 8 ticks before the two lost ones that end at tick `t`. -/
def lastFits (l : List (Nat × Bool)) (t : Nat) : List Bool := (l.filter fun e => t ≤ e.1 + 9 && e.1 + 2 ≤ t).map Prod.snd
/-- HB_LOST (R481, R494): declared 2 µs after the second of two tick starts without a heartbeat. -/
def execHbLost : State → Host.Outcome State Fault Refusal := runLive fun d =>
  let t := wheelOrd d
  if !d.hrd.hb || tickHeard d t || tickHeard d (t - 1) || d.hrd.hbAt.any (t < ·) then d
  else
    let d := bringTo d (ordNs t + 2000)
    let d := { d with hrd := { d.hrd with
      hb := false, hbRun := 0, offset := 0, outage := some 2, lostSent := lastFits d.hrd.sentFit t, lostPeer := lastFits d.hrd.peerFit t } }
    let d := logEv 0x1402 (roleCode d.hrd.role) (logSec d d.tod.sec) 0 (setFlag 0x14 1 (hrdCnt 4 d))
    let d := withdrawSwitch (refGone 4 d)
    let d := if decide (d.hrd.role = .standby) then noteExit 2 d else d
    if peerBit d 19 || decide (d.hrd.role = .unpaired) || decide (d.hrd.role = .fenced) then d
    else hrdCnt 5 { d with hrd := { d.hrd with witnessDue := some (t + 3), peerSeen := false, peerSeenOn := 0 } }
/-- The role after a witness check that has not seen the peer (Table 18-4). -/
def unseen (d : Dev) : Dev :=
  match d.hrd.role, d.pwr.straps.priority with
  | .active, true => d
  | .active, false => if !d.hrd.lostPeer.isEmpty && d.hrd.lostPeer.all (! ·) then d else enterFenced d
  | .standby, true =>
    if d.hrd.lostSent.all id then takeOver 4 true (hrdCnt 7 d) else { d with hrd := { d.hrd with isolated := true } }
  | .standby, false => enterFenced d
  | .pairing, _ => { d with hrd := { d.hrd with peerHeard := false } }
  | _, _ => d
/-- WITNESS_DECISION (R494): at the start of the third tick after the declaration. -/
def execWitnessDecision (actLow : Bool) : State → Host.Outcome State Fault Refusal := runLive fun d =>
  match d.hrd.witnessDue with
  | none => d
  | some t =>
    let d := bringTo d (ordNs t)
    let byPin := !d.hrd.peerSeen && actLow && !actDriven d
    let d := { d with hrd := { d.hrd with
      actIn := actLow, witnessDue := none, peerSeen := d.hrd.peerSeen || byPin, peerSeenOn := if byPin then 0xF else d.hrd.peerSeenOn } }
    let seen := d.hrd.peerSeen
    let d := logEv 0x1404 (b2n seen) d.hrd.peerSeenOn 0 d
    if seen then hrdCnt 6 { d with hrd := { d.hrd with isolated := true } } else unseen d
/-- GOING_DOWN_RX (R491, R493): a standby takes over at the first tick start at least 2 µs later; a dormant one wakes. -/
def execGoingDownRx (health : W32) : State → Host.Outcome State Fault Refusal := runLive fun d =>
  let d := withdrawSwitch { d with hrd := { d.hrd with peerHealth := health } }
  if !decide (d.hrd.role = .standby) then d
  else
    let k := firstTickFrom (nowNs d + 2000)
    noteExit 1 { d with hrd := { d.hrd with takeAt := some (BitVec.ofNat 48 (k / 3600), k % 3600) } }
/-- The takeover that GOING_DOWN called for (R493). -/
def takeoverDue (d : Dev) : Dev :=
  match d.hrd.takeAt with
  | none => d
  | some (sec, tick) =>
    if wheelOrd d < tickOrd sec tick then d
    else
      let d := { d with hrd := { d.hrd with takeAt := none } }
      if !decide (d.hrd.role = .standby) then d
      else
        let d := if bit d.hrd.health.toNat 27 then d else logEv 0x140A d.hrd.health.toNat 0 0 d
        takeOver 3 false (hrdCnt 7 d)

/-! ### Pairing (R478) -/

/-- PAIRING_DECISION: at the first tick start after both units have been heard for 8 ticks in PAIRING. -/
def execPairingDecision : State → Host.Outcome State Fault Refusal := runLive fun d =>
  let mine := d.pwr.straps.priority
  if !decide (d.hrd.role = .pairing) || !decide (d.hrd.peerRole = .pairing) || !d.hrd.hb || d.hrd.hbRun < 8 || d.hrd.roleDue.isSome then d
  else
   let d := bringTo d (ordNs (d.hrd.hbAt.getD 0 + 9 - d.hrd.hbRun))
   if mine = d.hrd.peerPriority then logEv 0x140B (b2n mine) 0 0 d
  else takeRole (if mine then .active else .standby) 0 d
/-- PAIR_WAIT_EXPIRY: no heartbeat has been heard within PAIR_WAIT. -/
def execPairWaitExpiry : State → Host.Outcome State Fault Refusal := runLive fun d =>
  match d.hrd.pairWaitOp with
  | none => d
  | some t =>
    if !decide (d.hrd.role = .pairing) || d.hrd.peerHeard || d.hrd.hb then d
    else
      let d := waitUntil { d with hrd := { d.hrd with pairWaitOp := none } } t
      if d.pwr.straps.priority then takeRole .active 0 d else logEv 0x1409 d.hrd.pairWait 0 0 d

/-! ### Switch-over (R490 to R492) -/

/-- A switch-over is scheduled. -/
def planSwitch (sec : W48) (tick : Nat) (auto : Bool) (d : Dev) : Dev :=
  { d with hrd := { d.hrd with switch := some { sec := sec, tick := tick, auto := auto } } }
/-- HRD_SWITCHOVER (R491). -/
def execHrdSwitchover (h : Hdr) (sec : W48) (tick : W16) : State → Host.Outcome State Fault Refusal :=
  cmdPlain h 0x0C03 (pk sec ++ pk tick) fun d =>
    let t := tick.toNat
    checks [(!decide (d.hrd.role = .active) || !peerBit d 27, .notPermitted),
      (3599 < t || 9 * tickInst sec t < 9 * nowNs d + 5000000, .badParam), (d.hrd.switch.isSome, .busy)] (fun d =>
      accepted (planSwitch sec t false d)) d
/-- An AUTO cause makes an active unit schedule a switch-over for the first tick start at least 2 ticks ahead (R492). -/
def autoSwitch (cause : Nat) (d : Dev) : Dev :=
  if !decide (d.hrd.role = .active) || !peerBit d 27 || d.hrd.switch.isSome || !bit d.hrd.auto.toNat cause then d
  else
    let k := firstTickFrom (nowNs d + ceilDiv 5000000 9)
    planSwitch (BitVec.ofNat 48 (k / 3600)) (k % 3600) true d
/-- The causes of AUTO that a tick start finds (R492): bits 1 to 3. -/
def autoCauses (d : Dev) : Dev :=
  let bad := d.hrd.timeBadAt.any fun t => decide (10000 ≤ optSince d t)
  let d := if bad && peerBit d 25 then autoSwitch 1 d else d
  let d := if d.hrd.memFail then autoSwitch 2 d else d
  let w := witnessPorts d
  if !w.isEmpty && w.all (fun p => !portUp d p) && peerBit d 21 then autoSwitch 3 d else d
/-- SWITCHOVER_FREEZE (R490, R491): at the start of tick T - 1 the active freezes its outputs, or withdraws an unacknowledged
switch-over. -/
def execSwitchoverFreeze : State → Host.Outcome State Fault Refusal := runLive fun d =>
  match d.hrd.switch with
  | none => d
  | some s =>
    if s.taker || !decide (d.hrd.role = .active) || d.hrd.frozen.isSome then d
    else
      let d := bringTo d (ordNs (tickOrd s.sec s.tick - 1))
      if s.acked then setFrozen (some (levelsNow d)) d else logEv 0x1406 s.tick 0 0 (withdrawSwitch d)
/-- SWITCHOVER_HANDOVER (R490): at the start of T the old active releases and the new one drives. -/
def execSwitchoverHandover : State → Host.Outcome State Fault Refusal := runLive fun d =>
  match d.hrd.switch with
  | none => d
  | some s =>
    let at_ := tickInst s.sec s.tick
    let cause := if s.auto then 2 else 1
    if s.taker then
      if !decide (d.hrd.role = .standby) then d
      else
        let d := bringTo d at_
        takeOver cause false (hrdCnt 8 { d with hrd := { d.hrd with switch := none } })
    else if !decide (d.hrd.role = .active) || d.hrd.frozen.isNone then d
    else
      let d := bringTo d at_
      setRole .standby cause (hrdCnt 8 { d with hrd := { d.hrd with switch := none, timeOutsDue := true } })
/-- HRD_CANCEL (R491). -/
def execHrdCancel (h : Hdr) : State → Host.Outcome State Fault Refusal :=
  cmdPlain h 0x0C04 [] fun d => match d.hrd.switch with
    | some s =>
      if s.taker || ordNs (tickOrd s.sec s.tick - 1) ≤ nowNs d then reject .nothingToAbort d
      else okay (withdrawSwitch d)
    | none => reject .nothingToAbort d

/-! ### What a tick start holds for the pair -/

/-- The tick before this one is judged: a missing heartbeat counts, and lane cells missing set LINK_DEGRADED. -/
def judgeTick (d : Dev) : Dev :=
  let k := wheelOrd d - 1
  if decide (d.hrd.role = .unpaired) || decide (d.hrd.role = .fenced) || tickHeard d k then d
  else degraded (hrdCnt 1 { d with hrd := { d.hrd with outage := d.hrd.outage.map (· + 1) } })
/-- MIRROR_OK evaluated; its fall is flagged and logged (R485, R499). -/
def judgeMirror (d : Dev) : Dev :=
  let ok := mirrorHolds d
  let was := d.hrd.mirrorOk
  let d := { d with hrd := { d.hrd with mirrorOk := ok } }
  if ok || !was then d
  else
    let gen := bits d.hrd.peerHealth.toNat 0 16 != d.clk.gen.toNat
    logEv 0x1407 d.hrd.digest.toNat d.hrd.peerDigest.toNat (b2n gen) (setFlag 0x14 5 d)
/-- The mirrored levels end with their tick; from then on outputs show the unit's own state (R490 step 4). -/
def ownState (d : Dev) : Dev :=
  match d.hrd.driveMirror with
  | none => d
  | some (_, t) => if wheelOrd d ≤ t then d else showAll (setFrozen none { d with hrd := { d.hrd with driveMirror := none } })
/-- TIME_OK 0 is timed (R492). -/
def timeTimed (d : Dev) : Dev :=
  { d with hrd := { d.hrd with timeBadAt := if timeOk d then none else some (d.hrd.timeBadAt.getD d.log.opt) } }
/-- The beacon frame of this tick (R489). -/
def beaconBytes (d : Dev) (p : Nat) : Bytes :=
  etherFrame 0x03574C000001 (ownAddr d p) [] 0x88B5 (beBytes 2 d.hrd.pairId.toNat ++ beBytes 8 d.gbl.eui.toNat ++
    beBytes 2 d.clk.tick ++ beBytes 4 d.hrd.health.toNat)
/-- The beacons of a tick start go out on every witness port that is up. -/
def sendBeacons (d : Dev) : Dev :=
  (witnessPorts d).foldl (fun d p =>
    if portUp d p then txSend p { kind := 0, source := 0, bytes := beaconBytes d p, mark := none } d else d) d
/-- The heartbeat of a tick start (R480), with frozen levels in the gap of a switch-over; it goes out within 1.0 µs, when exactly is free
(log entry 1). -/
def sendHeartbeat (d : Dev) : Dev :=
  let lv := d.hrd.frozen.getD (levelsNow d)
  let ours := d.hrd.switch.filter fun s => !s.taker
  let fit := bit d.hrd.health.toNat 27
  let tx := ordNs (wheelOrd d) * 65536 + Config.heartbeatDelay (wheelOrd d) % 65536001
  emit (.heartbeat d.clk.tick d.clk.sec d.hrd.pairId d.hrd.health lv.alarms lv.events lv.pulses (cellTime tx) d.hrd.cellRx
      (ours.map fun s => (s.sec, s.tick)) (d.hrd.switch.any SwitchOver.taker))
    { d with hrd := { d.hrd with sentFit := ((wheelOrd d, fit) :: d.hrd.sentFit).take 10, sentAt := (tx :: d.hrd.sentAt).take 2 } }
/-- A unit whose power-fail warning has passed with no reset: STANDBY where the peer's heartbeat carries ACTIVE, else PAIRING (R530). -/
def backFromPfw (d : Dev) : Dev :=
  if !d.hrd.departed || d.hrd.departCause != 1 || d.pwr.pfw || d.pwr.seqRun || decide (d.hrd.role = .fenced) then d
  else
    let back := { d with hrd := { d.hrd with departed := false, departCause := 0 } }
    if decide (d.hrd.role = .unpaired) then back
    else if d.hrd.hb && decide (d.hrd.peerRole = .active) then setRole .standby 3 back
    else enterPairing 3 back
/-- The pair's part of a tick start: judgements, due role changes, the health word, then heartbeat and beacons in every role but FENCED;
the lane is idle in loader mode and in TAMPERED (Table 20-5). -/
def pairTick (d : Dev) : Dev :=
  let d := timeTimed (judgeMirror (judgeTick d))
  let d := backFromPfw (takeoverDue (ownState d))
  let d := if d.hrd.fenceDue then enterFenced d else d
  let d := autoCauses d
  let d := { d with hrd := { d.hrd with health := healthWord d } }
  if decide (d.hrd.role = .fenced) || d.cmd.loader || decide (d.pwr.run = .tampered) then d else sendBeacons (sendHeartbeat d)

/-! ### Cross-check and self-test (R487) -/

/-- XCHK_CELL_RX: the standby compares a commit's digest cell with its own record. -/
def execXchkCellRx (c : XchkCell) : State → Host.Outcome State Fault Refusal := runLive fun d =>
  if !decide (d.hrd.role = .standby) then d
  else
    let own := d.hrd.xrecords.find? fun x => x.ostream = c.ostream.toNat && x.sec == c.sec && x.tick = c.tick.toNat && x.amend = c.amend.toNat
    match own with
    | none => hrdCnt 14 d
    | some x =>
      if !x.complete || !c.complete || x.absent != c.absent then hrdCnt 14 d
      else if x.crc = c.crc then hrdCnt 12 d
      else tally tallyXchk 0 1 x.ostream (setFlag 0x14 6 (hrdCnt 13 { d with hrd := { d.hrd with xchkAt := some d.log.opt } }))
/-- MEMORY_TEST_ERROR: MEM_FAIL, and the switch-over that AUTO bit 2 selects. -/
def execMemoryTestError : State → Host.Outcome State Fault Refusal := runLive fun d =>
  autoSwitch 2 { d with hrd := { d.hrd with memFail := true } }

/-! ### The Herd lane and forwarded commands (R479, R483, R484) -/

/-- HERD_LANE_UP. -/
def execHerdLaneUp : State → Host.Outcome State Fault Refusal := runLive fun d => { d with hrd := { d.hrd with lane := .up } }
/-- A forwarded command whose peer completion will not come: its local effect stands, its status is INTERNAL_FAULT, at once or when the
local unit completes it. -/
def forwardLost (f : Forwarded) (d : Dev) : Dev :=
  let d := setFlag 0x14 7 (hrdCnt 11 d)
  if f.hdr.target = 2 && !f.peerFirst && f.here.isNone then
    { d with hrd := { d.hrd with forwarded := d.hrd.forwarded.map fun g =>
      if g.hdr.chan == f.hdr.chan then { g with there := some (0x00F0, []) } else g } }
  else match f.here with
    | some x => bothDone f x 0x00F0 d
    | none => endForward f .internalFault [] d
/-- The Herd lane fails: commands in flight end with INTERNAL_FAULT. -/
def herdFails (d : Dev) : Dev :=
  let d := { d with hrd := { d.hrd with lane := .down, arrived := [] } }
  (d.hrd.forwarded.filter fun f => f.there.isNone).foldl (fun d f => forwardLost f d) d
/-- HERD_LANE_DOWN. -/
def execHerdLaneDown : State → Host.Outcome State Fault Refusal := runLive herdFails
/-- FORWARD_TIMEOUT: the peer has not completed within 1 s beyond the command's own bound, at the least that of R439. -/
def execForwardTimeout (chan : Fin 24) : State → Host.Outcome State Fault Refusal := runLive fun d =>
  match d.hrd.forwarded.find? fun f => f.hdr.chan == chan.val && f.there.isNone with
  | some f => forwardLost f (waitUntil d (f.sentOp + 1010000000))
  | none => d
/-- HERD_STATE_CELL_RX: the mirrored stNum and sqNum of GOOSE templates (R480). -/
def execHerdStateCellRx (entries : List StateEntry) : State → Host.Outcome State Fault Refusal := runLive fun d =>
  { d with hrd := { d.hrd with mirror := entries.foldl (fun m e => mset m e.template.toNat (e.stNum, e.sqNum)) d.hrd.mirror } }
/-- FORWARDED_COMMAND_RX: a command of the peer waits on the internal channel of its class, in arrival order. -/
def execForwardedCommandRx (origin : Fin 4) (packet : Bytes) : State → Host.Outcome State Fault Refusal := runLive fun d =>
  refuseWaiting { d with hrd := { d.hrd with arrived := d.hrd.arrived ++ [(25 + origin.val, cut packet 0 64)] } }
/-- GEN_SWITCH or GEN_CANCEL applied on this unit after the peer's OK (R484); a failure here cancels on the peer. -/
def applyAfterPeer (f : Forwarded) (d : Dev) : Dev :=
  let a := if f.op = 0x0110 then
      genSwitch (BitVec.ofNat 16 (leAt f.params 0 2)) (BitVec.ofNat 48 (leAt f.params 2 6)) (leAt f.params 8 2) d
    else cancelSwitch d
  let r := a.2.getD (.internalFault, [])
  let d := if statusGood r.1 then a.1 else emit (.forward f.hdr.chan (packetBytes { f.hdr with plen := 0 } 0x0111 []) []) a.1
  endForward f r.1 r.2 d
/-- FORWARDED_COMMAND_REPLY: the peer's completion of a forwarded command. -/
def execForwardedCommandReply (chan : Fin 24) (status : W16) (order : W32) (reply : Bytes) : State → Host.Outcome State Fault Refusal :=
  runLive fun d =>
    match d.hrd.forwarded.find? fun f => f.hdr.chan == chan.val && f.there.isNone with
    | none => d
    | some f =>
      let d := { d with hrd := { d.hrd with peerStatus := mset d.hrd.peerStatus chan (status, order) } }
      if f.hdr.target = 1 then endForward f (statusOf status.toNat) reply d
      else if f.peerFirst then (if status = 0 then applyAfterPeer f d else endForward f (statusOf status.toNat) reply d)
      else match f.here with
        | some x => bothDone f x status d
        | none => { d with hrd := { d.hrd with forwarded := d.hrd.forwarded.map fun g =>
            if g.hdr.chan == chan.val then { g with there := some (status, reply) } else g } }

/-! ### Commands (Table 18-8) -/

/-- HRD_STAT. -/
def hrdStat (d : Dev) : Nat :=
  let h := d.hrd
  let b (i : Nat) (c : Bool) : Nat := b2n c * 2 ^ i
  roleCode h.role * 2 ^ 28 + (match h.lane with | .down => 0 | .training => 1 | .up => 2) * 2 ^ 26 + b 25 h.hb + b 24 h.isolated +
    b 23 h.witnessDue.isSome + b 22 d.pwr.straps.priority + b 21 h.switch.isSome + b 20 (h.actIn || actDriven d) + h.pairId.toNat
/-- HRD_CONFIG parameters outside Table 18-8. -/
def hrdConfigBad (p : HrdConfigP) : Bool :=
  let a := signed 48 p.asym.toNat
  1 < p.enable.toNat || 4096 ≤ p.mask.toNat || 4 < popCount 12 p.mask.toNat || p.pairWait = 0 || 60 < p.pairWait.toNat ||
    1 < p.timeOut.toNat || 15 < p.auto.toNat || 6553600000 < a.natAbs
/-- HRD_CONFIG. -/
def execHrdConfig (h : Hdr) (p : HrdConfigP) : State → Host.Outcome State Fault Refusal :=
  cmdPlain h 0x0C01 p.bytes fun d =>
    checks [(hrdConfigBad p, .badParam), (!(decide (d.hrd.role = .unpaired) || decide (d.hrd.role = .pairing)), .busy)] (fun d =>
      let on := decide (p.enable = 1)
      let d := { d with hrd := { d.hrd with
        enabled := on, pairId := p.pairId, witnessMask := BitVec.ofNat 12 p.mask.toNat, pairWait := p.pairWait.toNat,
        timeOutStandby := p.timeOut = 1, auto := BitVec.ofNat 4 p.auto.toNat, asym := signed 48 p.asym.toNat } }
      okay (if on && decide (d.hrd.role = .unpaired) then enterPairing 5 d
        else if !on && decide (d.hrd.role = .pairing) then showAll (setRole .unpaired 5 d)
        else d)) d
/-- HRD_STATUS (log entry 11): HRD_STAT, both health words, both digests, the offset, and per channel the peer's status and ORDER. -/
def execHrdStatus (h : Hdr) : State → Host.Outcome State Fault Refusal :=
  cmdPlain h 0x0C02 [] fun d => okayWith (leBytes 4 (hrdStat d) ++ pk d.hrd.health ++ pk d.hrd.peerHealth ++ pk d.hrd.digest ++
    pk d.hrd.peerDigest ++ pk d.hrd.offset ++
    ((List.range 24).map fun c => let x := mget (0, 0) d.hrd.peerStatus c; pk x.1 ++ pk x.2).flatten) d
/-- HRD_UNFENCE (R496). -/
def execHrdUnfence (h : Hdr) (mode : Byte) : State → Host.Outcome State Fault Refusal :=
  cmdPlain h 0x0C05 (pk mode) fun d =>
    let fenced := decide (d.hrd.role = .fenced)
    let can := if mode = 0 then fenced && d.hrd.hb else fenced || decide (d.hrd.role = .pairing)
    checks [(1 < mode.toNat, .badParam), (!can, .notPermitted)] (fun d =>
      if mode = 0 then okay (setRole .standby 5 { d with hrd := { d.hrd with departed := false, departCause := 0 } })
      else okay (becomeActive 5 (logEv 0x140C (roleCode d.hrd.role) 0 0 d))) d
/-- HRD_UNPAIR (Table 18-8, R482). -/
def execHrdUnpair (h : Hdr) : State → Host.Outcome State Fault Refusal :=
  cmdPlain h 0x0C06 [] fun d => checks [(decide (d.hrd.role = .standby), .notPermitted)] (fun d =>
    okay (if decide (d.hrd.role = .unpaired) then d else showAll (setRole .unpaired 5 (goingDown 6 (withdrawSwitch d))))) d
/-- HRD_DIGEST_RESET (R485): the digest is 0; with TARGET 2, MIRROR_OK may hold again. -/
def execHrdDigestReset (h : Hdr) : State → Host.Outcome State Fault Refusal :=
  cmdPlain h 0x0C07 [] fun d =>
    okay { d with hrd := { d.hrd with digest := 0, mirrorHeld := d.hrd.mirrorHeld && h.target != 2 } }

end Sys2Proof.Machine
end

