-- ==== Sys2Proof/Machine/Reset.lean ====
section
/-!
DEFINITION. Device reset (R522, R523): what every reset wipes, and what MRAM and the always-on domain keep.
-/
namespace Sys2Proof.Machine

/-- What the event log keeps: the MRAM area with its mark and copies, and the always-on counts (R464, R470, R523). -/
def keptLog (x : Log) : Log :=
  { mram := x.mram, endMark := x.endMark, pcc := x.pcc, opt := x.opt, optSub := x.optSub, pccCopy := x.pccCopy, optCopy := x.optCopy }

/-- What MRAM keeps of the configuration store and the firmware image (R445, R453, R455). -/
def keptCmd (x : Cmd) : Cmd :=
  { store := x.store, storeHalf := x.storeHalf, storeSchema := x.storeSchema, stored := x.stored, storedComplete := x.storedComplete,
    body := x.body, bodyHashOk := x.bodyHashOk, minSvn := x.minSvn, fawnVersion := x.fawnVersion }

/-- What MRAM and the always-on domain keep of keys and life cycle (R407, R425, R427). -/
def keptKey (x : Key) : Key :=
  { stored := x.stored, storedKe := x.storedKe, storedKs := x.storedKs, ks := x.ks, ksNext := x.ksNext, lc := x.lc, changing := x.changing, owner := x.owner,
    newOwner := x.newOwner, ownerCtr := x.ownerCtr }

/-- The supplies and the cause of the reset (Table 20-3). -/
def keptPwr (x : Pwr) (cause : Nat) : Pwr :=
  { supplies := x.supplies, aonVdd := x.aonVdd, aonLost := x.aonLost, cause := BitVec.ofNat 3 cause }

/-- Everything but MRAM and the always-on domain at its reset value (R523). -/
def wiped (cause : Nat) (d : Dev) : Dev :=
  { log := keptLog d.log
    cmd := keptCmd d.cmd
    key := keptKey d.key
    tmp := { d.tmp with active := 0, open_ := 0 }
    mtr := { saves := d.mtr.saves }
    gbl := { eui := d.gbl.eui }
    pwr := keptPwr d.pwr cause
    out := d.out
    draws := d.draws }

/-- The causes whose flush needs CLK_CTL and the firmware to run still (R452, R522). -/
def flushesFirst (cause : Nat) (d : Dev) : Bool :=
  if cause = 2 || cause = 6 then !stalledIn d 4 && !d.cmd.fwRestarting else 3 ≤ cause

/-- A device reset with its cause (R522): the log flush that precedes it, then everything is wiped, and every output is released. -/
def deviceReset (cause : Nat) (d : Dev) : Dev :=
  emit .release (wiped cause (if flushesFirst cause d then flushLog true d else d))

end Sys2Proof.Machine
end

