-- ==== Sys2Proof/Machine/Key.lean ====
section
/-!
DEFINITION. The key vault and the life cycle (chapter 15, R404 to R419, R425 to R429; log entry 29).
-/
namespace Sys2Proof.Machine

/-! ### Slots (R404, R405) -/

/-- The reference of a Hazel. -/
def isHazel (r : Nat) : Bool := 0x4000 ≤ r && r < 0x4040
/-- The reference of a Pip. -/
def isPip (r : Nat) : Bool := 0x8000 ≤ r && r < 0x9000
/-- A slot reference names a slot. -/
def refOk (r : Nat) : Bool := r = 0 || isHazel r || isPip r
/-- Counts in Table 15-11. -/
def keyCnt (i : Nat) (d : Dev) : Dev := bump d 0x17 i
/-- The code of a slot state (Table 15-5). -/
def slotNum : SlotState4 → Nat
  | .empty => 0 | .valid => 1 | .orphaned => 2 | .failed => 3
/-- The code of a vault state. -/
def vaultNum : Vault → Nat
  | .empty => 0 | .restoring => 1 | .ready => 2 | .zeroized => 3
/-- The code of a life-cycle state (Table 15-8). -/
def lcNum : LifeCycle → Nat
  | .blank => 0 | .provisioned => 1 | .field => 2 | .decommissioned => 3
/-- The life-cycle state of a code. -/
def lcOf (n : Nat) : LifeCycle := match n with | 0 => .blank | 1 => .provisioned | 2 => .field | _ => .decommissioned
/-- VALID slots of a level. -/
def validSlots (d : Dev) (level : Nat → Bool) : Nat :=
  (d.key.slots.filter fun e => level e.1 && (slotAt d e.1).any fun k => decide (k.state = .valid)).length
/-- KEY_STAT. -/
def keyStat (d : Dev) : Nat :=
  (if d.key.lcRead then lcNum d.key.lc * 2 ^ 30 else 0) + vaultNum d.key.vault * 2 ^ 28 + validSlots d (· == 0) * 2 ^ 27 +
  b2n d.key.debug * 2 ^ 26 + b2n d.key.update.isSome * 2 ^ 25 + b2n d.key.changing.isSome * 2 ^ 24 +
  validSlots d isHazel * 2 ^ 16 + validSlots d isPip
/-- One request to the DRBG, which reseeds after every 2^20 (R409). -/
def useDrbg (d : Dev) : Dev :=
  if 2 ^ 20 ≤ d.key.drbgReqs + 1 then keyCnt 8 { d with key := { d.key with drbgReqs := 0 } }
  else { d with key := { d.key with drbgReqs := d.key.drbgReqs + 1 } }
/-- Bytes of the DRBG (log entry 1). -/
def drbgBytes (n : Nat) (d : Dev) : Bytes × Dev := (cut (Config.drbg d.draws n) 0 n, useDrbg { d with draws := d.draws + 1 })

/-! ### Keys that are lost to their users (R92, R124, R209, R316) -/

/-- The SAs of a port that a Pip serves become unusable. -/
def portSasLost (slot cause p : Nat) (d : Dev) : Dev :=
  let hit (e : Nat × MacSa) : Bool := !e.2.unusable && e.2.slot == slot
  let mark (l : NMap MacSa) : NMap MacSa := l.map fun e => if hit e then (e.1, { e.2 with unusable := true }) else e
  let x := portOf d p
  let d := setPort d p { x with txSas := mark x.txSas, rxScs := x.rxScs.map fun s => (s.1, { s.2 with sas := mark s.2.sas }) }
  let d := (x.txSas.filter hit).foldl (fun d e => saUnusable p 0 0 e.1 cause d) d
  x.rxScs.foldl (fun d s => (s.2.sas.filter hit).foldl (fun d e => saUnusable p 1 s.1 e.1 cause d) d) d
/-- Every user of a Pip acts: cause 0 integrity or zeroized, 1 orphaned. -/
def keyLost (slot cause : Nat) (d : Dev) : Dev :=
  let d := (List.range 12).foldl (fun d p => portSasLost slot cause p d) d
  quarGoose slot cause (quarTemplates slot cause (quarStreams slot cause d))
/-- The vault is cleared (R421): every slot, KE, the DRBG state and the derived identity key; every binding acts with cause 0. -/
def zeroizeVault (d : Dev) : Dev :=
  let pips := (d.key.slots.filter fun e => isPip e.1).map fun e => e.1 - 0x8000
  pips.foldl (fun d n => keyLost n 0 d)
    { d with key := { d.key with slots := [], ke := [], identity := false, vault := .zeroized, drbgReqs := 0 } }
/-- The zeroize line acts (R421): the vault and the KS register are cleared. -/
def zeroizeLine (d : Dev) : Dev :=
  setFlag 0x17 4 (keyCnt 9 (zeroizeVault { d with key := { d.key with ks := none } }))

/-! ### Update messages (R410 to R417) -/

/-- Byte `i` of a message. -/
def msgByte (m : Bytes) (i : Nat) : Nat := (m.getD i 0).toNat
/-- Bytes of a message are 0. -/
def msgZero (m : Bytes) (off n : Nat) : Bool := allZero ((m.drop off).take n)
/-- TARGET of a message. -/
def msgTarget (m : Bytes) : Nat := beAt m 6 2
/-- COUNTER of a message. -/
def msgCounter (m : Bytes) : Nat := beAt m 88 8
/-- The operation carries a key. -/
def opCarries (op : Nat) : Bool := op = 2 || op = 4
/-- Step 1 of Table 15-4: length, MAGIC, FORM, OP, and every byte that must be 0. -/
def msgFieldsBad (d : Dev) (m : Bytes) : Bool :=
  let form := msgByte m 4
  let op := msgByte m 5
  m.length != 448 || beAt m 0 4 != 0x574B554D || 2 < form || 7 < op || 1 < msgByte m 11 || !msgZero m 13 3 || !msgZero m 252 4 ||
  (op != 6 && msgByte m 12 != 0) || (form != 1 && !msgZero m 352 96) || (!(form = 1 && opCarries op) && !msgZero m 96 96) ||
  (form != 2 && !opCarries op && !msgZero m 192 60) || (!opCarries op && !msgZero m 204 32) ||
  (!(op = 6 && decide (d.key.lc = .blank)) && !msgZero m 256 96)
/-- KEYCT of a form-A message (R412): K_T is the first 256 bits of SHA-384 over the counter 1, the shared secret and bytes 0 to 95, which is
the one-step function of NIST SP 800-56C (PRESUMED, log entry 29). -/
def openFormA (ke m : Bytes) : Option Bytes :=
  let kt := cut (Config.hash 384 (beBytes 4 1 ++ Config.ecdh (cut m 96 96) ke ++ m.take 96)) 0 32
  Config.gcmOpen kt (cut m 192 12) (m.take 192) (cut m 204 32) (cut m 236 16)
/-- KEYCT of a form-B message under its Hazel (R413). -/
def openFormB (key m : Bytes) : Option Bytes := Config.gcmOpen key (cut m 192 12) (m.take 204) (cut m 204 32) (cut m 236 16)
/-- A key derived from its parent (R406). -/
def deriveKey (parent label : Bytes) (attr : Nat) : Bytes :=
  cut (Config.hmac256 parent (beBytes 4 1 ++ cut label 0 32 ++ [0, BitVec.ofNat 8 attr] ++ beBytes 4 0x100)) 0 32
/-- Step 3: the signature or the tag; a form-B message gives its key. -/
def msgAuth (d : Dev) (m : Bytes) : Option Bytes :=
  match msgByte m 4 with
  | 0 => if msgByte m 5 = 7 && (decide (d.key.lc = .blank) || decide (d.key.lc = .decommissioned)) then some [] else none
  | 1 =>
    let signer := if decide (d.key.lc = .blank) then cut m 256 96 else d.key.owner
    if Config.verify signer (Config.hash 384 (m.take 352)) (cut m 352 96) then some [] else none
  | _ => if isHazel (beAt m 8 2) then (slotAt d (beAt m 8 2)).bind fun k => openFormB k.key m else none
/-- Step 4: COUNTER is not greater than the stored one. -/
def msgStale (d : Dev) (m : Bytes) : Bool :=
  match msgByte m 4 with
  | 0 => false
  | 1 => msgCounter m ≤ d.key.ownerCtr.toNat
  | _ => (slotAt d (beAt m 8 2)).any fun k => msgCounter m ≤ k.wrap.toNat
/-- A parent slot must be VALID and of one of some attributes. -/
def parentFault (d : Dev) (ref : Nat) (level : Bool) (attrs : List Nat) : Option Status :=
  if !level then some .badParam
  else match slotAt d ref with
    | none => some .badParam
    | some k =>
      if decide (k.state = .orphaned) then some .keyOrphaned
      else if decide (k.state = .valid) && attrs.contains k.attr then none
      else some .badParam
/-- Step 7: PARENT. -/
def msgParentFault (d : Dev) (m : Bytes) : Option Status :=
  let p := beAt m 8 2
  match msgByte m 5 with
  | 1 => parentFault d p (p = 0) [4]
  | 2 => parentFault d p (p = 0) [4]
  | 3 => parentFault d p (isHazel p) [4]
  | 4 => parentFault d p (isHazel p) (if msgByte m 4 = 2 then [3] else [3, 4])
  | 5 => if msgByte m 4 = 2 then parentFault d p (isHazel p) [3] else none
  | _ => none
/-- The life-cycle changes of Table 15-9. -/
def lcChangeOk (a : LifeCycle) (b : Nat) : Bool :=
  match a with
  | .blank => b = 1
  | .provisioned => b = 2 || b = 3
  | .field => b = 1 || b = 3
  | .decommissioned => b = 0
/-- Step 8: TARGET, ATTR, level and form agree with Tables 15-1, 15-3 and 15-9; an occupied TARGET needs REPLACE. -/
def msgTargetFault (d : Dev) (m : Bytes) : Option Status :=
  let op := msgByte m 5
  let form := msgByte m 4
  let t := msgTarget m
  let a := msgByte m 10
  let hazel := isHazel t && (a = 3 || a = 4)
  let pip := isPip t && 1 ≤ a && a ≤ 3
  let fits := match op with
    | 0 => form = 1 && t = 0 && a = 4
    | 1 => form = 1 && hazel
    | 2 => form = 1 && hazel
    | 3 => form = 1 && pip
    | 4 => pip
    | 5 => if form = 2 then isPip t && (slotAt d t).any (fun k => k.parent.toNat == beAt m 8 2) else isHazel t || isPip t
    | 6 => form = 1 && lcChangeOk d.key.lc (msgByte m 12)
    | _ => form = (if decide (d.key.lc = .blank) || decide (d.key.lc = .decommissioned) then 0 else 1)
  if !fits then some .badParam
  else if op ≤ 4 && (slotAt d t).isSome && msgByte m 11 = 0 then some .busy
  else none
/-- The checks of Table 15-4 in order: the status of the first that fails, or the key that the message carries. -/
def msgChecks (d : Dev) (m : Bytes) : Status ⊕ Option Bytes :=
  let op := msgByte m 5
  let form := msgByte m 4
  if msgFieldsBad d m then .inl .badParam
  else if form = 1 && d.key.drbgDead then .inl .internalFault
  else if beAt m 48 8 != d.gbl.eui.toNat || cut m 56 32 != Config.hash 256 (Config.identity ()).1 then .inl .authFail
  else match msgAuth d m with
    | none => .inl .authFail
    | some k =>
      if msgStale d m then .inl .counterStale
      else if op ≤ 5 && !(decide (d.key.lc = .provisioned) || decide (d.key.lc = .field)) then .inl .notPermitted
      else if (op = 0 || op = 6 || op = 7) && !d.tmp.presence then .inl .presenceRequired
      else match msgParentFault d m with
        | some st => .inl st
        | none => match msgTargetFault d m with
          | some st => .inl st
          | none =>
            if !opCarries op then .inr none
            else if form = 2 then .inr (some (cut k 0 32))
            else match openFormA d.key.ke m with
              | none => .inl .authFail
              | some k => .inr (some (cut k 0 32))
/-- A message is refused: counted, and logged at most 16 times per TAI second (R431). -/
def refuseUpdate (m : Bytes) (st : Status) (d : Dev) : Dev :=
  let d := match st with
    | .authFail => setFlag 0x17 2 (keyCnt 1 d)
    | .counterStale => setFlag 0x17 3 (keyCnt 2 d)
    | .keyOrphaned => keyCnt 4 (keyCnt 3 d)
    | _ => keyCnt 3 d
  let n := if d.key.rejects.1 = d.tod.sec then d.key.rejects.2 else 0
  let d := { d with key := { d.key with rejects := (d.tod.sec, n + 1) } }
  if n < 16 then logEv 0x1702 (msgByte m 5) (statusCode st) (msgTarget m) d else d
/-- KEY_UPDATE (R414, R415): one message at a time; an accepted one waits for its commit. -/
def execKeyUpdate (h : Hdr) (addr : W64) (len : W16) (msg : Bytes) (readOk : Bool) : State → Host.Outcome State Fault Refusal :=
  cmd h 0x0902 (pk addr ++ pk len) true fun d =>
    if d.key.update.isSome || d.key.changing.isSome then reject .busy d
    else if !readOk then reject .internalFault d
    else
      let m := cut msg 0 len.toNat
      match msgChecks d m with
      | .inl st => reject st (refuseUpdate m st d)
      | .inr k => goesOn { d with key := { d.key with update := some { chan := h.chan, seq := h.seq, msg := m, key := k } } }

/-! ### The commit (R411, R415 to R417, R427, R429) -/

/-- A descendant of a slot (R416). -/
def isUnder (ref : Nat) (e : Nat × KeySlot) : Bool :=
  if ref = 0 then isHazel e.1 || isPip e.1 else isPip e.1 && e.2.parent.toNat == ref
/-- Orphan marks on the descendants of a slot. -/
def orphanMarks (ref : Nat) (l : NMap KeySlot) : NMap KeySlot :=
  l.map fun e => if isUnder ref e && !decide (e.2.state = .empty) then (e.1, { e.2 with state := .orphaned }) else e
/-- Every descendant of a slot is orphaned, in the vault and in MRAM (R416). -/
def orphanUnder (ref : Nat) (d : Dev) : Dev :=
  let n := (d.key.stored.filter fun e => isUnder ref e && decide (e.2.state = .valid)).length
  let pips := (d.key.slots.filter fun e => isPip e.1 && isUnder ref e &&
    (decide (e.2.state = .valid) || decide (e.2.state = .failed))).map fun e => e.1 - 0x8000
  let d := { d with key := { d.key with slots := orphanMarks ref d.key.slots, stored := orphanMarks ref d.key.stored } }
  let d := pips.foldl (fun d p => keyLost p 1 d) d
  if n = 0 then d else logEv 0x1703 ref n 0 (setFlag 0x17 1 d)
/-- A slot's record written to MRAM, and to the vault unless that is ZEROIZED. -/
def putSlot4 (ref : Nat) (k : Option KeySlot) (d : Dev) : Dev :=
  let set (l : NMap KeySlot) : NMap KeySlot := match k with | some k => mset l ref k | none => mdel l ref
  { d with key := { d.key with
    stored := set d.key.stored
    storedKs := d.key.ks
    slots := if decide (d.key.vault = .zeroized) then d.key.slots else set d.key.slots } }
/-- What a slot held is invalidated: its descendants are orphaned. -/
def invalidateSlot (ref : Nat) (d : Dev) : Dev :=
  if (mfind d.key.stored ref).isSome && (ref = 0 || isHazel ref) then orphanUnder ref d else d
/-- The new record of an installing operation. -/
def newSlot (m : Bytes) (origin : Nat) (key : Bytes) : KeySlot :=
  { state := .valid, attr := msgByte m 10, parent := BitVec.ofNat 16 (beAt m 8 2), origin := origin, label := cut m 16 32, wrap := 0,
    key := key }
/-- The key of a slot. -/
def slotKey (d : Dev) (ref : Nat) : Bytes := ((slotAt d ref).map KeySlot.key).getD []
/-- A key derived from the message's PARENT (R406). -/
def derivedKey (m : Bytes) (d : Dev) : Bytes := deriveKey (slotKey d (beAt m 8 2)) (cut m 16 32) (msgByte m 10)
/-- A Pip gets a new record, or none. What the old key served and the new record does not permit any more loses its key, with cause 0 (DEDUCED
from R405; log entry 29). -/
def changePip (ref : Nat) (k : Option KeySlot) (d : Dev) : Dev :=
  let was := (slotAt d ref).map KeySlot.attr
  let d := putSlot4 ref k d
  if was.isNone || k.map KeySlot.attr = was then d else keyLost (ref - 0x8000) 0 d
/-- The counter of the message's form advances (R412, R413). -/
def takeCounter (m : Bytes) (d : Dev) : Dev :=
  let c := BitVec.ofNat 64 (msgCounter m)
  let up (l : NMap KeySlot) : NMap KeySlot := match mfind l (beAt m 8 2) with
    | some k => mset l (beAt m 8 2) { k with wrap := c }
    | none => l
  match msgByte m 4 with
  | 0 => d
  | 1 => { d with key := { d.key with ownerCtr := c } }
  | _ => { d with key := { d.key with slots := up d.key.slots, stored := up d.key.stored } }
/-- ACORN_GEN: a new Acorn and a new KE. -/
def commitAcorn (m : Bytes) (d : Dev) : Dev :=
  let d := invalidateSlot 0 d
  let (key, d) := drbgBytes 32 d
  let (ke, d) := drbgBytes 48 d
  let d := putSlot4 0 (some { newSlot m 0 key with parent := 0 }) d
  logEv 0x1707 (msgCounter m % 2 ^ 32) 0 0 { d with key := { d.key with
    storedKe := ke
    ke := if decide (d.key.vault = .zeroized) then d.key.ke else ke
    vault := if decide (d.key.vault = .zeroized) then .zeroized else .ready } }
/-- LC_CHANGE: logged at once, the CHANGING mark is written, and the vault is zeroized (R427 steps 1 and 2). -/
def commitLcChange (m : Bytes) (d : Dev) : Dev :=
  let d := flushLog false (logEv 0x1709 (lcNum d.key.lc) (msgByte m 12) 0 d)
  zeroizeLine { d with key := { d.key with changing := some (lcOf (msgByte m 12)), newOwner := cut m 256 96 } }
/-- DEBUG_UNLOCK: the vault is zeroized until reset; KS and the stored tree stay (R429). -/
def commitDebug (d : Dev) : Dev :=
  logEv 0x1708 (lcNum d.key.lc) 0 0 (zeroizeVault { d with key := { d.key with debug := true } })
/-- The effect of an operation (Table 15-3). -/
def commitOp (m : Bytes) (key : Option Bytes) (d : Dev) : Dev :=
  let t := msgTarget m
  match msgByte m 5 with
  | 0 => commitAcorn m d
  | 1 => putSlot4 t (some (newSlot m 1 (derivedKey m d))) (invalidateSlot t (keyCnt 6 d))
  | 2 => putSlot4 t (some (newSlot m 2 (key.getD []))) (invalidateSlot t d)
  | 3 => changePip t (some (newSlot m 1 (derivedKey m d))) (keyCnt 6 d)
  | 4 => changePip t (some (newSlot m 2 (key.getD []))) d
  | 5 => if isPip t then changePip t none d else putSlot4 t none (invalidateSlot t d)
  | 6 => commitLcChange m d
  | _ => commitDebug d
/-- KEY_UPDATE_COMMIT (R415): the transaction commits, and the command completes OK. -/
def execKeyUpdateCommit : State → Host.Outcome State Fault Refusal := runLive fun d =>
  match d.key.update with
  | none => d
  | some u =>
    if stalledIn d 4 then d
    else
      let d := takeCounter u.msg { d with key := { d.key with update := none } }
      let d := commitOp u.msg u.key d
      let d := logEv 0x1701 (msgByte u.msg 5) (msgTarget u.msg) (msgCounter u.msg % 2 ^ 32) (keyCnt 0 d)
      match executingOn d u.chan with
      | some e => finishExec e .ok [] d
      | none => d
/-- The message in progress is dropped before its commit word, and its command completes with a status (R422, R444, R452). -/
def dropUpdate (st : Status) (d : Dev) : Dev :=
  match d.key.update with
  | none => d
  | some u =>
    let d := { d with key := { d.key with update := none } }
    let d := if decide (st = .aborted) then keyCnt 11 d else d
    match executingOn d u.chan with
    | some e => finishExec e st [] d
    | none => d
/-- LC_CHANGE_COMPLETE (R427 steps 3 to 6): a new KS, the wiped areas of MRAM, the new state, and a device reset. -/
def execLcChangeComplete : State → Host.Outcome State Fault Refusal := runLive fun d =>
  match d.key.changing with
  | none => d
  | some n =>
    let owner := if decide (d.key.lc = .blank) then d.key.newOwner else if decide (n = .blank) then [] else d.key.owner
    deviceReset 5 { d with
      key := { d.key with ks := some d.key.ksNext, ksNext := d.key.ksNext + 1, stored := [], storedKe := [], storedKs := none,
                          lc := n, changing := none, owner := owner, newOwner := [] }
      cmd := { d.cmd with store := [], storeSchema := 0, storePending := none }
      mtr := { d.mtr with saves := [] } }

/-! ### Start-up (R407, R418, R427) -/

/-- The derived keys of one level derived again (R406). -/
def rederive (level : Nat → Bool) (l : NMap KeySlot) : NMap KeySlot :=
  l.map fun e =>
    if level e.1 && e.2.origin = 1 && decide (e.2.state = .valid) then
      (e.1, { e.2 with key := deriveKey (((mfind l e.2.parent.toNat).map KeySlot.key).getD []) e.2.label e.2.attr })
    else e
/-- The key tree is restored (R407), or its area cannot be recovered and is erased; DECOMMISSIONED disables the vault. -/
def keyRestore (d : Dev) : Dev :=
  let d := { d with key := { d.key with lcRead := true, identity := true } }
  let lost (why : Nat) (d : Dev) : Dev := logEv 0x1706 why 0 0 (setFlag 0x17 5
    { d with key := { d.key with stored := [], storedKe := [], storedKs := none, slots := [], ke := [], vault := .empty } })
  if decide (d.key.lc = .decommissioned) then d
  else if d.key.ks.isNone then lost 0 d
  else if !d.key.stored.isEmpty && d.key.storedKs != d.key.ks then lost 1 d
  else
    let l := rederive isPip (rederive isHazel d.key.stored)
    let count (level : Nat → Bool) (st : SlotState4) : Nat := (l.filter fun e => level e.1 && decide (e.2.state = st)).length
    logEv 0x1705 (count isHazel .valid) (count isPip .valid) (count (fun _ => true) .orphaned)
      { d with key := { d.key with slots := l, ke := d.key.storedKe, vault := .ready } }

/-! ### Slot checks, shares and the DRBG (R408, R409) -/

/-- One Pip fails its check. -/
def pipFails (d : Dev) (r : W16) : Dev :=
  match mfind d.key.slots r.toNat with
  | some k =>
    if isPip r.toNat && decide (k.state = .valid) then
      let d := { d with key := { d.key with slots := mset d.key.slots r.toNat { k with state := .failed } } }
      keyLost (r.toNat - 0x8000) 0 (logEv 0x1704 r.toNat 0 0 (setFlag 0x17 0 (keyCnt 5 d)))
    else d
  | none => d
/-- KEY_SLOT_SCRUB: the Pips whose check value no longer holds become FAILED. -/
def execKeySlotScrub (bad : List W16) : State → Host.Outcome State Fault Refusal := runLive fun d =>
  if decide (d.key.vault = .ready) && !stalledIn d 4 then bad.foldl pipFails d else d
/-- One key's shares masked anew. -/
def remask (ref : Nat) (d : Dev) : Dev :=
  let (b, d) := drbgBytes 32 d
  match mfind d.key.slots ref with
  | some k => { d with key := { d.key with slots := mset d.key.slots ref { k with share := b } } }
  | none => d
/-- SHARE_REMASK: the shares of the Acorn and the Hazels take fresh DRBG output. -/
def execShareRemask : State → Host.Outcome State Fault Refusal := runLive fun d =>
  if decide (d.key.vault = .ready) && !d.key.drbgDead && !stalledIn d 4 then
    ((d.key.slots.filter fun e => !isPip e.1).map Prod.fst).foldl (fun d r => remask r d) d
  else d
/-- KEY_DRBG_FAULT: an entropy health test fails, and the DRBG stops until the next reset. -/
def execKeyDrbgFault (test : W32) : State → Host.Outcome State Fault Refusal := runLive fun d =>
  if d.key.drbgDead then d else logEv 0x170A test.toNat 0 0 { d with key := { d.key with drbgDead := true } }

/-! ### Reports (R404, R409, R418, R419) -/

/-- TMP_STAT. -/
def tmpStat (d : Dev) : Nat :=
  b2n d.tmp.presence * 2 ^ 31 + b2n d.tmp.presPin * 2 ^ 30 + d.tmp.open_.toNat * 2 ^ 16 + d.tmp.latch.toNat * 256 + d.tmp.enabled.toNat
/-- SHA-256 of the owner public key, or 0. -/
def ownerHash (d : Dev) : Bytes := if d.key.owner.isEmpty then List.replicate 32 0 else cut (Config.hash 256 d.key.owner) 0 32
/-- KEY_STATUS: KEY_STAT, the owner counter, the owner key hash and TMP_STAT. -/
def execKeyStatus (h : Hdr) : State → Host.Outcome State Fault Refusal :=
  cmdPlain h 0x0901 [] fun d =>
    okayWith (leBytes 4 (keyStat d) ++ leBytes 8 d.key.ownerCtr.toNat ++ ownerHash d ++ leBytes 4 (tmpStat d)) d
/-- KEY_SLOT_STATUS: state, attribute, origin, parent, label and wrap counter; an EMPTY slot shows 0. -/
def execKeySlotStatus (h : Hdr) (slot : W16) : State → Host.Outcome State Fault Refusal :=
  cmdPlain h 0x0903 (pk slot) fun d =>
    checks [(!refOk slot.toNat, .badParam)] (fun d =>
      okayWith (match slotAt d slot.toNat with
        | some k => leBytes 1 (slotNum k.state) ++ leBytes 1 k.attr ++ leBytes 1 k.origin ++ pk k.parent ++ cut k.label 0 32 ++ pk k.wrap
        | none => List.replicate 45 0) d) d
/-- No part of a slot's key has entered the device from outside: its origin and every ancestor's is GENERATED or DERIVED. -/
def keyInternal (d : Dev) (ref : Nat) : Bool :=
  let own (r : Nat) : Bool := (slotAt d r).any fun k => k.origin != 2
  let up (r : Nat) : Nat := ((slotAt d r).map fun k => k.parent.toNat).getD 0
  own ref && own (up ref) && own (up (up ref))
/-- Bytes 0 to 239 of the attestation statement (Table 15-5), multi-byte fields big-endian (log entry 29). -/
def attestation (d : Dev) (ref : Nat) (nonce : Bytes) : Bytes :=
  let s := slotAt d ref
  let num (f : KeySlot → Nat) : Nat := (s.map f).getD 0
  beBytes 4 0x574B4154 ++ beBytes 1 1 ++ beBytes 1 (lcNum d.key.lc) ++ beBytes 2 ref ++ beBytes 1 (num fun k => slotNum k.state) ++
  beBytes 1 (num KeySlot.attr) ++ beBytes 1 (num KeySlot.origin) ++ beBytes 1 (1 + 2 * b2n (keyInternal d ref)) ++
  beBytes 2 (num fun k => k.parent.toNat) ++ beBytes 2 d.tmp.count.toNat ++ cut ((s.map KeySlot.label).getD []) 0 32 ++
  beBytes 8 d.gbl.eui.toNat ++ beBytes 8 d.key.ownerCtr.toNat ++
  (match s with
    | some k => if decide (k.state = .valid) then cut (Config.hmac256 k.key (List.replicate 32 0)) 0 8 else List.replicate 8 0
    | none => List.replicate 8 0) ++
  cut nonce 0 32 ++ ownerHash d ++ beBytes 6 d.tod.sec.toNat ++ beBytes 1 (stateCode d.tod.state) ++ [0] ++
  (if ref = 0 && !d.key.ke.isEmpty then cut (Config.kePublic d.key.ke) 0 96 else List.replicate 96 0)
/-- KEY_ATTEST. Without the DRBG or the derived identity key it cannot sign. -/
def execKeyAttest (h : Hdr) (slot : W16) (nonce : Bytes) (addr : W64) : State → Host.Outcome State Fault Refusal :=
  cmd h 0x0904 (pk slot ++ cut nonce 0 32 ++ pk addr) true fun d =>
    checks [(!refOk slot.toNat, .badParam), (d.key.drbgDead || !d.key.identity, .internalFault)] (fun d =>
      let b := attestation d slot.toNat nonce
      okay (hostWrite addr (b ++ cut (Config.sign d.draws (Config.hash 384 b)) 0 96) (useDrbg (keyCnt 7 { d with draws := d.draws + 1 })))) d
/-- KEY_IDENTITY: EUI-64, public key and certificate, into a host buffer long enough for them. -/
def execKeyIdentity (h : Hdr) (addr : W64) (len : W32) : State → Host.Outcome State Fault Refusal :=
  cmd h 0x0905 (pk addr ++ pk len) true fun d =>
    let id := Config.identity ()
    let b := beBytes 8 d.gbl.eui.toNat ++ cut id.1 0 96 ++ id.2
    checks [(len.toNat < b.length, .badParam)] (fun d => okay (hostWrite addr b d)) d
/-- KEY_RANDOM. -/
def execKeyRandom (h : Hdr) (count : Byte) : State → Host.Outcome State Fault Refusal :=
  cmdPlain h 0x0906 (pk count) fun d =>
    checks [(count = 0 || 48 < count.toNat, .badParam), (d.key.drbgDead, .internalFault)] (fun d =>
      let (b, d) := drbgBytes count.toNat (keyCnt 10 d)
      okayWith b d) d

end Sys2Proof.Machine
end

