-- ==== Sys2Proof/Machine/Tamper.lean ====
section
/-!
DEFINITION. Tamper and presence (chapter 15, R420 to R424, R428; log entry 29).
-/
namespace Sys2Proof.Machine

/-- Departure is announced by a unit that is paired (R482, R529). -/
def depart (cause : Nat) (d : Dev) : Dev := if d.hrd.enabled then goingDown cause d else d

/-- Every output is three-stated and the lanes fall idle (Table 20-5: loader mode and TAMPERED). -/
def outputsOff (d : Dev) : Dev := emit .release (lanesIdle { d with tod := { d.tod with driving := false } })

/-- The device halts in TAMPERED (R423). -/
def enterTampered (d : Dev) : Dev :=
  let d := outputsOff (depart 3 d)
  { d with pwr := { d.pwr with run := .tampered }, cmd := { d.cmd with replay := { d.cmd.replay with running := false } } }

/-- The sources that act now: those enabled, GLITCH only while armed; VBAT_LOSS is found at power-up. -/
def tamperArmed (d : Dev) : Nat := d.tmp.enabled.toNat.land (if d.pwr.glitch then 0x3F else 0x1F)

/-- The always-on domain latches sources (R421). -/
def latchTamper (s context : Nat) (d : Dev) : Dev :=
  { d with tmp := { d.tmp with
    latch := d.tmp.latch ||| BitVec.ofNat 8 s
    active := d.tmp.active ||| BitVec.ofNat 8 s
    open_ := d.tmp.open_ ||| BitVec.ofNat 4 s
    context := context
    count := if d.tmp.count = 0xFFFF then d.tmp.count else d.tmp.count + 1
    last := d.tmp.aonSec } }

/-- TAMPER_DETECTED logged. -/
def logTamper (s context at_ : Nat) (d : Dev) : Dev := logEv 0x1801 s context at_ d

/-- The context of a tamper (Table 15-7): 0 running, 1 start-up, 2 DORMANT, 3 main power off. -/
def tamperContext (d : Dev) : Nat :=
  if d.pwr.held then (if d.pwr.supplies then 1 else 3)
  else match d.pwr.run with
    | .starting => 1
    | .loader => 1
    | .tampered => 1
    | .dormant => 2
    | .waking => 2
    | _ => 0

/-- A tamper while the device is held in reset: the always-on domain zeroizes KS and latches; the record waits for start-up. -/
def tamperHeld (s context : Nat) (d : Dev) : Dev :=
  let d := { latchTamper s context d with key := { d.key with ks := none } }
  if context = 3 then
    let was := (d.tmp.pending.map Prod.fst).getD 0
    { d with tmp := { d.tmp with pending := some (was ||| BitVec.ofNat 8 s, d.tmp.last), active := 0, open_ := 0 } }
  else d

/-- TAMPER_DETECTED (R421, R422): a source has been active for its filter time. -/
def execTamperDetected (sources : Byte) : State → Host.Outcome State Fault Refusal := run fun d =>
  let s := sources.toNat.land (tamperArmed d)
  let c := tamperContext d
  if s = 0 then d
  else if d.pwr.held then tamperHeld s c d
  else
    let d := zeroizeLine (dropUpdate .aborted (latchTamper s c d))
    let d := logTamper s c d.tmp.last.toNat d
    if decide (d.pwr.run = .starting) then enterTampered d else d

/-- What start-up makes of tampers (Table 15-7): those of the time without main power, VBAT_LOSS, and the sources active at reset
release, which lead to TAMPERED. `lost` says that the always-on domain had lost its supplies. -/
def tamperAtStart (lost : Bool) (d : Dev) : Dev :=
  let d := match d.tmp.pending with
    | some (s, at_) => logTamper s.toNat 3 at_.toNat { d with tmp := { d.tmp with pending := none } }
    | none => d
  let d := if lost then logTamper 0x40 3 d.tmp.aonSec.toNat (latchTamper 0x40 3 d) else d
  let s := (d.tmp.active.toNat).land 0x3F
  if s = 0 then d else enterTampered (logTamper s 1 d.tmp.last.toNat d)

/-- PRESENCE_RECOGNISED: held for 2 s (R428). -/
def execPresenceRecognised : State → Host.Outcome State Fault Refusal :=
  run fun d => { d with tmp := { d.tmp with presPin := true, presence := true } }

/-- PRESENCE_RELEASED. -/
def execPresenceReleased : State → Host.Outcome State Fault Refusal :=
  run fun d => { d with tmp := { d.tmp with presPin := false, presence := false } }

/-! ### Commands (Table 15-12) -/

/-- A loop byte of TMP_CONFIG: bit 0 enable, bits [2:1] filter (log entry 11). -/
def loopBad (b : Byte) : Bool := 5 < b.toNat

/-- The enables that TMP_CONFIG gives. -/
def tmpEnables (loops : Bytes) (internal : Byte) : Byte :=
  BitVec.ofNat 8 ((List.range 4).foldl (fun n i => n + ((loops.getD i 0).toNat % 2) * 2 ^ i) internal.toNat)

/-- The filters that TMP_CONFIG gives. -/
def tmpFilters (loops : Bytes) : List (BitVec 2) := (List.range 4).map fun i => BitVec.ofNat 2 ((loops.getD i 0).toNat / 2)

/-- Some source is disabled, or some filter lengthened (R420). -/
def tmpWeakens (d : Dev) (en : Byte) (fs : List (BitVec 2)) : Bool :=
  (d.tmp.enabled &&& ~~~ en) != 0 || (List.range 4).any fun i => (d.tmp.filters.getD i 0).toNat < (fs.getD i 0).toNat

/-- TMP_CONFIG (R420). The internal byte has the bits of Table 15-6. -/
def execTmpConfig (h : Hdr) (loops : List Byte) (internal : Byte) : State → Host.Outcome State Fault Refusal :=
  cmdPlain h 0x0910 (cut loops 0 4 ++ pk internal) fun d =>
    let en := tmpEnables loops internal
    let fs := tmpFilters loops
    checks [((cut loops 0 4).any loopBad || (internal &&& 0x8F) != 0, .badParam), (tmpWeakens d en fs && !d.tmp.presence, .presenceRequired)]
      (fun d => okay (logEv 0x1803 en.toNat ((List.range 4).foldl (fun n i => n + (fs.getD i 0).toNat * 4 ^ i) 0) 0
        { d with tmp := { d.tmp with enabled := en, filters := fs } })) d

/-- TMP_CLEAR (R424). -/
def execTmpClear (h : Hdr) : State → Host.Outcome State Fault Refusal :=
  cmdPlain h 0x0911 [] fun d =>
    checks [(!d.tmp.presence, .presenceRequired)] (fun d =>
      okay (logEv 0x1802 d.tmp.latch.toNat 0 0 { d with tmp := { d.tmp with latch := 0 } })) d

/-- TMP_STATUS: TMP_STAT, TMP_COUNT, TMP_LAST and the latched context. -/
def execTmpStatus (h : Hdr) : State → Host.Outcome State Fault Refusal :=
  cmdPlain h 0x0912 [] fun d =>
    okayWith (leBytes 4 (tmpStat d) ++ pk d.tmp.count ++ pk d.tmp.last ++ leBytes 1 d.tmp.context) d

end Sys2Proof.Machine
end

