-- ==== Sys2Proof/Machine/Sys.lean ====
section
/-!
DEFINITION. System commands, CMD_ABORT, firmware restarts, the configuration store and its replay (chapter 16, R444 to R446, R452;
log entry 30).
-/
namespace Sys2Proof.Machine

/-! ### Identification (Table 16-6) -/

/-- VERSION of an image in 8 bytes: MAJOR, MINOR, PATCH, BUILD. -/
def versionBytes (x : ImageHdr) : Bytes := [x.major, x.minor] ++ pk x.patch ++ pk x.build

/-- SYS_IDENTIFY: the 27 reply bytes of Table 19-11. -/
def execSysIdentify (h : Hdr) : State → Host.Outcome State Fault Refusal :=
  cmdPlain h 0x0101 [] fun d =>
    let x := runningImage d
    okayWith (pk d.gbl.eui ++ leBytes 2 0x6400 ++ [1] ++ versionBytes x ++ pk x.schema ++ pk x.svn ++ pk d.cmd.fawnVersion ++
      leBytes 1 (lcNum d.key.lc) ++ leBytes 1 (b2n d.cmd.loader)) d

/-- SYS_NOP: the bytes come back. -/
def execSysNop (h : Hdr) (data : Bytes) : State → Host.Outcome State Fault Refusal :=
  cmdPlain h 0x0103 data fun d => checks [(48 < data.length, .badLength)] (okayWith data) d

/-! ### Reset by command (R522) -/

/-- SYS_RESET: the completion is written, and the device reset follows after the delay. -/
def execSysReset (h : Hdr) (delay : W32) : State → Host.Outcome State Fault Refusal :=
  cmdPlain h 0x0104 (pk delay) fun d =>
    checks [(1000 < delay.toNat, .badParam)] (fun d => okay { d with pwr := { d.pwr with resetDelay := some (opNs d + delay.toNat * 1000000) } }) d

/-- SYS_RESET_DELAY_EXPIRY: departure is announced, and the device resets with cause 3. -/
def execSysResetDelayExpiry : State → Host.Outcome State Fault Refusal := runLive fun d =>
  match d.pwr.resetDelay with
  | some t => deviceReset 3 (depart 2 (waitUntil d t))
  | none => d

/-! ### CMD_ABORT (R444) -/

/-- Work of an abortable command goes on for a channel. -/
def workOn (d : Dev) (chan : Nat) (e : Executing) : Bool :=
  let has (l : List LoadRun) : Bool := l.any fun x => x.chan == chan
  has d.dir.loads || has d.est.loads || has d.osc.loads || has d.isl.loads || d.key.update.any (fun u => u.chan == chan) ||
  (e.op = 0x0105 && d.cmd.storePending.isSome)
/-- The work of a channel is dropped with no effect. -/
def dropWork (chan : Nat) (e : Executing) (d : Dev) : Dev :=
  let keep (l : List LoadRun) : List LoadRun := l.filter fun x => x.chan != chan
  { d with
    dir := { d.dir with loads := keep d.dir.loads }
    est := { d.est with loads := keep d.est.loads }
    osc := { d.osc with loads := keep d.osc.loads }
    isl := { d.isl with loads := keep d.isl.loads }
    cmd := { d.cmd with storePending := if e.op = 0x0105 then none else d.cmd.storePending } }
/-- A packet or message not yet accepted on a channel carries a SEQ. -/
def waitsOn (d : Dev) (chan : Nat) (seq : W32) : Bool :=
  if chan < 16 then (pairOf d chan).fetched.any fun f => packetSeq f.packet == seq
  else
    let x := mboxOf d (inMbox chan)
    (x.full && mget 0 x.data 1 == seq) || ((executingOn d chan).isNone && x.taken.any fun t => packetSeq t.packet == seq)
/-- CMD_ABORT names it: it completes ABORTED in its turn. -/
def markAbort (chan : Nat) (seq : W32) (d : Dev) : Dev :=
  if chan < 16 then
    let q := pairOf d chan
    setPair d chan { q with fetched := q.fetched.map fun f => if packetSeq f.packet == seq then { f with abort := true } else f }
  else
    let x := mboxOf d (inMbox chan)
    setMbox d (inMbox chan) { x with
      abort := x.abort || (x.full && mget 0 x.data 1 == seq)
      taken := x.taken.map fun t => { t with abort := t.abort || packetSeq t.packet == seq } }
/-- The outcomes of Table 16-4. -/
def abortCmd (h : Hdr) (chan : Nat) (seq : W32) (d : Dev) : Answer :=
  if waitsOn d chan seq then okay (markAbort chan seq d)
  else match executingOn d chan with
    | none => reject .nothingToAbort d
    | some e =>
      if e.hdr.seq != seq || chan = h.chan then reject .nothingToAbort d
      else if e.abortable && workOn d chan e then
        if d.key.update.any (fun u => u.chan == chan) then okay (dropUpdate .aborted d)
        else okay (finishExec e .aborted [] (dropWork chan e d))
      else goesOn { d with cmd := { d.cmd with aborts := d.cmd.aborts ++ [{ chan := h.chan, target := chan, seq := seq }] } }

/-- CMD_ABORT. -/
def execCmdAbort (h : Hdr) (chan : Byte) (seq : W32) : State → Host.Outcome State Fault Refusal :=
  cmdPlain h 0x0102 (pk chan ++ pk seq) fun d =>
    let n := chan.toNat
    checks [(23 < n, .badParam), (secureChan n && !secureChan h.chan, .notPermitted)] (abortCmd h n seq) (cmdCnt 4 d)

/-! ### Firmware restart (R452) -/

/-- A command that executes at a restart ends with INTERNAL_FAULT; its work has no effect. -/
def restartOne (d : Dev) (e : Executing) : Dev :=
  let d := dropWork e.hdr.chan e { d with
    hrd := { d.hrd with forwarded := d.hrd.forwarded.filter fun f => f.hdr.chan != e.hdr.chan }
    mtr := { d.mtr with test := if d.mtr.test.any (fun t => t.chan == e.hdr.chan) then none else d.mtr.test } }
  if d.key.update.any (fun u => u.chan == e.hdr.chan) then dropUpdate .internalFault d
  else finish e.hdr e.op.toNat e.params .internalFault [] d
/-- The control processors restart: `cause` is 0 watchdog, 1 command. -/
def fwRestart (cause op : Nat) (d : Dev) : Dev :=
  let d := { d with cmd := { d.cmd with fwRestarting := true, restartDue := false } }
  let d := d.cmd.executing.foldl restartOne d
  logEv 0x1906 cause op 0 (mbxRestart (cmdCnt 9 d))
/-- The opcode that executes, or 0. -/
def opNow (d : Dev) : Nat := ((d.cmd.executing.head?).map fun e => e.op.toNat).getD 0

/-- FW_WATCHDOG: the firmware has given no service for 1 s. The third watchdog restart within 60 s of the first is a device reset. -/
def execFwWatchdog : State → Host.Outcome State Fault Refusal := runLive fun d =>
  if !d.cmd.fwUp || d.cmd.fwRestarting then d
  else
    let recent := d.cmd.watchdogs.filter fun t => optSince d t ≤ 60000
    if 2 ≤ recent.length then deviceReset 4 (depart 2 (logEv 0x1906 2 (opNow d) 0 d))
    else fwRestart 0 (opNow d) { d with cmd := { d.cmd with watchdogs := d.log.opt :: recent } }

/-- SYS_FW_RESTART: the completion is written, then the restart follows. -/
def execSysFwRestart (h : Hdr) : State → Host.Outcome State Fault Refusal := run fun d =>
  if !canAccept d h 0x0108 [] then d
  else
    let d := acceptCmd h 0x0108 [] false noBlock (fun d => okay { d with cmd := { d.cmd with restartDue := true } }) d
    if d.cmd.restartDue then fwRestart 1 0x0108 d else d

/-! ### The configuration store (R33, R165, R445) -/

/-- Bytes one half of the store holds. -/
def storeMax : Nat := 16777216
/-- Bytes the stored batches take. -/
def storeUsed (d : Dev) : Nat := (d.cmd.store.map fun b => b.image.length).sum
/-- BASE_GEN that the next batch must have: TARGET_GEN of the last one, or 0. -/
def storeBase (d : Dev) : W16 := (d.cmd.store.getLast?.map StoredBatch.targetGen).getD 0

/-- CFG_STORE_WRITE (R445): an append that ends with its commit word; a packet of the replay may name a section of its batch. A second one
meanwhile is BUSY. -/
def execCfgStoreWrite (h : Hdr) (addr : W64) (len : W32) (kind : Byte) (batch : Bytes) (readOk : Bool) :
    State → Host.Outcome State Fault Refusal :=
  cmd h 0x0105 (pk addr ++ pk len ++ pk kind) (kind = 0) fun d =>
    let given := if kind = 1 then replaySection d addr.toNat else some batch
    if 1 < kind.toNat || (kind = 1 && h.chan != 24) || given.isNone then reject .badParam d
    else if d.cmd.storePending.isSome then reject .busy d
    else if kind = 0 && !readOk then reject .internalFault d
    else
      let b := cut (given.getD []) 0 len.toNat
      let x : StoredBatch := { image := b }
      checks [(batchBad x || x.schema != (runningImage d).schema || x.baseGen != storeBase d, .badParam),
        (storeMax < storeUsed d + b.length, .noResource)]
        (fun d => goesOn { d with cmd := { d.cmd with storePending := some x } }) d

/-- CFG_STORE_COMMIT: the commit word is written, and the append completes. -/
def execCfgStoreCommit : State → Host.Outcome State Fault Refusal := runLive fun d =>
  match d.cmd.storePending with
  | none => d
  | some b =>
    if !softRuns d then d
    else
      let d := { d with cmd := { d.cmd with store := d.cmd.store ++ [b], storePending := none } }
      match d.cmd.executing.find? fun e => e.op == 0x0105 with
      | some e => finishExec e .ok [] d
      | none => d

/-- CFG_STORE_CLEAR: the store is empty, under the schema of the running image. -/
def execCfgStoreClear (h : Hdr) : State → Host.Outcome State Fault Refusal :=
  cmdPlain h 0x0106 [] fun d =>
    checks [(d.cmd.storePending.isSome, .busy)]
      (fun d => okay { d with cmd := { d.cmd with store := [], storeSchema := (runningImage d).schema } }) d

/-- CFG_STORE_STATUS: batch count, bytes used, the store's schema and the result of the last replay. -/
def execCfgStoreStatus (h : Hdr) : State → Host.Outcome State Fault Refusal :=
  cmdPlain h 0x0107 [] fun d =>
    okayWith (leBytes 4 d.cmd.store.length ++ leBytes 4 (storeUsed d) ++ pk d.cmd.storeSchema ++ leBytes 1 d.cmd.replay.result) d

/-! ### Replay (R446) -/

/-- The ordinal of the tick that begins two ticks after the counter's. -/
def replayTick (d : Dev) : Nat := nowOrd d + 2
/-- The replay stops at a batch, which is rejected as a whole, or at its switch: the log has the batch's ordinal, the status, and a packet
ordinal, in whose place a rejected batch gives its CRC (R166; log entry 33). -/
def replayFails (packet : Nat) (st : Status) (d : Dev) : Dev :=
  logEv 0x1908 d.cmd.replay.next packet (statusCode st) { d with cmd := { d.cmd with replay := { d.cmd.replay with running := false, result := 2 } } }
/-- CFG_REPLAY_BATCH: once every packet of the batch has completed, its generation is switched to; after the last batch has retired its
predecessor, the replay is done. A batch whose CRC, SCHEMA_VER or BASE_GEN does not fit is rejected (R166). -/
def execCfgReplayBatch : State → Host.Outcome State Fault Refusal := runLive fun d =>
  let r := d.cmd.replay
  if !r.running || d.clk.pending.isSome || d.clk.retiring.isSome || !softRuns d then d
  else match d.cmd.store[r.next]? with
    | none => logEv 0x1907 r.next d.clk.gen.toNat 0 { d with cmd := { d.cmd with replay := { r with running := false, result := 1 } } }
    | some b =>
      if !replayTakes d b then replayFails b.crc .badParam d
      else if r.packet < b.packets.length then d
      else
        let t := replayTick d
        let a := genSwitch b.targetGen (BitVec.ofNat 48 (t / 3600)) (t % 3600) d
        match a.2 with
        | some (.ok, _) => { a.1 with cmd := { a.1.cmd with replay := { r with next := r.next + 1, packet := 0 } } }
        | some (st, _) => replayFails b.packets.length st a.1
        | none => a.1

end Sys2Proof.Machine
end

