-- ==== Sys2Proof/Machine/Fwl.lean ====
section
/-!
DEFINITION. The firmware image and its update (chapter 16, R453 to R458; log entry 30).
-/
namespace Sys2Proof.Machine

/-- Bytes a body has at most (R453). -/
def bodyMax : Nat := 20967424

/-- A header page as Fawn reads it (Table 16-9). -/
def imageHdrOf (b : Bytes) : ImageHdr :=
  { major := b.getD 6 0, minor := b.getD 7 0, patch := BitVec.ofNat 16 (leAt b 8 2), build := BitVec.ofNat 32 (leAt b 10 4),
    schema := BitVec.ofNat 16 (leAt b 14 2), svn := BitVec.ofNat 16 (leAt b 16 2), minFawn := BitVec.ofNat 16 (leAt b 18 2),
    bodyLen := leAt b 20 4, bodyHash := cut b 24 48, sigOk := Config.verify (Config.firmwareKey ()) (Config.hash 384 (b.take 416)) (cut b 416 96) }

/-- MAGIC, HDR_VER, BODY_LEN and the bytes that must be 0 (R456); STATE is not the header's (Table 16-9). -/
def imageHdrBad (b : Bytes) : Bool :=
  leAt b 0 4 != 0x49574657 || leAt b 4 2 != 1 || leAt b 20 4 = 0 || bodyMax < leAt b 20 4 || leAt b 20 4 % 4096 != 0 ||
  !allZero ((b.drop 72).take 344) || !allZero ((b.drop 520).take 3576)

/-- FWL_STAT. -/
def fwlStat (d : Dev) : Nat :=
  b2n d.cmd.loader * 2 ^ 31 + d.cmd.loaderCause.toNat * 2 ^ 28 + b2n d.cmd.updOpen * 2 ^ 27 + b2n d.cmd.storedComplete * 2 ^ 26 +
  d.cmd.written.length

/-- MAJOR, MINOR and PATCH in one log parameter. -/
def versionWord (x : ImageHdr) : Nat := x.major.toNat * 2 ^ 24 + x.minor.toNat * 2 ^ 16 + x.patch.toNat

/-- The data of FW_BEGIN or FW_WRITE: a host buffer (kind 0) or the FWL window from offset 0 (kind 1, R458). -/
def fwSource (d : Dev) (kind : Byte) (host : Bytes) (n : Nat) : Bytes := if kind = 1 then windowBytes d.cmd.fwlWindow 0 n else cut host 0 n

/-- The FWL serves a 0x0Axx command of another channel (R456). -/
def fwlBusy (h : Hdr) (d : Dev) : Bool := d.cmd.executing.any fun e => e.op.toNat / 256 == 0x0A && e.hdr.chan != h.chan

/-- FW_BEGIN (R456): the checks in order; then the stored image is incomplete under its new header. -/
def execFwBegin (h : Hdr) (kind : Byte) (addr : W64) (header : Bytes) (readOk : Bool) : State → Host.Outcome State Fault Refusal :=
  cmd h 0x0A01 (pk kind ++ pk addr) (kind = 0) fun d =>
    let b := fwSource d kind header 4096
    let x := imageHdrOf b
    checks [(fwlBusy h d, .busy), (1 < kind.toNat, .badParam), (kind = 0 && !readOk, .internalFault), (imageHdrBad b, .badParam),
      (!x.sigOk, .authFail), (x.svn < d.cmd.minSvn, .counterStale), (x.schema < d.cmd.storeSchema, .notPermitted),
      (d.cmd.fawnVersion < x.minFawn, .notPermitted)]
      (fun d => okay (logEv 0x1901 (versionWord x) x.build.toNat x.svn.toNat
        { d with cmd := { d.cmd with storedComplete := false, stored := x, updOpen := true, written := [] } })) d

/-- 64-byte units written at a unit index. -/
def putUnits : Nat → List Bytes → NMap Bytes → NMap Bytes
  | _, [], m => m
  | i, b :: t, m => putUnits (i + 1) t (mset m i b)
/-- Units added to those written since FW_BEGIN. -/
def addUnits (l new : List Nat) : List Nat := l ++ new.filter fun i => !l.contains i

/-- FW_WRITE (R457). -/
def execFwWrite (h : Hdr) (offset len : W32) (kind : Byte) (addr : W64) (data : Bytes) (readOk : Bool) :
    State → Host.Outcome State Fault Refusal :=
  cmd h 0x0A02 (pk offset ++ pk len ++ pk kind ++ pk addr) (kind = 0) fun d =>
    let o := offset.toNat
    let n := len.toNat
    checks [(fwlBusy h d, .busy), (!d.cmd.updOpen, .notPermitted),
      (1 < kind.toNat || o % 64 != 0 || n < 64 || 1048576 < n || n % 64 != 0 || d.cmd.stored.bodyLen < o + n || (kind = 1 && 65536 < n),
        .badParam),
      (kind = 0 && !readOk, .internalFault)]
      (fun d =>
        let units := chunksOf 64 (n / 64) (fwSource d kind data n)
        okay { d with cmd := { d.cmd with
          body := putUnits (o / 64) units d.cmd.body
          written := addUnits d.cmd.written (rangeFrom (o / 64) (n / 64)) } }) d

/-- The stored body; a unit never written reads 0 (log entry 4). -/
def bodyBytes (d : Dev) : Bytes :=
  ((List.range (d.cmd.stored.bodyLen / 64)).map fun i => cut ((mfind d.cmd.body i).getD []) 0 64).flatten

/-- FW_FINISH (R457): on a match of the hash the image is complete, and takes effect at the next reset. -/
def execFwFinish (h : Hdr) : State → Host.Outcome State Fault Refusal :=
  cmdPlain h 0x0A03 [] fun d =>
    checks [(fwlBusy h d, .busy), (!d.cmd.updOpen, .notPermitted), (Config.hash 384 (bodyBytes d) != d.cmd.stored.bodyHash, .authFail)]
      (fun d => accepted (logEv 0x1902 (versionWord d.cmd.stored) d.cmd.stored.build.toNat 0
        { d with cmd := { d.cmd with storedComplete := true, bodyHashOk := true, updOpen := false } })) d

/-- FW_STATUS: FWL_STAT, the running and stored VERSION, SCHEMA_VER, SVN, MIN_SVN and the Fawn version. -/
def execFwStatus (h : Hdr) : State → Host.Outcome State Fault Refusal :=
  cmdPlain h 0x0A04 [] fun d =>
    let x := runningImage d
    okayWith (leBytes 4 (fwlStat d) ++ versionBytes x ++ versionBytes d.cmd.stored ++ pk x.schema ++ pk x.svn ++ pk d.cmd.minSvn ++
      pk d.cmd.fawnVersion) d

end Sys2Proof.Machine
end

