-- ==== Sys2Proof/Machine/Pcie.lean ====
section
/-!
DEFINITION. The PCIe endpoint and the local bus as a whole (chapter 19): errors (R503), function resets and link events (R504), MSI-X
vectors (R515), LB_RST_N (R514), bus timeouts (R512) and GBL_INT_EOI (R516).
-/
namespace Sys2Proof.Machine

/-! ### Function resets and the link (R504) -/

/-- Records of a feeder queue are discarded and counted; the ring's gap record will carry them (R223, R504). -/
def dropFeeder (r : Nat) (d : Dev) : Dev :=
  let l := mget [] d.pub.feeders r
  let d := { d with pub := { d.pub with feeders := mput [] d.pub.feeders r [] } }
  l.foldl (fun d x => recDropped x (ringDrop r x.type d)) d

/-- A delivery ring is disabled by a reset of PF0: the record being written is abandoned, and those that wait are discarded. -/
def ringOff (d : Dev) (r : Nat) : Dev :=
  let d := dropFeeder r (abandonPart r d)
  setRing d r { ringOf d r with en := false, run := false, closing := false }

/-- A host-ingest ring is disabled; the descriptors already fetched have completed (R128). -/
def hostRingOff (d : Dev) (r : Nat) : Dev := setHostRing r { hostRing d r with en := false, run := false } d

/-- A function's own registers at their reset values. -/
def funcCleared (pf1 : Bool) (d : Dev) : Dev := setFunc d pf1 { aer := (funcOf d pf1).aer }

/-- A function is reset (R443, R504): its queues, its rings, its vectors, enables and shadows; its epoch advances. -/
def funcReset (pf1 : Bool) (d : Dev) : Dev :=
  let d := (rangeFrom (if pf1 then 8 else 0) 8).foldl (fun d n => queueReset n d) d
  let d := if pf1 then d else (List.range 16).foldl hostRingOff ((List.range 32).foldl ringOff d)
  pathReset (if pf1 then 1 else 0) (funcCleared pf1 d)

/-- The link is lost: both functions are reset (R504). -/
def linkLost (d : Dev) : Dev :=
  let d := funcReset true (funcReset false d)
  setFlag 0 7 (gblCnt 5 { d with gbl := { d.gbl with linkUp := false, speed := 0, width := 0, mps := 0 } })

/-- The loss of an established link, which is also a surprise-down error (Table 19-3). -/
def linkSurprise (d : Dev) : Dev := if d.gbl.linkUp then linkLost (pcieError false 5 true d) else d

/-- PCIE_LINK_DOWN. -/
def execPcieLinkDown : State → Host.Outcome State Fault Refusal := runLive linkSurprise

/-- PCIE_PERST: only the endpoint is reset, as by link loss (R522). -/
def execPciePerst : State → Host.Outcome State Fault Refusal := runLive linkLost

/-- PCIE_LINK_UP: both functions are in D0. -/
def execPcieLinkUp (speed : BitVec 4) (width : BitVec 6) (mps : BitVec 3) : State → Host.Outcome State Fault Refusal := runLive fun d =>
  { d with gbl := { d.gbl with
    linkUp := true, speed := speed, width := width, mps := mps
    pf0 := { d.gbl.pf0 with d3hot := false }, pf1 := { d.gbl.pf1 with d3hot := false } } }

/-- A function-level reset, or an entry into D3hot, of one function: GBL_ERR.FLR and its count. -/
def funcFlr (pf1 : Bool) (d : Dev) : Dev := setFlag 0 8 (gblCnt (if pf1 then 7 else 6) (funcReset pf1 d))

/-- PCIE_FLR: the function is in D0 after it (log entry 5). -/
def execPcieFlr (pf1 : Bool) : State → Host.Outcome State Fault Refusal := runLive fun d => if d.gbl.linkUp then funcFlr pf1 d else d

/-- PCIE_D3HOT_ENTRY. -/
def execPcieD3hotEntry (pf1 : Bool) : State → Host.Outcome State Fault Refusal := runLive fun d =>
  if d.gbl.linkUp && !(funcOf d pf1).d3hot then
    let d := funcFlr pf1 d
    setFunc d pf1 { funcOf d pf1 with d3hot := true }
  else d

/-! ### Errors (R503) -/

/-- An uncorrectable internal error: the buffer that it names is not the command's, so it is a free value (log entry 1). -/
def pcieEcc (pf1 : Bool) (d : Dev) : Dev :=
  let w := drawWord (pcieError pf1 6 true d)
  logEv 0x0001 (b2n pf1) (w.1.toNat % 2 ^ 32) 0 w.2

/-- A correctable error: link-level retry mends it. -/
def pcieCorrected (pf1 : Bool) (d : Dev) : Dev :=
  let f := funcOf d pf1
  setFlag 0 4 (gblCnt 2 (setFunc d pf1 { f with aer := (8, false) :: f.aer }))

/-- PCIE_TLP_ERROR, at the default severities of Table 19-3. -/
def execPcieTlpError (pf1 : Bool) (e : TlpError) : State → Host.Outcome State Fault Refusal := runLive fun d =>
  if !d.gbl.linkUp then d
  else match e with
    | .unsupported => pcieError pf1 1 false d
    | .malformed => pcieError pf1 4 true d
    | .poisonedWrite => pcieError pf1 2 false d
    | .poisonedCompletion => pcieError pf1 3 false d
    | .completionTimeout => pcieError pf1 3 false d
    | .ecc => pcieEcc pf1 d
    | .longRead => pcieError pf1 0 false d
    | .unexpectedCompletion => pcieError pf1 7 false d
    | .correctable => pcieCorrected pf1 d

/-! ### MSI-X (R515) -/

/-- Vectors of a function. -/
def vectors (pf1 : Bool) : Nat := if pf1 then 16 else 64

/-- A vector sends once if it is unmasked and its PBA bit is still set. -/
def releaseVector (pf1 : Bool) (d : Dev) (v : Nat) : Dev :=
  let f := funcOf d pf1
  if f.funcMask || bit f.vecMask.toNat v || !bit f.pba.toNat v then d
  else sendMsix pf1 v (setFunc d pf1 { f with pba := clrBit f.pba v })

/-- MSIX_VECTOR_UNMASK: of one vector, or of the function. -/
def execMsixVectorUnmask (pf1 : Bool) (vector : Option (Fin 64)) : State → Host.Outcome State Fault Refusal := runLive fun d =>
  let f := funcOf d pf1
  match vector with
  | some v =>
    if vectors pf1 ≤ v.val then d
    else releaseVector pf1 (setFunc d pf1 { f with vecMask := clrBit f.vecMask v.val }) v.val
  | none => (List.range (vectors pf1)).foldl (releaseVector pf1) (setFunc d pf1 { f with funcMask := false })

/-! ### The local bus (R512, R514) -/

/-- LB_RST: the held half-word and the shadows of the bus are cleared, and its epoch advances. -/
def execLbRst : State → Host.Outcome State Fault Refusal := runLive fun d =>
  let d := { d with gbl := { d.gbl with lbHeld := none, lbHalfRd := 0, lbShadow := {}, lbErrN := true } }
  setFlag 0 3 (gblCnt 9 (pathReset 2 d))

/-- LB_TIMEOUT: the access ends with LB_ERR_N; a read returns 0. -/
def execLbTimeout : State → Host.Outcome State Fault Refusal := runLive fun d =>
  if pathOpen d .lb then readAs 0 (setFlag 0 2 (gblCnt 8 (lbEnd true d))) else d

/-! ### Interrupts (R516) -/

/-- GBL_INT_EOI written: the summary is sent again while it is on; INT_N shows the local bus's own by its level. -/
def intEoi (p : Path) (v : Nat) (d : Dev) : Dev :=
  if bit v 0 && summaryOn d p then
    (match p with
      | .pf0 => sendMsix false 0 d
      | .pf1 => sendMsix true 0 d
      | _ => d)
  else d

/-- GBL_INT_EOI_WRITE. -/
def execGblIntEoiWrite (path : Path) (v : W32) : State → Host.Outcome State Fault Refusal := run fun d =>
  if pathOpen d path then accessOk path (intEoi path v.toNat d) else d

end Sys2Proof.Machine
end

