-- ==== Sys2Proof/Machine/Wheel.lean ====
section
/-!
DEFINITION. The wheel (R26): tick starts, generation switches and retirement (R8, R24), and the once-per-second summary records (R549).
-/
namespace Sys2Proof.Machine

/-! ### Generation switch and retirement -/

/-- A stream whose definition the new generation gives anew leaves HELD (R116). -/
def releaseHeld (k : Nat) (d : Dev) : Dev :=
  let r := streamOf d k
  if r.held then noteReturn k (logEv 0x0707 k 1 0 (setStream k { r with held := false } d)) else d
/-- A window fetch that the switch meets reads the generation before it (log entry 15). -/
def fetchSwitch (d : Dev) : Dev :=
  let mark (w : DirWin) : DirWin := { w with fetch := w.fetch.map fun e => (e.1, true) }
  { d with dir := { d.dir with winPf0 := mark d.dir.winPf0, winLb := mark d.dir.winLb } }
/-- The switch tick of a pending switch has begun (R22, R26): the staged generation becomes current. -/
def switchNow (s : Switch) (d : Dev) : Dev :=
  let old := d.cur
  let was := d.clk.gen
  let plan := d.alm.plan.getD ([], [])
  let redef := d.clk.redef
  let d := { d with
    cur := d.staged
    old := some old
    clk := { d.clk with gen := s.gen, pending := none, retiring := some s, genStart := some (s.sec, s.tick),
                        oldStart := d.clk.genStart, firstBuilt := true,
                        chgDir := [], chgOther := [], redef := [] } }
  let d := logEv 0x1503 (s.gen.toNat + was.toNat * 65536) (logSec d s.sec) s.tick d
  let d := redef.foldl (fun d k => releaseHeld k d) (fetchSwitch d)
  let d := estSwitch old (groupSwitch old (tplSwitch old (histSwitch old (alnSwitch old d))))
  checkDeferred (limitSwitch old plan d)
/-- The switch is due at this tick. -/
def switchStep (d : Dev) : Dev :=
  match d.clk.pending with
  | some s => if tickOrd s.sec s.tick ≤ wheelOrd d then switchNow s d else d
  | none => d
/-- Retirement (R24): at the first tick boundary at which the old generation's slots have committed and its units are done, and no later
than 3 s plus one tick after the switch tick. -/
def retireStep (d : Dev) : Dev :=
  match d.clk.retiring with
  | none => d
  | some s =>
    let gen := s.gen - 1
    if (slotsDone d gen && unitsDone d gen) || tickOrd s.sec s.tick + 10801 ≤ wheelOrd d then
      let d := { d with old := none, clk := { d.clk with retiring := none } }
      let d := logEv 0x1504 gen.toNat (logSec d d.clk.sec) d.clk.tick d
      islRetire (oscRetire (estRetire (alnRetire gen (capGenLost (limitRetire d)))))
    else d

/-! ### Tick start -/

/-- The data path's steps at a tick start, in the order of R26. -/
def dataTick (sec : W48) (tick : Nat) (d : Dev) : Dev := retireStep (openSlots sec tick (switchStep d))
/-- The wheel advances by one tick. -/
def advance (d : Dev) : Dev :=
  let o := wheelOrd d + 1
  bringTo { d with clk := { d.clk with sec := BitVec.ofNat 48 (o / 3600), tick := o % 3600 } } (ordNs o)
/-- A tick start: the wheel advances, the data path follows, launch entries of the next tick are armed (R322), and the pair's heartbeat and
beacons go out. A tick that begins while CLK_CORE or CLK_MEM is stopped waits for the relock (R527). -/
def tickStart (d : Dev) : Dev :=
  let d := advance d
  let d := if coreRuns d then dataTick d.clk.sec d.clk.tick d
    else if corePowered d then { d with clk := { d.clk with missed := d.clk.missed ++ [(d.clk.sec, d.clk.tick)] } }
    else d
  pairTick (lchArm (wheelOrd d) d)
/-- TICK_START. -/
def execTickStart : State → Host.Outcome State Fault Refusal := runLive tickStart

/-! ### Once-per-second summary records -/

/-- Whether a second's count is over: it belongs to a second other than the counter's. -/
def isOver (d : Dev) (t : Tally) : Bool := t.sec != d.tod.sec
/-- The block that sheds in a unit (Table 1-3), by its source-block code. -/
def shedBlock (unit : Nat) : Nat := if unit = 0 then 0x0B else if unit ≤ 2 then 0x0C else 0x0D
/-- The record of a count by its kind and instance; counts that share a record are handled in `sumGroup`. -/
def sumOne (k : Nat) (t : Tally) (d : Dev) : Dev :=
  let i := k % 65536
  let n := t.count
  let sec := logSec d t.sec
  match k / 65536 with
  | 0 => logFull (shedBlock i) 0x1501 (codeSev 0x1501) (i + t.arg / 4096 * 65536) sec (t.arg % 4096 + min n 65535 * 65536) true d
  | 1 => logSum (portBlk i * 256 + 3) i n sec d
  | 2 => logSum 0x0706 n sec 0 d
  | 3 => logSum 0x0802 n sec t.arg d
  | 4 => logSum 0x0901 n sec t.arg d
  | 5 => logSum 0x0908 t.arg sec n d
  | 6 => logSum 0x0A06 n sec 0 d
  | 7 => logSum 0x0A02 i n sec d
  | 8 => logSum 0x0A04 i n sec d
  | 9 => logSum 0x0B07 n sec 0 d
  | 10 => logSum 0x0C07 t.arg sec 0 d
  | 11 => logSum 0x0202 n sec 0 d
  | 12 => match i with
    | 0 => logSum 0x1101 n sec t.arg d
    | 1 => logSum 0x1102 n sec t.arg d
    | 2 => logSum 0x1103 n sec t.arg d
    | 3 => logSum 0x1104 n sec 0 d
    | _ => d
  | 13 => logSum 0x1202 i n sec d
  | 15 => logSum 0x1006 i n sec d
  | 16 => logSum 0x1408 t.arg n sec d
  | _ => d
/-- The counts of one second that share one record: lost EVENT edges with their pin mask, overwritten AUX results with their buffer mask. -/
def sumGroup (l : List (Nat × Tally)) (sec : W48) (d : Dev) : Dev :=
  let pick (lo n : Nat) := l.filter fun e => e.2.sec == sec && lo ≤ e.1 && e.1 < lo + n
  let total (x : List (Nat × Tally)) : Nat := (x.map fun e => e.2.count).sum
  let mask (lo : Nat) (x : List (Nat × Tally)) : Nat := x.foldl (fun m e => m + 2 ^ (e.1 - lo)) 0
  let ev := pick (tallyKey tallyLch 8) 8
  let ax := pick (tallyKey tallyAux 0) 16
  let d := if ev.isEmpty then d else logSum 0x1105 (mask (tallyKey tallyLch 8) ev) (total ev) 0 d
  if ax.isEmpty then d else logSum 0x0F02 (mask (tallyKey tallyAux 0) ax) (total ax) (logSec d sec) d
/-- PER_SECOND_SUMMARY: the records of the seconds that have ended, and of those that a TIME_SET closed. -/
def execPerSecondSummary : State → Host.Outcome State Fault Refusal := runLive fun d =>
  let done := d.clk.closed ++ d.clk.tallies.filter fun e => isOver d e.2
  let secs := (done.map fun e => e.2.sec).eraseDups
  let d := { d with clk := { d.clk with closed := [], tallies := d.clk.tallies.filter fun e => !isOver d e.2 } }
  secs.foldl (fun d s => sumGroup done s d) (done.foldl (fun d e => sumOne e.1 e.2 d) d)

end Sys2Proof.Machine
end

