-- ==== Sys2Proof/Machine/Read.lean ====
section
/-!
DEFINITION. The register map as it is read (Tables 19-4 and R506, the register sections of every chapter): which offsets are mapped, the
value of each register, and what a read does (R11, R13, R502, R507, R510).
-/
namespace Sys2Proof.Machine

/-! ### The map (R502, R505 to R507) -/

/-- Ranges that a block occupies in the PF0 map: first offset and length. -/
def rangesPf0 : List (Nat × Nat) :=
  [(0, 0x3000), (0x10000, 0x800), (0x11000, 0x400), (0x14000, 0x1000), (0x20000, 0x400), (0x20800, 0x400), (0x28000, 0x400),
   (0x30000, 0x200), (0x40000, 0x28000), (0x80000, 0x1000), (0xA0000, 0x1000), (0xC0000, 0x1000), (0xE0000, 0x3000)] ++
  [(0x100000, 0x2000), (0x110000, 0x10000), (0x120000, 0x3000), (0x140000, 0x2000), (0x160000, 0x1000), (0x180000, 0x1000),
   (0x1A0000, 0x2000), (0x200000, 0x1000), (0x3F00000, 0x400), (0x3F80000, 8)]
/-- Ranges that a block occupies in the PF1 map. -/
def rangesPf1 : List (Nat × Nat) :=
  [(0, 0x1000), (0x11000, 0x400), (0x18000, 0x800), (0x20000, 0x400), (0x20800, 0x400), (0x1C0000, 0x3000), (0x1D0000, 0x10000),
   (0x1F00000, 0x100), (0x1F80000, 8)]
/-- A block occupies the offset in the map of the path. -/
def isMapped (p : Path) (a : Nat) : Bool :=
  (if isSecure p then rangesPf1 else rangesPf0).any fun r => r.1 ≤ a && a < r.1 + r.2
/-- Registers that only the PCIe functions have: both local-bus windows read them as 0 and ignore writes (R507). -/
def pcieOnly (a : Nat) : Bool := (0x20000 ≤ a && a < 0x20400) || (0x28000 ≤ a && a < 0x28400) || (0x30000 ≤ a && a < 0x30200) || 0x1F00000 ≤ a

/-- A mask of the elements below `n` that satisfy a condition. -/
def maskOf (n : Nat) (c : Nat → Bool) : Nat := (List.range n).foldl (fun m i => m + b2n (c i) * 2 ^ i) 0
/-- Four bytes of a window as a word. -/
def windowWord (w : List (Nat × Byte)) (off : Nat) : Nat := fromLe (windowBytes w off 4)

/-! ### Registers of one word, by block -/

/-- GBL (chapter 19). The bits of GBL_STATE.RUN are those of PWR_STAT, where entering DORMANT is still READY and waking still DORMANT
(log entry 31). -/
def runCode (d : Dev) : Nat :=
  match d.pwr.run with
  | .starting => 0 | .ready => 1 | .entering => 1 | .loader => 2 | .tampered => 3 | .dormant => 4 | .waking => 4
/-- The firmware is accepting commands. -/
def fwAccepts (d : Dev) : Bool := d.cmd.fwUp && !d.cmd.fwRestarting && !stalledIn d 4
/-- The straps at GBL_STATE bits [25:22]. -/
def strapBits (d : Dev) : Nat := b2n d.pwr.straps.priority * 8 + d.pwr.straps.bootSrc.toNat * 2 + b2n d.pwr.straps.lbWidth
/-- GBL registers as a path reads them. -/
def readGbl (d : Dev) (p : Path) (o : Nat) : Nat :=
  match o with
  | 0x008 => 0x64000100
  | 0x00C => b2n d.key.lcRead * lcNum d.key.lc * 2 ^ 30 + runCode d * 2 ^ 27 + b2n (fwAccepts d) * 2 ^ 26 + strapBits d * 2 ^ 22
  | 0x010 => intStat d p
  | 0x014 => (intEn d p).toNat
  | 0x01C => if isLb p then lbSrc d (isSecure p) else 0
  | 0x020 => if isLb p then (winOf d (isSecure p)).lbEn.toNat else 0
  | 0x024 => d.gbl.err.toNat
  | 0x028 => b2n d.gbl.linkUp * 2 ^ 31 + d.gbl.speed.toNat * 2 ^ 16 + d.gbl.width.toNat * 2 ^ 8 + d.gbl.mps.toNat
  | _ => 0
/-- TOD (chapter 2). UTC_OFF is that of the table in force, from the start of the default table at reset on (DESIGN CHOICE, log entry 33). -/
def readTod (d : Dev) (o : Nat) : Nat :=
  let lf := leapFlags (leapTable d) d.tod.sec.toNat
  match o with
  | 0x40 => utcOff d % 256 * 2 ^ 24 + d.tod.slavePort.toNat * 2 ^ 16 + b2n lf.2.1 * 2 ^ 12 + b2n lf.2.2 * 2 ^ 11 + b2n lf.1 * 2 ^ 10 +
      b2n d.tod.adj.isSome * 2 ^ 9 + b2n d.tod.osc * 2 ^ 8 + d.tod.ref.toNat * 16 + stateCode d.tod.state
  | 0x44 => d.tod.qualU.toNat
  | 0x48 => d.tod.qualCode.toNat
  | 0x4C => d.tod.hoSec.toNat
  | 0x50 => d.tod.flags.toNat
  | _ =>
    if 0x100 ≤ o && o < 0x130 then
      let q := mget {} d.tod.txq ((o - 0x100) / 4)
      q.drops.toNat * 65536 + b2n q.ovf * 256 + q.entries.length
    else 0
/-- ALM (chapter 10). -/
def readAlm (d : Dev) (o : Nat) : Nat :=
  match o with
  | 0x00 => maskOf 16 (fun p => (mget {} d.alm.pins p).enabled) * 65536 + (pinsAsserted d).toNat
  | 0x04 => d.alm.flags.toNat
  | 0x08 => d.alm.force.toNat
  | 0x0C => (d.alm.limits.filter fun e => e.2.raised).length
  | _ => if 0x10 ≤ o && o < 0x20 then maskOf 32 fun b => (mget {} d.alm.sources (8 * (o - 0x10) + b)).raised else 0
/-- MBX_STAT (chapter 16). -/
def mbxStat (x : Mailbox) : Nat :=
  b2n x.full * 2 ^ 31 + x.path.toNat * 2 ^ 28 + x.sepoch.toNat * 2 ^ 24 + b2n x.stall * 128 + b2n x.discarded * 64 + b2n x.emptyEv * 32 +
  b2n x.msgEv * 16 + b2n x.reject * 8
/-- A mailbox. -/
def readMbx (d : Dev) (m o : Nat) : Nat :=
  let x := mboxOf d m
  if o < 0x40 then (mget 0 x.data (o / 4)).toNat else if o = 0x44 then mbxStat x else 0
/-- CMD_Q_STAT. -/
def queueStat (d : Dev) (n : Nat) : Nat :=
  let q := pairOf d n
  let busy := (executingOn d n).isSome
  q.fetched.length * 65536 + b2n (!busy && q.fetched.isEmpty) * 16 + b2n q.cfgErr * 8 + b2n q.err * 4 + b2n busy * 2
/-- A queue pair. -/
def readPair (d : Dev) (n o : Nat) : Nat :=
  let q := pairOf d n
  match o with
  | 0x00 => q.sqBase.toNat % 2 ^ 32
  | 0x04 => q.sqBase.toNat / 2 ^ 32
  | 0x08 => q.cqBase.toNat % 2 ^ 32
  | 0x0C => q.cqBase.toNat / 2 ^ 32
  | 0x10 => q.cqWb.toNat % 2 ^ 32
  | 0x14 => q.cqWb.toNat / 2 ^ 32
  | 0x18 => b2n q.en * 2 ^ 31 + b2n q.noticeEn * 2 ^ 30 + q.sqLog2 * 16 + q.cqLog2
  | 0x1C => q.sqTail
  | 0x20 => q.sqHead
  | 0x24 => q.cqHead
  | 0x28 => q.cqTail
  | 0x2C => queueStat d n
  | 0x30 => q.seqNext.toNat
  | _ => 0
/-- A delivery ring (chapter 7). -/
def readRing (d : Dev) (r o : Nat) : Nat :=
  let g := ringOf d r
  match o with
  | 0x0 => g.head
  | 0x4 => g.tailWb
  | 0x8 => b2n g.notice * 16 + b2n g.stale * 8 + b2n g.err * 4 + b2n g.run * 2 + b2n g.en
  | _ => 0
/-- A host-ingest ring (chapter 4). -/
def readHostRing (d : Dev) (r o : Nat) : Nat :=
  let g := hostRing d r
  match o with
  | 0x0 => g.tail
  | 0x4 => g.head
  | 0x8 => b2n g.err * 4 + b2n g.run * 2 + b2n g.en
  | _ => 0
/-- A port (chapter 3); fields that do not apply to a station port read 0. -/
def readPort (d : Dev) (p o : Nat) : Nat :=
  let x := portOf d p
  match o with
  | 0x0 => linkCode x.link * 2 ^ 28 + x.mode * 2 ^ 24 + b2n (pauseLeft d x != 0) * 2 ^ 23 + b2n x.msec * 2 ^ 22 + b2n (x.fecLock && p < 8) * 2 ^ 21 +
      b2n x.anDone * 2 ^ 20 + b2n x.highBer * 2 ^ 19 + x.maxLen
  | 0x4 => x.flags.toNat
  | 0x8 => b2n (pauseLeft d x != 0) * 65536 + pauseLeft d x
  | 0xC => x.rxHwm * 65536 + ceilDiv x.rxFill 1024
  | 0x10 => x.rxScs.length * 256 + b2n (x.txSas.any fun e => some e.1 != x.txAn) * 4 + x.txAn.getD 0
  | _ => 0
/-- ING and SCH (chapter 4). -/
def readIng (d : Dev) (o : Nat) : Nat :=
  match o with
  | 0x000 => b2n d.ing.alnBp * 2 ^ 31 + b2n d.ing.quotaBp * 2 ^ 30 + d.ing.parsers * 65536 + min 65535 (alnFill d)
  | 0x004 => d.ing.flags.toNat
  | 0x800 => d.ing.intBusy * 2 ^ 24 + (readyTasks false d).length + (readyTasks true d).length
  | 0x804 => d.ing.extHwm * 65536 + d.ing.intCells
  | _ => 0
/-- ALN (chapter 6). -/
def readAln (d : Dev) (o : Nat) : Nat :=
  match o with
  | 0x00 => alnStat d
  | 0x04 => d.aln.flags.toNat
  | 0x08 => landBlocks d.cur.land d.staged.land
  | 0x10 => d.aln.osSel.toNat
  | 0x14 => d.aln.osStat.toNat
  | 0x18 => d.aln.osLag.toNat
  | 0x1C => d.aln.osPos.toNat
  | _ => 0
/-- PUB_Q_STAT of a queue from its items' priorities. -/
def queueWord (stale : Bool) (prios : List Nat) : Nat :=
  b2n stale * 2 ^ 31 + prios.foldl max 0 * 2 ^ 28 + b2n (!prios.isEmpty) * 2 ^ 27 + prios.length
/-- PUB (chapter 7). -/
def readPub (d : Dev) (o : Nat) : Nat :=
  match o with
  | 0x00 => b2n (stagingFull d) * 2 ^ 31 + (438272 - sharedUsed d)
  | 0x04 => d.pub.flags.toNat
  | 0x08 => (d.cur.hist.map HistPlan.tH).getD 0
  | 0x10 => d.pub.qSel.toNat
  | 0x14 =>
    let q := d.pub.qSel.toNat
    if q < 32 then queueWord (qParams d q).stale ((mget [] d.pub.feeders q).map HostRec.prio)
    else if q < 44 then queueWord (qParams d q).stale ((mget [] d.pub.egress (q - 32)).map EgressItem.prio)
    else 0
  | _ => 0
/-- EST (chapter 8). -/
def readEst (d : Dev) (o : Nat) : Nat :=
  match o with
  | 0x00 => estStat d
  | 0x04 => d.est.flags.toNat
  | 0x08 => estFactNum d Factor.nnz
  | 0x0C => estFactNum d Factor.buses
  | 0x10 => estFactNum d fun f => f.unobs.length
  | 0x14 => rowsInA d
  | _ => 0
/-- OSC (chapter 9). -/
def readOsc (d : Dev) (o : Nat) : Nat :=
  match o with
  | 0x0 => oscStat d
  | 0x4 => d.osc.flags.toNat
  | 0x8 => oscInputsReg d
  | _ => 0
/-- ISL (chapter 10). -/
def readIsl (d : Dev) (o : Nat) : Nat :=
  match o with
  | 0x0 => islStat d
  | 0x4 => d.isl.flags.toNat
  | 0x8 => d.isl.nComps
  | 0xC => d.isl.nClusters
  | _ => 0
/-- LMF (chapter 13). -/
def readLmf (d : Dev) (o : Nat) : Nat :=
  let hit (k : Nat) : Bool := let x := chanOf d k; x.fault || x.settling
  match o with
  | 0x0 => d.lmf.d * 2 ^ 24 + maskOf 8 (fun c => (rangeFrom (6 * c) 6).any fun k => (chanOf d k).settling) * 65536 +
      maskOf 8 (fun c => (pmuOf d c).enabled) * 256 + d.lmf.clkOn.toNat
  | 0x4 => maskOf 32 hit
  | 0x8 => maskOf 16 fun k => hit (32 + k)
  | 0xC => d.lmf.flags.toNat
  | _ => if 0x400 ≤ o && o < 0x4C0 then delayOf d ((o - 0x400) / 4) else 0
/-- AUX (chapter 13). -/
def readAux (d : Dev) (o : Nat) : Nat :=
  let inj (l : Nat) : Bool := let x := auxLaneOf d l; x.pend.contains false || (match x.work with | .injected _ => true | _ => false)
  let cal (l : Nat) : Bool := let x := auxLaneOf d l; x.pend.contains true || decide (x.work = .calibrating)
  match o with
  | 0x0 => d.aux.spare * 2 ^ 28 + maskOf 8 (fun l => (auxLaneOf d l).run) * 65536 + maskOf 8 inj * 256 + maskOf 8 cal
  | 0x4 => (List.range 8).foldl (fun n l => n + auxSliceOf d l * 16 ^ l) 0
  | 0x8 => d.aux.flags.toNat
  | _ =>
    if 0x100 ≤ o && o < 0x180 then
      let b := auxBuf d ((o - 0x100) / 8)
      if o % 8 = 0 then b.wr else b.rd
    else 0
/-- MTR (chapter 14). -/
def readMtr (d : Dev) (o : Nat) : Nat :=
  match o with
  | 0x00 => maskOf 8 (fun c => (circOf d c).config.enable) * 2 ^ 24 + maskOf 8 (fun c => (circOf d c).noload) * 65536 +
      maskOf 8 (fun p => (pulseOf d p).enabled) * 256 + (d.mtr.saving.map fun s => if s.2.cause = 1 then 2 else 1).getD 0 * 64 +
      b2n d.mtr.test.isSome * 32
  | 0x04 => d.mtr.flags.toNat
  | 0x08 => (d.mtr.last.map fun s => s.1 * 2 ^ 26 + s.2.1 * 2 ^ 24 + s.2.2.1.toNat % 2 ^ 24).getD 0
  | 0x0C => (d.mtr.last.map fun s => s.2.2.2.toNat).getD 0
  | 0x10 => (List.range 8).foldl (fun n c => n + ((circOf d c).quad - 1) % 4 * 4 ^ c) 0
  | _ =>
    if 0x40 ≤ o && o < 0x60 then
      let x := pulseOf d ((o - 0x40) / 4)
      b2n x.active * 65536 + min 65535 x.owed
    else 0
/-- LCH (chapter 11). -/
def readLch (d : Dev) (o : Nat) : Nat :=
  match o with
  | 0x00 => d.lch.done.length * 65536 + (d.lch.entries.filter fun e => decide (e.2.status = .pending) || decide (e.2.status = .armed)).length
  | 0x04 => d.lch.flags.toNat
  | 0x20 => maskOf 8 (fun n => decide ((eventPin d n).mode = .output)) * 65536 + maskOf 8 (fun n => decide ((eventPin d n).mode = .input)) * 256 +
      maskOf 8 fun n => (eventPin d n).level
  | _ => 0
/-- CAP (chapter 12). -/
def readCap (d : Dev) (o : Nat) : Nat :=
  let inState (x : CapState) : Nat := (d.cap.sessions.filter fun e => decide (e.2.state = x)).length
  match o with
  | 0x00 => inState .capturing * 2 ^ 26 + inState .armed * 2 ^ 20 + d.cap.free
  | 0x04 => d.cap.flags.toNat
  | 0x10 => d.cap.sel.toNat
  | 0x14 => d.cap.sessStat.toNat
  | 0x18 => d.cap.sessFill.toNat
  | 0x1C => d.cap.sessChunks.toNat
  | _ => 0
/-- LOG (chapter 17). -/
def readLogReg (d : Dev) (o : Nat) : Nat :=
  match o with
  | 0x00 => logStat d
  | 0x04 => d.log.flags.toNat
  | 0x08 => d.log.seq.toNat
  | 0x0C => (aonPcc d).toNat
  | _ => if 0x20 ≤ o && o < 0x38 then logStored d ((o - 0x20) / 4) else 0
/-- HRD (chapter 18). -/
def readHrd (d : Dev) (o : Nat) : Nat :=
  match o with
  | 0x00 => hrdStat d
  | 0x04 => d.hrd.flags.toNat
  | 0x08 => d.hrd.health.toNat
  | 0x0C => d.hrd.peerHealth.toNat
  | 0x10 => (d.hrd.switch.map fun s => s.sec.toNat % 65536 * 65536 + s.tick).getD 0
  | 0x14 => if d.hrd.hb then d.hrd.offset.toNat else 0
  | _ => 0
/-- CLK (chapter 1). With no switch pending CLK_GEN_PEND and CLK_GEN_SEC keep showing the last one asked for (DESIGN CHOICE, log entry 33). -/
def readClk (d : Dev) (o : Nat) : Nat :=
  match o with
  | 0x000 => d.clk.gen.toNat * 65536 + d.clk.tick
  | 0x004 => b2n d.clk.pending.isSome * 2 ^ 31 + b2n d.clk.retiring.isSome * 2 ^ 30 + d.clk.swTick.toNat * 65536 + d.clk.nextGen.toNat
  | 0x200 => d.clk.xmode.toNat
  | 0x204 => d.clk.xovr.toNat
  | 0x208 => d.clk.lock.toNat
  | _ => 0
/-- PWR_STAT (chapter 20). -/
def pwrStat (d : Dev) : Nat :=
  let st := match d.pwr.run with
    | .starting => 0 | .ready => 1 | .loader => 2 | .tampered => 3 | .dormant => 4 | .entering => 5 | .waking => 6
  st * 2 ^ 29 + d.pwr.cause.toNat * 2 ^ 26 + b2n d.pwr.pfw * 2 ^ 25 + b2n d.pwr.seqRun * 2 ^ 24 + b2n d.pwr.glitch * 2 ^ 23 + d.pwr.readyMs.toNat
/-- PWR. -/
def readPwr (d : Dev) (o : Nat) : Nat :=
  match o with
  | 0x0 => pwrStat d
  | 0x4 => d.pwr.flags.toNat
  | 0x8 => d.pwr.flushUs.toNat * 65536 + d.pwr.saveUs.toNat
  | 0xC => d.pwr.trailerUs.toNat
  | _ => 0
/-- KEY, TMP and FWL, by offset from 0x001C_0000 (chapters 15 and 16). -/
def readSec (d : Dev) (o : Nat) : Nat :=
  let x := runningImage d
  match o with
  | 0x0000 => keyStat d
  | 0x0004 => d.key.flags.toNat
  | 0x1000 => tmpStat d
  | 0x1004 => d.tmp.count.toNat
  | 0x1008 => d.tmp.last.toNat
  | 0x2000 => fwlStat d
  | 0x2004 => versionWord x
  | 0x2008 => x.build.toNat
  | 0x200C => x.schema.toNat * 65536 + d.cmd.storeSchema.toNat
  | 0x2010 => x.svn.toNat * 65536 + d.cmd.minSvn.toNat
  | _ => 0
/-- DIR as a path reads it (chapter 5). -/
def readDir (d : Dev) (p : Path) (o : Nat) : Nat :=
  let w := (dirWinOf d p).getD {}
  match o with
  | 0x0 => w.idx.toNat
  | 0x4 => b2n w.busy * 2 ^ 31 + b2n w.valid * 2 ^ 30 + b2n w.err * 2 ^ 29 + w.gen.toNat
  | 0x8 => dirUsed d
  | 0xC => dirChg d
  | _ => if 0x10 ≤ o && o < 0x30 then (lget 0 w.data ((o - 0x10) / 4)).toNat else 0
/-- The MSI-X table and PBA of a function, by offset from the table's base. -/
def readMsix (d : Dev) (pf1 : Bool) (o : Nat) : Nat :=
  let f := funcOf d pf1
  if o < 0x80000 then (if o % 16 = 12 then b2n (bit f.vecMask.toNat (o / 16)) else (mget 0 f.table (o / 4)).toNat)
  else bits f.pba.toNat (8 * (o - 0x80000)) 32

/-! ### Values of several words (R12, R13) -/

/-- The counter groups of a map: first offset of the counters and of their snapshots, how many there are, and the key of counter 0. -/
structure CntGroup where
  cnt  : Nat
  snap : Nat
  n    : Nat
  key  : Nat
/-- A group of 16 counters at the usual offsets in a block. -/
def group16 (base block : Nat) : CntGroup := { cnt := base + 0x100, snap := base + 0x300, n := 16, key := cntKey block 0 0 }
/-- Groups of both maps. -/
def cntGroupsBoth : List CntGroup :=
  [group16 0 0x00, { cnt := 0x11000, snap := 0x11200, n := 16, key := cntKey 0x03 0 0 },
   { cnt := 0x20800, snap := 0x20A00, n := 16, key := cntKey 0x04 0 0 }]
/-- Groups of the PF0 map alone; the shed counters have no snapshot registers. -/
def cntGroupsPf0 : List CntGroup :=
  [group16 0x2000 0x02, { cnt := 0x80100, snap := 0x80300, n := 48, key := cntKey 0x07 0 0 },
   { cnt := 0x200100, snap := 0x200200, n := 16, key := cntKey 0x08 0 0 }, { cnt := 0xA0100, snap := 0xA0300, n := 32, key := cntKey 0x09 0 0 },
   { cnt := 0xC0100, snap := 0xC0300, n := 32, key := cntKey 0x0A 0 0 }, group16 0xE0000 0x0B, group16 0xE1000 0x0C, group16 0xE2000 0x0D,
   group16 0x100000 0x0E, { cnt := 0x101200, snap := 0x101300, n := 16, key := cntKey 0x0F 0 0 }] ++
  [group16 0x120000 0x10, { cnt := 0x140200, snap := 0x140300, n := 16, key := cntKey 0x11 0 0 }, group16 0x141000 0x12,
   group16 0x160000 0x13, group16 0x180000 0x14, { cnt := 0x1A0100, snap := 0x4000000, n := 8, key := cntKey 0x15 0 0 },
   group16 0x1A1000 0x16] ++
  ((List.range 8).map fun p => { cnt := 0x40100 + 0x4000 * p, snap := 0x40200 + 0x4000 * p, n := 32, key := cntKey 0x05 p 0 }) ++
  ((List.range 4).map fun p => { cnt := 0x60100 + 0x2000 * p, snap := 0x60200 + 0x2000 * p, n := 32, key := cntKey 0x06 (8 + p) 0 })
/-- Groups that a path sees. -/
def cntGroupsOn (p : Path) : List CntGroup := cntGroupsBoth ++ if isSecure p then [group16 0x1C0000 0x17] else cntGroupsPf0
/-- A FEC counter of a station port, or of a port in a mode without FEC, which reads 0 (R99). -/
def noFecKey (d : Dev) (key : Nat) : Bool :=
  let block := key / 65536
  let p := key / 256 % 256
  let i := key % 256
  (i = 21 || i = 22) && ((block = 5 && !hasFec (portOf d p)) || block = 6)
/-- The counter at an offset: its value, and whether the offset is its low word. -/
def counterAt (d : Dev) (p : Path) (a : Nat) : Option (W48 × Bool) :=
  let value (m : NMap W48) (k : Nat) : W48 := if noFecKey d k then 0 else mget 0 m k
  (cntGroupsOn p).findSome? fun g =>
    if g.cnt ≤ a && a < g.cnt + 8 * g.n then some (value d.cnt (g.key + (a - g.cnt) / 8), a % 8 == 0)
    else if g.snap ≤ a && a < g.snap + 8 * g.n then some (value d.snap (g.key + (a - g.snap) / 8), a % 8 == 0)
    else none
/-- A 64-bit value in three words: 24 bits with SEQ, 32 bits, then 8 bits with SEQ. -/
def tripleRead (p : Path) (a v : Nat) (d : Dev) : Dev :=
  latchRead p a (fun s => v % 2 ^ 24 * 256 + s) (fun s => [(a + 4, v / 2 ^ 24 % 2 ^ 32), (a + 8, s * 2 ^ 24 + v / 2 ^ 56 % 256)]) d
/-- A 48-bit number read as 24 and 24 bits, each with SEQ. -/
def pairRead (p : Path) (a v : Nat) (d : Dev) : Dev :=
  latchRead p a (fun s => v % 2 ^ 24 * 256 + s) (fun s => [(a + 4, s * 2 ^ 24 + v / 2 ^ 24 % 2 ^ 24)]) d
/-- A value of two plain words. -/
def plainPair (p : Path) (a v : Nat) (d : Dev) : Dev := latchRead p a (fun _ => v % 2 ^ 32) (fun _ => [(a + 4, v / 2 ^ 32 % 2 ^ 32)]) d
/-- The time of the last edge of PPS_IN_n. -/
def snapRead (p : Path) (a : Nat) (x : Snap) (d : Dev) : Dev :=
  latchRead p a (fun s => x.frac.toNat * 65536 + x.edges.toNat * 256 + s)
    (fun s => [(a + 4, x.ns.toNat), (a + 8, x.sec.toNat % 2 ^ 32), (a + 12, s * 2 ^ 24 + x.sec.toNat / 2 ^ 32)]) d
/-- The energy register or snapshot at an offset from 0x0012_1000. -/
def energyAt (d : Dev) (o : Nat) : Nat :=
  let c := o % 0x1000 / 0x100
  let r := o % 0x100 / 0x10
  if o < 0x1000 then countOfAcc (mget 0 (circOf d c).regs r) else (mget 0 d.mtr.snap (16 * c + r)).toNat
/-- A read of the lowest word of a value; none where no value begins at the offset. -/
def lowRead (p : Path) (a : Nat) (d : Dev) : Option Dev :=
  match counterAt d p a with
  | some (v, true) => some (counterRead p a v d)
  | some (_, false) => none
  | none =>
    if a = 0 then some (plainPair p a d.gbl.eui.toNat d)
    else if isSecure p then (if a = 0x1C0008 then some (tripleRead p a d.key.ownerCtr.toNat d) else none)
    else match a with
      | 0x1000 => some (todNow p d)
      | 0x1010 => some (snapRead p a d.tod.snap0 d)
      | 0x1020 => some (snapRead p a d.tod.snap1 d)
      | 0x1030 => some (pairRead p a d.tod.inc.toNat d)
      | 0x140010 => some (doneRead p d)
      | 0x160010 => some (pairRead p a (aonOpt d).toNat d)
      | 0x1A0008 => some (plainPair p a d.clk.swSec.toNat d)
      | _ =>
        if 0x110000 ≤ a && a < 0x120000 && a % 8 = 0 then some (plainPair p a (mget 0 d.aux.store ((a - 0x110000) / 8)).toNat d)
        else if 0x121000 ≤ a && a < 0x123000 && a % 0x1000 < 0x800 && a % 0x100 < 0xD0 && a % 0x10 = 0 then
          some (tripleRead p a (energyAt d (a - 0x121000)) d)
        else if 0x140100 ≤ a && a < 0x140180 && a % 0x10 = 0 then some (eventRead p ((a - 0x140100) / 0x10) d)
        else none
/-- A further word of a value, which the shadow of the path holds. -/
def isHighWord (d : Dev) (p : Path) (a : Nat) : Bool :=
  (counterAt d p a).any (fun x => !x.2) || a = 4 ||
  (if isSecure p then a = 0x1C000C || a = 0x1C0010
   else
    ([0x1004, 0x1008, 0x1014, 0x1018, 0x101C, 0x1024, 0x1028, 0x102C, 0x1034, 0x140014, 0x140018, 0x14001C, 0x160014, 0x1A000C] : List Nat).contains a ||
    (0x110000 ≤ a && a < 0x120000 && a % 8 = 4) ||
    (0x121000 ≤ a && a < 0x123000 && a % 0x1000 < 0x800 && a % 0x100 < 0xD0 && (a % 0x10 = 4 || a % 0x10 = 8)) ||
    (0x140100 ≤ a && a < 0x140180 && a % 0x10 != 0))

/-! ### A read -/

/-- The value of a register of one word in the PF1 map. -/
def wordPf1 (d : Dev) (p : Path) (a : Nat) : Nat :=
  if a < 0x1000 then readGbl d p a
  else if 0x18000 ≤ a && a < 0x18800 then readMbx d (8 + (a - 0x18000) / 0x100) (a % 0x100)
  else if 0x20200 ≤ a && a < 0x20400 then readPair d ((a - 0x20000) / 0x40) (a % 0x40)
  else if 0x1C0000 ≤ a && a < 0x1C3000 then readSec d (a - 0x1C0000)
  else if 0x1D0000 ≤ a && a < 0x1E0000 then windowWord d.cmd.fwlWindow (a - 0x1D0000)
  else if 0x1F00000 ≤ a then readMsix d true (a - 0x1F00000)
  else 0
/-- The value of a register of one word in the lower half of the PF0 map. -/
def wordLow (d : Dev) (p : Path) (a : Nat) : Nat :=
  if a < 0x1000 then readGbl d p a
  else if a < 0x2000 then readTod d (a - 0x1000)
  else if a < 0x3000 then readAlm d (a - 0x2000)
  else if a < 0x10800 then readMbx d ((a - 0x10000) / 0x100) (a % 0x100)
  else if 0x14000 ≤ a && a < 0x15000 then windowWord (if isLb p then d.cmd.paramLb else d.cmd.paramPf0) (a - 0x14000)
  else if 0x20000 ≤ a && a < 0x20200 then readPair d ((a - 0x20000) / 0x40) (a % 0x40)
  else if 0x28000 ≤ a && a < 0x28400 then readRing d ((a - 0x28000) / 0x20) (a % 0x20)
  else if 0x30000 ≤ a && a < 0x30200 then readHostRing d ((a - 0x30000) / 0x20) (a % 0x20)
  else if 0x40000 ≤ a && a < 0x60000 then readPort d ((a - 0x40000) / 0x4000) (a % 0x4000)
  else if 0x60000 ≤ a && a < 0x68000 then readPort d (8 + (a - 0x60000) / 0x2000) (a % 0x2000)
  else if 0x80000 ≤ a && a < 0x81000 then readIng d (a - 0x80000)
  else if 0xA0000 ≤ a && a < 0xA1000 then readAln d (a - 0xA0000)
  else if 0xC0000 ≤ a && a < 0xC1000 then readPub d (a - 0xC0000)
  else 0
/-- The value of a register of one word in the upper half of the PF0 map. -/
def wordHigh (d : Dev) (p : Path) (a : Nat) : Nat :=
  if a < 0xE1000 then readEst d (a - 0xE0000)
  else if a < 0xE2000 then readOsc d (a - 0xE1000)
  else if a < 0xE3000 then readIsl d (a - 0xE2000)
  else if a < 0x101000 then readLmf d (a - 0x100000)
  else if a < 0x102000 then readAux d (a - 0x101000)
  else if 0x120000 ≤ a && a < 0x121000 then readMtr d (a - 0x120000)
  else if 0x140000 ≤ a && a < 0x141000 then readLch d (a - 0x140000)
  else if 0x141000 ≤ a && a < 0x142000 then readCap d (a - 0x141000)
  else if 0x160000 ≤ a && a < 0x161000 then readLogReg d (a - 0x160000)
  else if 0x180000 ≤ a && a < 0x181000 then readHrd d (a - 0x180000)
  else if 0x1A0000 ≤ a && a < 0x1A1000 then readClk d (a - 0x1A0000)
  else if 0x1A1000 ≤ a && a < 0x1A2000 then readPwr d (a - 0x1A1000)
  else if 0x200000 ≤ a && a < 0x201000 then readDir d p (a - 0x200000)
  else if 0x3F00000 ≤ a then readMsix d false (a - 0x3F00000)
  else 0
/-- The value of a register of one word at a mapped offset; an offset without a register reads 0. -/
def wordAt (d : Dev) (p : Path) (a : Nat) : Nat :=
  if isLb p && pcieOnly a then 0
  else if isSecure p then wordPf1 d p a
  else if a < 0xE0000 then wordLow d p a
  else wordHigh d p a
/-- A read clears the RC fields of its register (R11): the high-water marks of a port's buffer and of the external descriptors. -/
def clearRc (p : Path) (a : Nat) (d : Dev) : Dev :=
  if isSecure p then d
  else if a = 0x80804 then { d with ing := { d.ing with extHwm := 0 } }
  else if 0x40000 ≤ a && a < 0x60000 && a % 0x4000 = 0xC then
    let n := (a - 0x40000) / 0x4000
    setPort d n { portOf d n with rxHwm := 0 }
  else if 0x60000 ≤ a && a < 0x68000 && a % 0x2000 = 0xC then
    let n := 8 + (a - 0x60000) / 0x2000
    setPort d n { portOf d n with rxHwm := 0 }
  else d
/-- The register at a word offset is read: its value, and what the read does. -/
def readWord (p : Path) (a : Nat) (d : Dev) : Dev :=
  if !isMapped p a then readAs 0 (unmapped d)
  else match lowRead p a d with
    | some d => d
    | none => if isHighWord d p a then shadowRead p a d else readAs (wordAt d p a) (clearRc p a d)
/-- In 16-bit mode a read of the low half keeps the high half for the read that follows (R510). -/
def keepHalf (p : Path) (d : Dev) : Dev :=
  if isLb p && d.pwr.straps.lbWidth then { d with gbl := { d.gbl with lbHalfRd := BitVec.ofNat 16 (d.gbl.lastRead.toNat / 65536) } } else d
/-- A read of the word that holds an offset, on a path that is answered. -/
def readAccess (p : Path) (addr : W32) (d : Dev) : Dev :=
  if pathOpen d p then accessOk p (keepHalf p (readWord p (addr.toNat / 4 * 4) d)) else d

/-- RC_REGISTER_READ: the value is read and its RC fields are cleared. -/
def execRcRegisterRead (path : Path) (addr : W32) : State → Host.Outcome State Fault Refusal := run (readAccess path addr)
/-- MULTIWORD_LOW_READ: the rest of the value is latched and SEQ advances. -/
def execMultiwordLowRead (path : Path) (addr : W32) : State → Host.Outcome State Fault Refusal := run (readAccess path addr)

end Sys2Proof.Machine
end

