-- ==== Sys2Proof/Machine/Write.lean ====
section
/-!
DEFINITION. The register map as it is written (R11, R502, R507, R510): each register by its access type, with the effect its chapter gives it.
-/
namespace Sys2Proof.Machine

/-! ### Registers, by block -/

/-- A path's copy of GBL_INT_EN replaced (R516). -/
def setIntEn (p : Path) (v : BitVec 26) (d : Dev) : Dev :=
  match p with
  | .pf0 => { d with gbl := { d.gbl with pf0 := { d.gbl.pf0 with intEn := v } } }
  | .pf1 => { d with gbl := { d.gbl with pf1 := { d.gbl.pf1 with intEn := v } } }
  | .lb => { d with gbl := { d.gbl with win := { d.gbl.win with intEn := v } } }
  | .lbs => { d with gbl := { d.gbl with winS := { d.gbl.winS with intEn := v } } }
/-- GBL_LB_SRC written in a local-bus window: ALM_CHG of the non-secure one is cleared by 1. -/
def writeLbSrc (p : Path) (v : Nat) (d : Dev) : Dev :=
  if decide (p = .lb) && bit v 6 then { d with gbl := { d.gbl with win := { d.gbl.win with almChg := false } } } else d
/-- GBL_LB_EN written in a local-bus window; bits 5 and 6 exist in the non-secure one only. -/
def writeLbEn (p : Path) (v : Nat) (d : Dev) : Dev :=
  match p with
  | .lb => { d with gbl := { d.gbl with win := { d.gbl.win with lbEn := BitVec.ofNat 7 v } } }
  | .lbs => { d with gbl := { d.gbl with winS := { d.gbl.winS with lbEn := BitVec.ofNat 7 (v % 32) } } }
  | _ => d
/-- GBL. -/
def writeGbl (p : Path) (o v : Nat) (d : Dev) : Dev :=
  match o with
  | 0x014 => setIntEn p (BitVec.ofNat 26 v) d
  | 0x018 => intEoi p v d
  | 0x01C => writeLbSrc p v d
  | 0x020 => writeLbEn p v d
  | 0x024 => { d with gbl := { d.gbl with err := rw1c d.gbl.err v } }
  | _ => d
/-- TOD: the flags, and TOD_TXQ_STAT.OVF, which clears DROPS with it. -/
def writeTod (o v : Nat) (d : Dev) : Dev :=
  if o = 0x50 then { d with tod := { d.tod with flags := rw1c d.tod.flags v } }
  else if 0x100 ≤ o && o < 0x130 && bit v 8 then
    let p := (o - 0x100) / 4
    let q := mget {} d.tod.txq p
    { d with tod := { d.tod with txq := mput {} d.tod.txq p { q with ovf := false, drops := 0 } } }
  else d
/-- ALM. -/
def writeAlm (o v : Nat) (d : Dev) : Dev :=
  match o with
  | 0x4 => { d with alm := { d.alm with flags := rw1c d.alm.flags v } }
  | 0x8 => almForce (BitVec.ofNat 32 v) d
  | _ => d
/-- A mailbox: its data words, CTRL, and the RW1C bits of STAT. -/
def writeMbx (p : Path) (m o v : Nat) (d : Dev) : Dev :=
  let x := mboxOf d m
  if o < 0x40 then mbxWrite p m (o / 4) (BitVec.ofNat 32 v) d
  else if o = 0x40 then
    if mbxIn m && bit v 0 then mbxPost p m d
    else if !mbxIn m && bit v 1 then mbxTake p m d
    else accessOk p d
  else if o = 0x44 then
    accessOk p (setMbox d m { x with
      stall := x.stall && !bit v 7, discarded := x.discarded && !bit v 6, emptyEv := x.emptyEv && !bit v 5,
      msgEv := x.msgEv && !bit v 4, reject := x.reject && !bit v 3 })
  else accessOk p d
/-- The low or high word of a 64-bit register replaced. -/
def putHalf (old : W64) (high : Bool) (v : Nat) : W64 :=
  if high then BitVec.ofNat 64 (v % 2 ^ 32 * 2 ^ 32 + old.toNat % 2 ^ 32) else BitVec.ofNat 64 (old.toNat / 2 ^ 32 * 2 ^ 32 + v % 2 ^ 32)
/-- A base or write-back address of a pair (R440): ignored with CFG_ERR while the queue is on (a base), or where the low bits are not 0. -/
def writeBase (n o v : Nat) (d : Dev) : Dev :=
  let q := pairOf d n
  let high := o % 8 = 4
  let wb := 0x10 ≤ o
  if (q.en && !wb) || (!high && v % (if wb then 64 else 4096) != 0) then setPair d n { q with cfgErr := true }
  else if o < 8 then setPair d n { q with sqBase := putHalf q.sqBase high v }
  else if o < 0x10 then setPair d n { q with cqBase := putHalf q.cqBase high v }
  else setPair d n { q with cqWb := putHalf q.cqWb high v }
/-- A queue pair. -/
def writePair (n o v : Nat) (d : Dev) : Dev :=
  let q := pairOf d n
  let w := BitVec.ofNat 32 v
  if o < 0x18 then writeBase n o v d
  else match o with
    | 0x18 => if bit v 31 then queueEnable n w d else queueDisable n w d
    | 0x1C => sqTailWrite n w d
    | 0x24 => cqHeadWrite n w d
    | 0x2C => setPair d n { q with cfgErr := q.cfgErr && !bit v 3, err := q.err && !bit v 2 }
    | _ => d
/-- A delivery ring. -/
def writeRing (r o v : Nat) (d : Dev) : Dev :=
  let g := ringOf d r
  match o with
  | 0x0 => ringHead r v d
  | 0x8 => setRing d r { g with stale := g.stale && !bit v 3, err := g.err && !bit v 2 }
  | _ => d
/-- A host-ingest ring. -/
def writeHostRing (r o v : Nat) (d : Dev) : Dev :=
  match o with
  | 0x0 => hostTail r v d
  | 0x8 => setHostRing r { hostRing d r with err := (hostRing d r).err && !bit v 2 } d
  | _ => d
/-- A port: its flags. -/
def writePort (p o v : Nat) (d : Dev) : Dev :=
  if o = 4 then setPort d p { portOf d p with flags := rw1c (portOf d p).flags v } else d
/-- Four bytes of a window. -/
def putWindow (w : List (Nat × Byte)) (off v : Nat) : List (Nat × Byte) :=
  (List.range 4).foldl (fun w i => mput 0 w (off + i) (BitVec.ofNat 8 (v / 256 ^ i))) w
/-- The parameter window of a path. -/
def writeParam (p : Path) (off v : Nat) (d : Dev) : Dev :=
  if isLb p then { d with cmd := { d.cmd with paramLb := putWindow d.cmd.paramLb off v } }
  else { d with cmd := { d.cmd with paramPf0 := putWindow d.cmd.paramPf0 off v } }
/-- The flags of the blocks that lie below 0x000E_0000. -/
def writeLowFlags (a v : Nat) (d : Dev) : Dev :=
  match a with
  | 0x80004 => { d with ing := { d.ing with flags := rw1c d.ing.flags v } }
  | 0xA0004 => { d with aln := { d.aln with flags := rw1c d.aln.flags v } }
  | 0xA0010 => selectOs (BitVec.ofNat 32 v) d
  | 0xC0004 => { d with pub := { d.pub with flags := rw1c d.pub.flags v } }
  | 0xC0010 => { d with pub := { d.pub with qSel := BitVec.ofNat 6 v } }
  | _ => d
/-- AUX: its flags, AUX_INJ and the read indices. -/
def writeAux (o v : Nat) (d : Dev) : Dev :=
  if o = 8 then { d with aux := { d.aux with flags := rw1c d.aux.flags v } }
  else if o = 0xC then whenDo (engRuns d) (auxInj (BitVec.ofNat 32 v)) d
  else if 0x100 ≤ o && o < 0x180 && o % 8 = 4 then auxBufRd ((o - 0x100) / 8) (BitVec.ofNat 32 v) d
  else d
/-- The flags and selectors of the blocks from 0x000E_0000. -/
def writeHighFlags (p : Path) (a v : Nat) (d : Dev) : Dev :=
  match a with
  | 0xE0004 => { d with est := { d.est with flags := rw1c d.est.flags v } }
  | 0xE1004 => { d with osc := { d.osc with flags := rw1c d.osc.flags v } }
  | 0xE2004 => { d with isl := { d.isl with flags := rw1c d.isl.flags v } }
  | 0x10000C => { d with lmf := { d.lmf with flags := rw1c d.lmf.flags v } }
  | 0x120004 => { d with mtr := { d.mtr with flags := rw1c d.mtr.flags v } }
  | 0x140004 => { d with lch := { d.lch with flags := rw1c d.lch.flags v } }
  | 0x141004 => { d with cap := { d.cap with flags := rw1c d.cap.flags v } }
  | 0x141010 => capSelect v d
  | 0x160004 => { d with log := { d.log with flags := rw1c d.log.flags v } }
  | 0x180004 => { d with hrd := { d.hrd with flags := rw1c d.hrd.flags v } }
  | 0x1A0204 => { d with clk := { d.clk with xovr := rw1c d.clk.xovr v } }
  | 0x1A1004 => { d with pwr := { d.pwr with flags := rw1c d.pwr.flags v } }
  | 0x200000 => dirWinWrite p (BitVec.ofNat 32 v) d
  | _ => d
/-- The MSI-X table of a function; a vector whose mask bit is cleared sends what its PBA bit holds (R515). -/
def writeMsix (pf1 : Bool) (o v : Nat) (d : Dev) : Dev :=
  let f := funcOf d pf1
  if 16 * vectors pf1 ≤ o then d
  else if o % 16 = 12 then
    if bit v 0 then setFunc d pf1 { f with vecMask := setBit f.vecMask (o / 16) }
    else releaseVector pf1 (setFunc d pf1 { f with vecMask := clrBit f.vecMask (o / 16) }) (o / 16)
  else setFunc d pf1 { f with table := mput 0 f.table (o / 4) (BitVec.ofNat 32 v) }

/-! ### A write -/

/-- A write in the PF1 map, but for its mailboxes. -/
def writePf1 (p : Path) (a v : Nat) (d : Dev) : Dev :=
  if a < 0x1000 then writeGbl p a v d
  else if 0x20200 ≤ a && a < 0x20400 then writePair ((a - 0x20000) / 0x40) (a % 0x40) v d
  else if a = 0x1C0004 then { d with key := { d.key with flags := rw1c d.key.flags v } }
  else if 0x1D0000 ≤ a && a < 0x1E0000 then { d with cmd := { d.cmd with fwlWindow := putWindow d.cmd.fwlWindow (a - 0x1D0000) v } }
  else if 0x1F00000 ≤ a then writeMsix true (a - 0x1F00000) v d
  else d
/-- A write in the PF0 map, but for its mailboxes. -/
def writePf0 (p : Path) (a v : Nat) (d : Dev) : Dev :=
  if a < 0x1000 then writeGbl p a v d
  else if a < 0x2000 then writeTod (a - 0x1000) v d
  else if a < 0x3000 then writeAlm (a - 0x2000) v d
  else if 0x14000 ≤ a && a < 0x15000 then writeParam p (a - 0x14000) v d
  else if 0x20000 ≤ a && a < 0x20200 then writePair ((a - 0x20000) / 0x40) (a % 0x40) v d
  else if 0x28000 ≤ a && a < 0x28400 then writeRing ((a - 0x28000) / 0x20) (a % 0x20) v d
  else if 0x30000 ≤ a && a < 0x30200 then writeHostRing ((a - 0x30000) / 0x20) (a % 0x20) v d
  else if 0x40000 ≤ a && a < 0x60000 then writePort ((a - 0x40000) / 0x4000) (a % 0x4000) v d
  else if 0x60000 ≤ a && a < 0x68000 then writePort (8 + (a - 0x60000) / 0x2000) (a % 0x2000) v d
  else if a < 0xE0000 then writeLowFlags a v d
  else if 0x101000 ≤ a && a < 0x102000 then writeAux (a - 0x101000) v d
  else if 0x3F00000 ≤ a then writeMsix false (a - 0x3F00000) v d
  else writeHighFlags p a v d
/-- The mailbox at an offset of a path's map. -/
def mbxAt (p : Path) (a : Nat) : Option Nat :=
  if isSecure p then (if 0x18000 ≤ a && a < 0x18800 then some (8 + (a - 0x18000) / 0x100) else none)
  else if 0x10000 ≤ a && a < 0x10800 then some ((a - 0x10000) / 0x100) else none
/-- A whole word is written at a word offset. -/
def writeWord (p : Path) (a v : Nat) (d : Dev) : Dev :=
  if !isMapped p a then accessOk p (unmapped d)
  else match mbxAt p a with
    | some m => writeMbx p m (a % 0x100) v d
    | none => accessOk p (if isLb p && pcieOnly a then d else if isSecure p then writePf1 p a v d else writePf0 p a v d)
/-- A PCIe write without every byte enable is discarded (R502); the local bus writes whole words. -/
def writeAccess (p : Path) (addr : W32) (v : W32) (enables : BitVec 4) (d : Dev) : Dev :=
  let a := addr.toNat / 4 * 4
  if !pathOpen d p then d
  else if !isLb p && isMapped p a && enables != 15 then setFlag 0 1 (gblCnt 1 d)
  else writeWord p a v.toNat d
/-- REGISTER_WRITE. -/
def execRegisterWrite (path : Path) (addr : W32) (v : W32) (enables : BitVec 4) : State → Host.Outcome State Fault Refusal :=
  run (writeAccess path addr v enables)

/-- A half-word write in 16-bit mode (R510): the low half is held, the high half applies the word. -/
def halfWrite (p : Path) (addr : W32) (high : Bool) (half : W16) (d : Dev) : Dev :=
  if !d.pwr.straps.lbWidth || !pathOpen d p then d
  else if !high then accessOk p { d with gbl := { d.gbl with lbHeld := some half } }
  else
    let low := d.gbl.lbHeld.getD 0
    writeWord p (addr.toNat / 4 * 4) (half.toNat * 65536 + low.toNat) { d with gbl := { d.gbl with lbHeld := none } }
/-- LB_HALF_WRITE. -/
def execLbHalfWrite (secure : Bool) (addr : W32) (high : Bool) (half : W16) : State → Host.Outcome State Fault Refusal :=
  run (halfWrite (if secure then .lbs else .lb) addr high half)

end Sys2Proof.Machine
end

