-- ==== Sys2Proof/Machine/Pwr.lean ====
section
/-!
DEFINITION. Power, reset and start-up (chapter 20): supplies, reset release, alignment-ready, the power-fail sequence, DORMANT, and the loss
of a clock lock (R41, R452, R519 to R532; log entry 31).
-/
namespace Sys2Proof.Machine

/-- Counts in Table 20-9. -/
def pwrCnt (i : Nat) (d : Dev) : Dev := bump d 0x16 i
/-- A LOCK bit at a value. -/
def setLock (domain : Nat) (on : Bool) (d : Dev) : Dev :=
  { d with clk := { d.clk with lock := if on then setBit d.clk.lock domain else clrBit d.clk.lock domain } }
/-- LOCK bits at one value. -/
def setLocks (l : List Nat) (on : Bool) (d : Dev) : Dev := l.foldl (fun d i => setLock i on d) d

/-! ### Supplies and causes of a reset (R519 to R522) -/

/-- POWER_ON (R519): the main supplies are good, and the release of the reset may follow. A running device has them already. -/
def execPowerOn : State → Host.Outcome State Fault Refusal :=
  run fun d => if isLive d then d else { d with pwr := { d.pwr with supplies := true } }
/-- PORST_N (R522). -/
def execPorstN : State → Host.Outcome State Fault Refusal := runLive (deviceReset 1)
/-- BROWN_OUT (R520): the device resets and stays held until the supplies are good again. -/
def execBrownOut : State → Host.Outcome State Fault Refusal := run fun d =>
  let d := if isLive d then deviceReset 2 d else d
  { d with pwr := { d.pwr with supplies := false } }
/-- AON_POWER_LOST: KS, PCC, OPT and the tamper state are lost (R422, R464). -/
def execAonPowerLost : State → Host.Outcome State Fault Refusal := run fun d =>
  let tmp : Tmp := { presPin := d.tmp.presPin }
  { d with pwr := { d.pwr with aonLost := true }, key := { d.key with ks := none }, tmp := tmp }
/-- AON_SOURCE_CHANGEOVER (R536): no state is lost. -/
def execAonSourceChangeover (vdd : Bool) : State → Host.Outcome State Fault Refusal :=
  run fun d => { d with pwr := { d.pwr with aonVdd := vdd } }

/-! ### Reset release and start-up (R521 to R524) -/

/-- The newest of the MRAM copies of PCC and OPT, by OPT modulo 2^40 (R464). -/
def newestCopy (l : List (BitVec 24 × BitVec 40)) : BitVec 24 × BitVec 40 :=
  l.foldl (fun a b => if b.2 != a.2 && (b.2 - a.2).toNat < 2 ^ 39 then b else a) (l.headD (0, 0))
/-- PCC and OPT after a loss of both always-on supplies come from MRAM (R464). -/
def aonRestore (d : Dev) : Dev :=
  if !d.pwr.aonLost then d
  else
    let saves := (d.mtr.saves.map Prod.snd).filter MtrSave.crcOk
    let c := newestCopy ((d.log.pccCopy, d.log.optCopy) :: saves.map fun r => (r.pcc, r.opt))
    { d with
      log := { d.log with pcc := c.1, opt := c.2, optSub := 0 }
      pwr := { d.pwr with aonLost := false } }
/-- The domains that run and are locked once reset is released; LB_CLK is taken to be driven (log entry 31). -/
def releaseLocks : List Nat := [0, 1, 2, 3, 4, 5, 6, 7, 16, 17, 18]
/-- Reset is released: the straps are sampled, GLITCH is armed, PCC counts the release, and every internal domain locks. -/
def release (s : StrapsIn) (d : Dev) : Dev :=
  let d := aonRestore d
  let d := { d with
    log := { d.log with pcc := d.log.pcc + 1 }
    gbl := { d.gbl with lbRunning := true }
    pwr := { d.pwr with
      held := false
      run := .starting
      straps := { priority := s.priority, bootSrc := s.bootSrc, lbWidth := s.lbWidth }
      releasedAt := d.log.opt
      glitch := true } }
  setLocks releaseLocks true d
/-- The parameters of the last HRD_CONFIG in the configuration store, which holds the pairing setting (R476; log entry 31). -/
def storedPairing (d : Dev) : Option Bytes :=
  (((d.cmd.store.map StoredBatch.packets).flatten.filter fun b => leAt b 0 2 == 0x0C01).getLast?).map fun b => b.drop 16
/-- The stored pairing setting in force. -/
def loadPairing (d : Dev) : Dev :=
  match storedPairing d with
  | none => d
  | some b => { d with hrd := { d.hrd with
      enabled := leAt b 0 1 = 1
      pairId := BitVec.ofNat 16 (leAt b 1 2)
      witnessMask := BitVec.ofNat 12 (leAt b 3 2)
      pairWait := leAt b 5 1
      timeOutStandby := leAt b 6 1 = 1
      auto := BitVec.ofNat 4 (leAt b 7 1)
      asym := signed 48 (leAt b 8 6) } }
/-- The cause of loader mode, if any: the straps, or the first check of Fawn that fails (R454, FWL_STAT.CAUSE). -/
def loaderCause (d : Dev) : Option Nat :=
  let x := d.cmd.stored
  if bit d.pwr.straps.bootSrc.toNat 0 then some 6
  else if !d.cmd.storedComplete then some 1
  else if !x.sigOk then some 2
  else if x.svn < d.cmd.minSvn then some 3
  else if d.cmd.fawnVersion < x.minFawn then some 4
  else if !d.cmd.bodyHashOk then some 5
  else none
/-- Fawn runs alone (R459). -/
def enterLoader (cause : Nat) (d : Dev) : Dev :=
  let d := { d with
    cmd := { d.cmd with loader := true, loaderCause := BitVec.ofNat 3 cause }
    pwr := { d.pwr with run := .loader } }
  outputsOff (depart 5 (logEv 0x1903 cause 0 0 d))
/-- The stored image runs. -/
def startImage (d : Dev) : Dev :=
  let x := d.cmd.stored
  logEv 0x1904 (versionWord x) x.build.toNat (x.schema.toNat + x.svn.toNat * 65536) { d with cmd := { d.cmd with running := some x } }
/-- A CHANGING mark: the life-cycle change resumes from its step 2, and nothing else is loaded (R427). -/
def resumeChange (n : LifeCycle) (d : Dev) : Dev := zeroizeLine (logEv 0x1709 (lcNum d.key.lc) (lcNum n) 1 d)
/-- The schema of the image against that of the store (R460). -/
def fitSchema (d : Dev) : Dev :=
  let image := (runningImage d).schema
  let store := d.cmd.storeSchema
  if store < image then
    let batches := d.cmd.store.map (migrateBatch image)
    let d := { d with cmd := { d.cmd with store := batches, storeSchema := image, storeHalf := !d.cmd.storeHalf, migrated := true } }
    logEv 0x1905 store.toNat image.toNat batches.length d
  else if image < store then
    logEv 0x1909 store.toNat image.toNat 0 { d with cmd := { d.cmd with replay := { d.cmd.replay with result := 3 } } }
  else d
/-- The firmware accepts commands; stored batches, if they fit and BOOT_SRC is not 10, are to be replayed (R446). -/
def serve (d : Dev) : Dev :=
  let fits := d.cmd.storeSchema = (runningImage d).schema
  let go := !d.cmd.store.isEmpty && d.pwr.straps.bootSrc != 2 && fits
  let d := { d with cmd := { d.cmd with fwUp := true, replay := { d.cmd.replay with running := go } } }
  if d.hrd.enabled && fits then enterPairing 0 d else d
/-- The firmware's part of start-up (Table 20-4): a change that resumes, a tamper that halts, or the restores and service. -/
def startFirmware (lost : Bool) (d : Dev) : Dev :=
  match d.key.changing with
  | some n => resumeChange n { d with key := { d.key with lcRead := true } }
  | none =>
    let d := tamperAtStart lost { d with key := { d.key with lcRead := true } }
    if decide (d.pwr.run = .tampered) then { d with cmd := { d.cmd with fwUp := true } }
    else serve (meterRestore (keyRestore (fitSchema d)))
/-- RESET_RELEASE (R521 to R524): the end of the reset, and start-up up to the point at which the firmware takes commands. -/
def execResetRelease (straps : StrapsIn) : State → Host.Outcome State Fault Refusal := run fun d =>
  if !d.pwr.held || !d.pwr.supplies then d
  else
    let lost := d.pwr.aonLost
    let d := readLog (release straps d)
    let d := logEv 0x1601 d.pwr.cause.toNat d.log.pcc.toNat (strapBits d) d
    let d := loadPairing d
    match loaderCause d with
    | some c => enterLoader c d
    | none => startFirmware lost (startImage d)
/-- The first batch of the store has been switched to, or no batch is to be replayed (R524). -/
def firstSwitched (d : Dev) : Bool :=
  !d.cmd.replay.running || (d.cmd.replay.next != 0 && (d.cmd.replay.next != 1 || d.clk.pending.isNone))
/-- ALIGNMENT_READY (R36, R455, R524). -/
def execAlignmentReady : State → Host.Outcome State Fault Refusal := runLive fun d =>
  if !decide (d.pwr.run = .starting) || !fwAccepts d || !firstSwitched d then d
  else
    let ms := min 65535 (optSince d d.pwr.releasedAt)
    let svn := (runningImage d).svn
    let d := { d with
      pwr := { d.pwr with run := .ready, readyMs := BitVec.ofNat 16 ms }
      clk := { d.clk with xmode := 0xFFFF }
      cmd := { d.cmd with minSvn := if d.cmd.minSvn < svn then svn else d.cmd.minSvn } }
    roleAtReady (logEv 0x1602 ms d.clk.gen.toNat 0 d)

/-! ### The power-fail sequence (R529, R530) -/

/-- Metering has been restored since the last start-up. -/
def meterReady (d : Dev) : Bool := d.cmd.fwUp && !decide (d.pwr.run = .tampered)
/-- The processors run, so that the sequence can. -/
def pfwCanRun (d : Dev) : Bool := !d.cmd.fwRestarting && !stalledIn d 4
/-- Step 2: the energy save, or its omission before METER_RESTORED. -/
def pfwSave (d : Dev) : Dev :=
  if meterReady d then endSave (meterPfwSave d) else logEv 0x1606 0 0 0 (setFlag 0x16 1 (pwrCnt 1 d))
/-- The end times of the steps in µs: free values that do not fall (log entry 1), each saturating. -/
def pfwTimes (w : Nat) : Nat × Nat × Nat :=
  let a := w % 65536
  let b := min 65535 (a + w / 65536 % 65536)
  (a, b, min 65535 (b + w / 4294967296 % 65536))
/-- Steps 1 to 3, and the record of the sequence; `bounded` says that the bounds of Table 20-7 apply. -/
def pfwSteps (bounded : Bool) (d : Dev) : Dev :=
  let saves := meterReady d
  let d := bump (flushLog true d) 0x13 8
  let d := flushLog true (capTrailers (pfwSave d))
  let w := drawWord d
  let t := pfwTimes w.1.toNat
  let save := if saves then t.2.1 else 0
  let late := bounded && (150 < t.1 || 400 < save || 550 < t.2.2)
  let d := w.2
  let d := { d with pwr := { d.pwr with
    seqRun := false
    flushUs := BitVec.ofNat 16 t.1
    saveUs := BitVec.ofNat 16 save
    trailerUs := BitVec.ofNat 16 t.2.2 } }
  logEv 0x1603 t.1 save t.2.2 (setFlag 0x16 0 (if late then setFlag 0x16 2 d else d))
/-- PFW_ASSERT (R529): step 0 in hardware, then steps 1 to 3, which wait for processors that do not run. -/
def execPfwAssert : State → Host.Outcome State Fault Refusal := runLive fun d =>
  if d.pwr.pfw || d.pwr.seqRun then d
  else
    let d := { d with pwr := { d.pwr with pfw := true, pfwAt := d.log.opt, glitch := false, seqRun := true } }
    let d := capPowerFail (depart 1 (pwrCnt 0 d))
    if pfwCanRun d then pfwSteps true d else d
/-- Steps that waited for the processors run. -/
def pfwResume (d : Dev) : Dev := if d.pwr.seqRun && pfwCanRun d then pfwSteps false d else d
/-- PFW_RELEASE (R530): after the sequence. -/
def execPfwRelease : State → Host.Outcome State Fault Refusal := runLive fun d =>
  if d.pwr.pfw && !d.pwr.seqRun then
    logEv 0x1604 (optSince d d.pwr.pfwAt) 0 0 { d with pwr := { d.pwr with pfw := false, glitch := true } }
  else d
/-- FW_RESTART_DONE (R452): commands are accepted again, and what waited goes on. -/
def execFwRestartDone : State → Host.Outcome State Fault Refusal := runLive fun d =>
  if d.cmd.fwRestarting then refuseWaiting (pfwResume { d with cmd := { d.cmd with fwRestarting := false } }) else d

/-! ### DORMANT (R525, R526) -/

/-- PWR_DORMANT (R525). -/
def execPwrDormant (h : Hdr) : State → Host.Outcome State Fault Refusal :=
  cmdPlain h 0x0130 [] fun d =>
    let r := d.pwr.run
    let moving := decide (r = .entering) || decide (r = .waking)
    checks [(!(decide (d.hrd.role = .unpaired) || decide (d.hrd.role = .standby)) || (!decide (r = .ready) && !moving), .notPermitted),
      (d.pwr.pfw || moving || d.clk.pending.isSome || d.clk.retiring.isSome, .busy)] (fun d =>
        let k := firstTickFrom (nowNs d + 1000000)
        let at_ : W48 × Nat := (BitVec.ofNat 48 (k / 3600), k % 3600)
        accepted { d with pwr := { d.pwr with run := .entering, dormAt := some at_, exitCause := none } }) d
/-- PWR_WAKE (R526). -/
def execPwrWake (h : Hdr) : State → Host.Outcome State Fault Refusal :=
  cmdPlain h 0x0131 [] fun d =>
    checks [(!dormantSpan d, .nothingToAbort)] (fun d => accepted (noteExit 0 d)) d
/-- PWR_STATUS: PWR_STAT, PWR_FLAGS, the straps as GBL_STATE holds them, READY_MS and the three end times (log entry 11). -/
def execPwrStatus (h : Hdr) : State → Host.Outcome State Fault Refusal :=
  cmdPlain h 0x0132 [] fun d =>
    okayWith (leBytes 4 (pwrStat d) ++ leBytes 4 d.pwr.flags.toNat ++ leBytes 1 (strapBits d) ++ pk d.pwr.readyMs ++ pk d.pwr.flushUs ++
      pk d.pwr.saveUs ++ pk d.pwr.trailerUs) d
/-- OPEN slots of every O-stream. -/
def openCount (d : Dev) : Nat := (d.aln.os.map fun e => (e.2.slots.filter fun s => decide (s.state = .opened)).length).sum
/-- OPEN slots are discarded without a commit (R525). -/
def discardOpen (d : Dev) : Dev :=
  { d with aln := { d.aln with os := d.aln.os.map fun e => (e.1, { e.2 with slots := e.2.slots.filter fun s => !decide (s.state = .opened) }) } }
/-- The pulse outputs go to their inactive level (Table 20-5). -/
def pulsesIdle (d : Dev) : Dev :=
  (List.range 8).foldl (fun d p =>
    let x := pulseOf d p
    if x.active then pulseOff p d else d) d
/-- The trunk links fall with CLK_TX and CLK_RX (R98). -/
def trunksDown (d : Dev) : Dev :=
  (List.range 8).foldl (fun d p =>
    let x := portOf d p
    if decide (x.link = .up) then linkFall p .down noCut d
    else if x.mode = 0 then d
    else setPort d p { x with link := .down }) d
/-- The trunk ports train again. -/
def trunksTrain (d : Dev) : Dev :=
  (List.range 8).foldl (fun d p => let x := portOf d p; if x.mode = 0 then d else setPort d p { x with link := .training }) d
/-- The domains of Table 1-11 that DORMANT stops, but for the receive clocks. -/
def stoppedDomains : List Nat := [0, 1, 2, 7, 17]
/-- DORMANT begins (R525): what is open is discarded, the engines and outputs stop, the log is flushed, and the stopped domains lose lock. -/
def enterDormant (d : Dev) : Dev :=
  let n := openCount d
  let d := capDormant (flushLog true (logEv 0x1605 0 0 n d))
  let d := meterDormant (pulsesIdle (auxDormant d))
  let d := bumpN (discardOpen d) 0x16 4 n
  let d := if n = 0 then d else setFlag 0x16 3 d
  let d := setLocks (stoppedDomains ++ rangeFrom 8 8) false (trunksDown d)
  let d := pwrCnt 2 { d with
    clk := { d.clk with stalled := d.clk.stalled.filter (fun e => !stoppedDomains.contains e.1), missed := [] }
    pwr := { d.pwr with run := .dormant, dormAt := none, dormSlots := n } }
  match d.pwr.exitCause with
  | some c => noteExit c.toNat d
  | none => d
/-- DORMANT_ENTRY (R525), in the order of its steps. The record of the entry precedes the flush, so that the END mark stands until the exit
(R470; log entry 31). An entry that PFW_N holds off waits. -/
def execDormantEntry : State → Host.Outcome State Fault Refusal := runLive fun d =>
  match d.pwr.dormAt with
  | none => d
  | some (sec, tick) =>
    if !decide (d.pwr.run = .entering) || d.pwr.pfw then d else enterDormant (bringTo d (tickInst sec tick))
/-- DORMANT ends (R526): the stopped domains have lock again, and what it restarts restarts. -/
def leaveDormant (cause : Nat) (d : Dev) : Dev :=
  let d := setLocks stoppedDomains true d
  let d := restartAll 2 (meterWake (auxWake (pwrCnt 3 d)))
  let d := { d with
    osc := { d.osc with restartDue := d.osc.restartDue || d.osc.force.isSome }
    isl := { d.isl with restartDue := d.isl.restartDue || d.isl.force.isSome }
    pwr := { d.pwr with run := .ready, exitCause := none, wokeTick := none } }
  roleAtReady (trunksTrain (logEv 0x1605 1 cause d.pwr.dormSlots d))
/-- DORMANT_EXIT (R526): alignment-ready at the first tick start at least 20 ms after the exit cause. -/
def execDormantExit : State → Host.Outcome State Fault Refusal := runLive fun d =>
  match d.pwr.wokeTick with
  | none => d
  | some (sec, tick) =>
    if !decide (d.pwr.run = .waking) then d else leaveDormant (d.pwr.exitCause.getD 0).toNat (bringTo d (tickInst sec tick))

/-! ### Clock locks (R41, R527) -/

/-- A domain that must relock within 10 ms has stopped. -/
def stall (domain : Nat) (d : Dev) : Dev :=
  { d with clk := { d.clk with stalled := mset d.clk.stalled domain (optUs d) } }
/-- The link of a port is lost (R97). -/
def portLost (d : Dev) (p : Nat) : Dev :=
  let x := portOf d p
  if decide (x.link = .up) then linkFall p .down noCut d else d
/-- CLK_TOD changes over to REFCLK_100 (R53). -/
def todToRefclk (d : Dev) : Dev :=
  if d.tod.osc then logEv 0x0104 0 0 0 (setFlag 0x01 3 { d with tod := { d.tod with osc := false, rebase := true } }) else d
/-- The effect of the loss of a lock (Table 20-6). -/
def lockLost (domain : Nat) (d : Dev) : Dev :=
  if domain ≤ 2 then autoSwitch 0 (stall domain d)
  else if domain = 3 then stall 3 (todToRefclk d)
  else if domain = 4 then stall 4 d
  else if domain = 5 then linkSurprise d
  else if domain = 6 then { d with gbl := { d.gbl with lbRunning := false } }
  else if domain = 7 then (List.range 8).foldl portLost d
  else if domain < 16 then portLost d (domain - 8)
  else if domain = 16 then herdFails ((rangeFrom 8 4).foldl portLost d)
  else d
/-- PLL_UNLOCK (R41). -/
def execPllUnlock (domain : Fin 19) : State → Host.Outcome State Fault Refusal := runLive fun d =>
  let i : Nat := domain
  if bit d.clk.lock.toNat i then lockLost i (logEv 0x1505 i 0 0 (setLock i false d)) else d
/-- Slots whose deadline passed while the domain was stopped commit, oldest first (R527). -/
def commitOverdue (d : Dev) : Dev :=
  d.aln.os.foldl (fun d e =>
    (((osRun d e.1).slots.reverse).filter fun s => decide (s.state = .opened)).foldl (fun d s =>
      match slotOf d e.1 s.sec s.tick with
      | some x => tryCommit e.1 x d
      | none => d) d) d
/-- Ticks that began while the data path was stopped are taken in order, and overdue slots commit. -/
def catchUp (d : Dev) : Dev :=
  let l := d.clk.missed
  let d := { d with clk := { d.clk with missed := [] } }
  commitOverdue (l.foldl (fun d e => dataTick e.1 e.2 d) d)
/-- PLL_RELOCK (R527): the work resumes where it stopped. -/
def execPllRelock (domain : Fin 19) : State → Host.Outcome State Fault Refusal := runLive fun d =>
  let i : Nat := domain
  match mfind d.clk.stalled i with
  | none => d
  | some t =>
    let us := optUs d - t
    let d := setLock i true { d with clk := { d.clk with stalled := d.clk.stalled.filter fun e => e.1 != i } }
    let d := logEv 0x1607 i us 0 (setFlag 0x16 4 (pwrCnt 5 d))
    let d := if (i = 0 || i = 2) && coreRuns d then catchUp d else d
    if i = 4 then refuseWaiting (pfwResume d) else d
/-- PLL_RELOCK_TIMEOUT (R527): the device resets with cause 6. -/
def execPllRelockTimeout (domain : Fin 19) : State → Host.Outcome State Fault Refusal := runLive fun d =>
  match mfind d.clk.stalled domain.val with
  | some t => deviceReset 6 (waitUntil d ((t + 10000) * 1000))
  | none => d
/-- CLOCK_LOCK_RESTORED: a domain whose loss causes no reset locks again; one that DORMANT has stopped does not. -/
def execClockLockRestored (domain : Fin 19) : State → Host.Outcome State Fault Refusal := runLive fun d =>
  let i : Nat := domain
  let off := inDormant d && (stoppedDomains.contains i || (8 ≤ i && i < 16))
  if i < 5 || off then d
  else
    let d := setLock i true d
    if i = 6 then { d with gbl := { d.gbl with lbRunning := true } } else d

end Sys2Proof.Machine
end

