-- ==== Sys2Proof/Machine/Dispatch.lean ====
section
/-!
DEFINITION. The dispatch: one arm per constructor of `Instr`.
-/
namespace Sys2Proof.Machine

def exec (i : Instr) (s : State) : Host.Outcome State Fault Refusal :=
  match i with
  | .tickStart => Sys2Proof.Machine.execTickStart s
  | .slotDeadline os sec tick => Sys2Proof.Machine.execSlotDeadline os sec tick s
  | .orderWaitCommit os sec tick => Sys2Proof.Machine.execOrderWaitCommit os sec tick s
  | .gazelleLaneStart => Sys2Proof.Machine.execGazelleLaneStart s
  | .assemblyStart => Sys2Proof.Machine.execAssemblyStart s
  | .perSecondSummary => Sys2Proof.Machine.execPerSecondSummary s
  | .genSwitch h gen sec tick => Sys2Proof.Machine.execGenSwitch h gen sec tick s
  | .genCancel h => Sys2Proof.Machine.execGenCancel h s
  | .genDiscardStaged h => Sys2Proof.Machine.execGenDiscardStaged h s
  | .genStatus h => Sys2Proof.Machine.execGenStatus h s
  | .counterSnapshot h code => Sys2Proof.Machine.execCounterSnapshot h code s
  | .pllUnlock domain => Sys2Proof.Machine.execPllUnlock domain s
  | .pllRelock domain => Sys2Proof.Machine.execPllRelock domain s
  | .pllRelockTimeout domain => Sys2Proof.Machine.execPllRelockTimeout domain s
  | .secondStart => Sys2Proof.Machine.execSecondStart s
  | .todSerOutSentence => Sys2Proof.Machine.execTodSerOutSentence s
  | .todIncWrite value => Sys2Proof.Machine.execTodIncWrite value s
  | .phaseAdjDone => Sys2Proof.Machine.execPhaseAdjDone s
  | .ppsEdge input taken => Sys2Proof.Machine.execPpsEdge input taken s
  | .todSerInSentence m => Sys2Proof.Machine.execTodSerInSentence m s
  | .ptpRx port domain m => Sys2Proof.Machine.execPtpRx port domain m s
  | .ptpTxInterval port => Sys2Proof.Machine.execPtpTxInterval port s
  | .timeRefLost code => Sys2Proof.Machine.execTimeRefLost code s
  | .referenceUpgrade => Sys2Proof.Machine.execReferenceUpgrade s
  | .ref10Changeover within => Sys2Proof.Machine.execRef10Changeover within s
  | .todNow0Read path => Sys2Proof.Machine.execTodNow0Read path s
  | .timeStatus h => Sys2Proof.Machine.execTimeStatus h s
  | .timeSet h sec ns uH atPps => Sys2Proof.Machine.execTimeSet h sec ns uH atPps s
  | .timePhaseAdjust h shift n => Sys2Proof.Machine.execTimePhaseAdjust h shift n s
  | .timePhaseAbort h => Sys2Proof.Machine.execTimePhaseAbort h s
  | .timeRefSelect h refs pol baud => Sys2Proof.Machine.execTimeRefSelect h refs pol baud s
  | .timeQualParams h uLock fRef10 aRef10 fRef100 aRef100 holdSpec degraded => Sys2Proof.Machine.execTimeQualParams h uLock fRef10 aRef10 fRef100 aRef100 holdSpec degraded s
  | .timeLeapSet h entries => Sys2Proof.Machine.execTimeLeapSet h entries s
  | .timePtpPort h p => Sys2Proof.Machine.execTimePtpPort h p s
  | .timeOutputs h p => Sys2Proof.Machine.execTimeOutputs h p s
  | .frameReceive port f => Sys2Proof.Machine.execFrameReceive port f s
  | .pauseDelivered port => Sys2Proof.Machine.execPauseDelivered port s
  | .pauseTimerExpiry port => Sys2Proof.Machine.execPauseTimerExpiry port s
  | .frameTransmit port => Sys2Proof.Machine.execFrameTransmit port s
  | .portLinkUp port fecLock anDone partner => Sys2Proof.Machine.execPortLinkUp port fecLock anDone partner s
  | .portLinkDown port entered cut => Sys2Proof.Machine.execPortLinkDown port entered cut s
  | .portHighBer port codewords => Sys2Proof.Machine.execPortHighBer port codewords s
  | .fwControlQueue port => Sys2Proof.Machine.execFwControlQueue port s
  | .portConfig h p cut => Sys2Proof.Machine.execPortConfig h p cut s
  | .portAddr h port addr mcast promisc => Sys2Proof.Machine.execPortAddr h port addr mcast promisc s
  | .portMcastList h port first addrs => Sys2Proof.Machine.execPortMcastList h port first addrs s
  | .portVlanFilter h p => Sys2Proof.Machine.execPortVlanFilter h p s
  | .portTsAdj h port rx tx => Sys2Proof.Machine.execPortTsAdj h port rx tx s
  | .portStatus h port => Sys2Proof.Machine.execPortStatus h port s
  | .portMacsecConfig h p => Sys2Proof.Machine.execPortMacsecConfig h p s
  | .portMacsecSa h p => Sys2Proof.Machine.execPortMacsecSa h p s
  | .portMacsecTxAn h port an => Sys2Proof.Machine.execPortMacsecTxAn h port an s
  | .frameClassify port => Sys2Proof.Machine.execFrameClassify port s
  | .frameDispatch => Sys2Proof.Machine.execFrameDispatch s
  | .internalFrameIn r => Sys2Proof.Machine.execInternalFrameIn r s
  | .fwFrameQueue c => Sys2Proof.Machine.execFwFrameQueue c s
  | .rngHiTailWrite ring v => Sys2Proof.Machine.execRngHiTailWrite ring v s
  | .hostDescFetch ring d readOk space => Sys2Proof.Machine.execHostDescFetch ring d readOk space s
  | .ingStreamKey h p => Sys2Proof.Machine.execIngStreamKey h p s
  | .ingStreamDef h p => Sys2Proof.Machine.execIngStreamDef h p s
  | .ingStreamRemove h stream => Sys2Proof.Machine.execIngStreamRemove h stream s
  | .ingStreamStatus h stream => Sys2Proof.Machine.execIngStreamStatus h stream s
  | .ingStreamRelease h stream => Sys2Proof.Machine.execIngStreamRelease h stream s
  | .ingIpAddr h p => Sys2Proof.Machine.execIngIpAddr h p s
  | .ingHostRing h p => Sys2Proof.Machine.execIngHostRing h p s
  | .ingStreamGate h stream set clear mask => Sys2Proof.Machine.execIngStreamGate h stream set clear mask s
  | .ingStreamSigkey h stream binding keyId slot kind => Sys2Proof.Machine.execIngStreamSigkey h stream binding keyId slot kind s
  | .dirWrite h chan e => Sys2Proof.Machine.execDirWrite h chan e s
  | .dirLoad h p => Sys2Proof.Machine.execDirLoad h p s
  | .dirLoadDone data readOk => Sys2Proof.Machine.execDirLoadDone data readOk s
  | .dirClear h first count => Sys2Proof.Machine.execDirClear h first count s
  | .dirRead h chan gsel => Sys2Proof.Machine.execDirRead h chan gsel s
  | .dirScaleWrite h index e => Sys2Proof.Machine.execDirScaleWrite h index e s
  | .dirValidate h first count => Sys2Proof.Machine.execDirValidate h first count s
  | .dirStatus h => Sys2Proof.Machine.execDirStatus h s
  | .dirWinIdxWrite path v => Sys2Proof.Machine.execDirWinIdxWrite path v s
  | .dirWinFetchDone path => Sys2Proof.Machine.execDirWinFetchDone path s
  | .reportCheck => Sys2Proof.Machine.execReportCheck s
  | .latencySweep os => Sys2Proof.Machine.execLatencySweep os s
  | .alnOsSelWrite v => Sys2Proof.Machine.execAlnOsSelWrite v s
  | .alnOstreamDef h p => Sys2Proof.Machine.execAlnOstreamDef h p s
  | .alnOstreamRemove h ostream => Sys2Proof.Machine.execAlnOstreamRemove h ostream s
  | .alnMemberSet h p => Sys2Proof.Machine.execAlnMemberSet h p s
  | .alnMemberClear h first count => Sys2Proof.Machine.execAlnMemberClear h first count s
  | .alnParams h restartGap => Sys2Proof.Machine.execAlnParams h restartGap s
  | .alnOstreamStatus h ostream => Sys2Proof.Machine.execAlnOstreamStatus h ostream s
  | .alnMemberStatus h memb half => Sys2Proof.Machine.execAlnMemberStatus h memb half s
  | .alnLandPlan h => Sys2Proof.Machine.execAlnLandPlan h s
  | .ringRecordWrite feeder => Sys2Proof.Machine.execRingRecordWrite feeder s
  | .rngDlHeadWrite ring v => Sys2Proof.Machine.execRngDlHeadWrite ring v s
  | .queueStale queue => Sys2Proof.Machine.execQueueStale queue s
  | .pubOstreamFmt h src block => Sys2Proof.Machine.execPubOstreamFmt h src block s
  | .pubTemplate h src block => Sys2Proof.Machine.execPubTemplate h src block s
  | .pubTemplateRemove h template => Sys2Proof.Machine.execPubTemplateRemove h template s
  | .pubCfgImage h ostream shard kind addr len image readOk => Sys2Proof.Machine.execPubCfgImage h ostream shard kind addr len image readOk s
  | .pubRing h p => Sys2Proof.Machine.execPubRing h p s
  | .pubRoute h type ring => Sys2Proof.Machine.execPubRoute h type ring s
  | .pubQueueParams h queue limit watermark staleT => Sys2Proof.Machine.execPubQueueParams h queue limit watermark staleT s
  | .pubHistPlan h tMax => Sys2Proof.Machine.execPubHistPlan h tMax s
  | .pubHistRead h group sec tick count addr => Sys2Proof.Machine.execPubHistRead h group sec tick count addr s
  | .pubTemplateStatus h template => Sys2Proof.Machine.execPubTemplateStatus h template s
  | .pubTemplateSigkey h p => Sys2Proof.Machine.execPubTemplateSigkey h p s
  | .estSlotStart => Sys2Proof.Machine.execEstSlotStart s
  | .estSlotDelivered => Sys2Proof.Machine.execEstSlotDelivered s
  | .estRefactorDone => Sys2Proof.Machine.execEstRefactorDone s
  | .estPreparationDone => Sys2Proof.Machine.execEstPreparationDone s
  | .estConfig h p => Sys2Proof.Machine.execEstConfig h p s
  | .estLoad h p => Sys2Proof.Machine.execEstLoad h p s
  | .estClear h table first count => Sys2Proof.Machine.execEstClear h table first count s
  | .estStatus h => Sys2Proof.Machine.execEstStatus h s
  | .estRefactor h => Sys2Proof.Machine.execEstRefactor h s
  | .estRowRelease h row => Sys2Proof.Machine.execEstRowRelease h row s
  | .estRowStatus h row => Sys2Proof.Machine.execEstRowStatus h row s
  | .oscSlotStart => Sys2Proof.Machine.execOscSlotStart s
  | .oscModeUpdateDelivered => Sys2Proof.Machine.execOscModeUpdateDelivered s
  | .oscFoEvaluation => Sys2Proof.Machine.execOscFoEvaluation s
  | .oscConfig h src block => Sys2Proof.Machine.execOscConfig h src block s
  | .oscLoad h p => Sys2Proof.Machine.execOscLoad h p s
  | .oscClear h table first count => Sys2Proof.Machine.execOscClear h table first count s
  | .oscStatus h => Sys2Proof.Machine.execOscStatus h s
  | .oscRestart h => Sys2Proof.Machine.execOscRestart h s
  | .oscModeStatus h slot => Sys2Proof.Machine.execOscModeStatus h slot s
  | .oscFoStatus h slot => Sys2Proof.Machine.execOscFoStatus h slot s
  | .islSlotStart => Sys2Proof.Machine.execIslSlotStart s
  | .islTopoDelivered => Sys2Proof.Machine.execIslTopoDelivered s
  | .islCohDelivered => Sys2Proof.Machine.execIslCohDelivered s
  | .gooseRepeat template => Sys2Proof.Machine.execGooseRepeat template s
  | .alarmPinMinWidth pin => Sys2Proof.Machine.execAlarmPinMinWidth pin s
  | .almForceWrite v => Sys2Proof.Machine.execAlmForceWrite v s
  | .islConfig h src block => Sys2Proof.Machine.execIslConfig h src block s
  | .islLoad h p => Sys2Proof.Machine.execIslLoad h p s
  | .islClear h table first count => Sys2Proof.Machine.execIslClear h table first count s
  | .islStatus h => Sys2Proof.Machine.execIslStatus h s
  | .islRestart h => Sys2Proof.Machine.execIslRestart h s
  | .islIslandStatus h slot => Sys2Proof.Machine.execIslIslandStatus h slot s
  | .almLimitWrite h cls entry => Sys2Proof.Machine.execAlmLimitWrite h cls entry s
  | .almMap h source pins goose latch => Sys2Proof.Machine.execAlmMap h source pins goose latch s
  | .almPinConfig h p => Sys2Proof.Machine.execAlmPinConfig h p s
  | .almAck h kind which => Sys2Proof.Machine.execAlmAck h kind which s
  | .almGoose h template addr desc readOk => Sys2Proof.Machine.execAlmGoose h template addr desc readOk s
  | .almGooseSigkey h p => Sys2Proof.Machine.execAlmGooseSigkey h p s
  | .almStatus h kind which => Sys2Proof.Machine.execAlmStatus h kind which s
  | .launchExecute entry => Sys2Proof.Machine.execLaunchExecute entry s
  | .launchFrameDelayed port => Sys2Proof.Machine.execLaunchFrameDelayed port s
  | .eventPulseEnd pin => Sys2Proof.Machine.execEventPulseEnd pin s
  | .eventInputEdge pin rise => Sys2Proof.Machine.execEventInputEdge pin rise s
  | .lchDone0Read path => Sys2Proof.Machine.execLchDone0Read path s
  | .lchEvLoRead path pin => Sys2Proof.Machine.execLchEvLoRead path pin s
  | .lchWrite h index entry => Sys2Proof.Machine.execLchWrite h index entry s
  | .lchCancel h index => Sys2Proof.Machine.execLchCancel h index s
  | .lchStatus h index => Sys2Proof.Machine.execLchStatus h index s
  | .lchFrameLoad h buffer len addr data readOk => Sys2Proof.Machine.execLchFrameLoad h buffer len addr data readOk s
  | .lchEventConfig h p => Sys2Proof.Machine.execLchEventConfig h p s
  | .captureTrigger => Sys2Proof.Machine.execCaptureTrigger s
  | .captureEnd session => Sys2Proof.Machine.execCaptureEnd session s
  | .capSelWrite v => Sys2Proof.Machine.execCapSelWrite v s
  | .capSession h session remove addr desc list readOk => Sys2Proof.Machine.execCapSession h session remove addr desc list readOk s
  | .capMask h session mask addr desc readOk => Sys2Proof.Machine.execCapMask h session mask addr desc readOk s
  | .capSkew h first values => Sys2Proof.Machine.execCapSkew h first values s
  | .capArm h session => Sys2Proof.Machine.execCapArm h session s
  | .capStop h session => Sys2Proof.Machine.execCapStop h session s
  | .capTrigger h session given sec ns => Sys2Proof.Machine.execCapTrigger h session given sec ns s
  | .capRead h session lane first count addr => Sys2Proof.Machine.execCapRead h session lane first count addr s
  | .capRelease h session => Sys2Proof.Machine.execCapRelease h session s
  | .capStatus h session => Sys2Proof.Machine.execCapStatus h session s
  | .localSample samples => Sys2Proof.Machine.execLocalSample samples s
  | .modFault chan level => Sys2Proof.Machine.execModFault chan level s
  | .modFaultClear chan => Sys2Proof.Machine.execModFaultClear chan s
  | .channelSettled chan => Sys2Proof.Machine.execChannelSettled chan s
  | .localPmuReport circuit => Sys2Proof.Machine.execLocalPmuReport circuit s
  | .auxConversionDone lane raw => Sys2Proof.Machine.execAuxConversionDone lane raw s
  | .auxInjWrite v => Sys2Proof.Machine.execAuxInjWrite v s
  | .auxCalDone lane coefs => Sys2Proof.Machine.execAuxCalDone lane coefs s
  | .auxSpareTakeover => Sys2Proof.Machine.execAuxSpareTakeover s
  | .auxSpareCalibrated coefs failed => Sys2Proof.Machine.execAuxSpareCalibrated coefs failed s
  | .auxBufRdWrite buffer v => Sys2Proof.Machine.execAuxBufRdWrite buffer v s
  | .lmfClock h p => Sys2Proof.Machine.execLmfClock h p s
  | .lmfChan h p => Sys2Proof.Machine.execLmfChan h p s
  | .lmfPmu h p => Sys2Proof.Machine.execLmfPmu h p s
  | .lmfStatus h circuit => Sys2Proof.Machine.execLmfStatus h circuit s
  | .auxLane h lane odr run => Sys2Proof.Machine.execAuxLane h lane odr run s
  | .auxSeq h lane entries => Sys2Proof.Machine.execAuxSeq h lane entries s
  | .auxInjected h lane trigger entries => Sys2Proof.Machine.execAuxInjected h lane trigger entries s
  | .auxBuffer h buffer first len watermark => Sys2Proof.Machine.execAuxBuffer h buffer first len watermark s
  | .auxCal h lane period => Sys2Proof.Machine.execAuxCal h lane period s
  | .auxStatus h lane => Sys2Proof.Machine.execAuxStatus h lane s
  | .demandBoundary circuit => Sys2Proof.Machine.execDemandBoundary circuit s
  | .intervalRecord circuit => Sys2Proof.Machine.execIntervalRecord circuit s
  | .pulseStart output => Sys2Proof.Machine.execPulseStart output s
  | .pulseEnd output => Sys2Proof.Machine.execPulseEnd output s
  | .meterSavePeriodic => Sys2Proof.Machine.execMeterSavePeriodic s
  | .meterSaveDone => Sys2Proof.Machine.execMeterSaveDone s
  | .meterStartupTestDone => Sys2Proof.Machine.execMeterStartupTestDone s
  | .mtrConfig h p => Sys2Proof.Machine.execMtrConfig h p s
  | .mtrDemand h mask mode len utcAlign => Sys2Proof.Machine.execMtrDemand h mask mode len utcAlign s
  | .mtrPulse h p => Sys2Proof.Machine.execMtrPulse h p s
  | .mtrSaveParams h period => Sys2Proof.Machine.execMtrSaveParams h period s
  | .mtrSaveNow h => Sys2Proof.Machine.execMtrSaveNow h s
  | .mtrStatus h circuit => Sys2Proof.Machine.execMtrStatus h circuit s
  | .mtrStartupTest h circuit => Sys2Proof.Machine.execMtrStartupTest h circuit s
  | .mtrClear h mask => Sys2Proof.Machine.execMtrClear h mask s
  | .keyUpdateCommit => Sys2Proof.Machine.execKeyUpdateCommit s
  | .keySlotScrub bad => Sys2Proof.Machine.execKeySlotScrub bad s
  | .shareRemask => Sys2Proof.Machine.execShareRemask s
  | .keyDrbgFault test => Sys2Proof.Machine.execKeyDrbgFault test s
  | .tamperDetected sources => Sys2Proof.Machine.execTamperDetected sources s
  | .presenceRecognised => Sys2Proof.Machine.execPresenceRecognised s
  | .keyStatus h => Sys2Proof.Machine.execKeyStatus h s
  | .keyUpdate h addr len msg readOk => Sys2Proof.Machine.execKeyUpdate h addr len msg readOk s
  | .keySlotStatus h slot => Sys2Proof.Machine.execKeySlotStatus h slot s
  | .keyAttest h slot nonce addr => Sys2Proof.Machine.execKeyAttest h slot nonce addr s
  | .keyIdentity h addr len => Sys2Proof.Machine.execKeyIdentity h addr len s
  | .keyRandom h count => Sys2Proof.Machine.execKeyRandom h count s
  | .tmpConfig h loops internal => Sys2Proof.Machine.execTmpConfig h loops internal s
  | .tmpClear h => Sys2Proof.Machine.execTmpClear h s
  | .tmpStatus h => Sys2Proof.Machine.execTmpStatus h s
  | .cmdSqTailWrite pair v => Sys2Proof.Machine.execCmdSqTailWrite pair v s
  | .cmdFetch pair packet => Sys2Proof.Machine.execCmdFetch pair packet s
  | .cmdCqHeadWrite pair v => Sys2Proof.Machine.execCmdCqHeadWrite pair v s
  | .cmdQueueEnable pair v => Sys2Proof.Machine.execCmdQueueEnable pair v s
  | .cmdQueueDisable pair v => Sys2Proof.Machine.execCmdQueueDisable pair v s
  | .mbxDataWrite path mbx word v => Sys2Proof.Machine.execMbxDataWrite path mbx word v s
  | .mbxPost path mbx => Sys2Proof.Machine.execMbxPost path mbx s
  | .mbxTake path mbx => Sys2Proof.Machine.execMbxTake path mbx s
  | .mailboxTaken mbx => Sys2Proof.Machine.execMailboxTaken mbx s
  | .mailboxReplyPost mbx => Sys2Proof.Machine.execMailboxReplyPost mbx s
  | .mailboxStall mbx => Sys2Proof.Machine.execMailboxStall mbx s
  | .fwWatchdog => Sys2Proof.Machine.execFwWatchdog s
  | .fwRestartDone => Sys2Proof.Machine.execFwRestartDone s
  | .cfgReplayBatch => Sys2Proof.Machine.execCfgReplayBatch s
  | .forwardedCommandRx origin packet => Sys2Proof.Machine.execForwardedCommandRx origin packet s
  | .forwardTimeout chan => Sys2Proof.Machine.execForwardTimeout chan s
  | .sysIdentify h => Sys2Proof.Machine.execSysIdentify h s
  | .cmdAbort h chan seq => Sys2Proof.Machine.execCmdAbort h chan seq s
  | .sysNop h data => Sys2Proof.Machine.execSysNop h data s
  | .sysReset h delay => Sys2Proof.Machine.execSysReset h delay s
  | .cfgStoreWrite h addr len kind batch readOk => Sys2Proof.Machine.execCfgStoreWrite h addr len kind batch readOk s
  | .cfgStoreClear h => Sys2Proof.Machine.execCfgStoreClear h s
  | .cfgStoreStatus h => Sys2Proof.Machine.execCfgStoreStatus h s
  | .sysFwRestart h => Sys2Proof.Machine.execSysFwRestart h s
  | .fwBegin h kind addr header readOk => Sys2Proof.Machine.execFwBegin h kind addr header readOk s
  | .fwWrite h offset len kind addr data readOk => Sys2Proof.Machine.execFwWrite h offset len kind addr data readOk s
  | .fwFinish h => Sys2Proof.Machine.execFwFinish h s
  | .fwStatus h => Sys2Proof.Machine.execFwStatus h s
  | .logFlushRun => Sys2Proof.Machine.execLogFlushRun s
  | .logConfig h hostMin mramMin => Sys2Proof.Machine.execLogConfig h hostMin mramMin s
  | .logRead h src fromOpt count buffered dest addr => Sys2Proof.Machine.execLogRead h src fromOpt count buffered dest addr s
  | .logStatus h => Sys2Proof.Machine.execLogStatus h s
  | .logClear h maxSev => Sys2Proof.Machine.execLogClear h maxSev s
  | .logWrite h code sev p1 p2 p3 => Sys2Proof.Machine.execLogWrite h code sev p1 p2 p3 s
  | .logFlush h => Sys2Proof.Machine.execLogFlush h s
  | .heartbeatRx b => Sys2Proof.Machine.execHeartbeatRx b s
  | .hbLost => Sys2Proof.Machine.execHbLost s
  | .witnessDecision actLow => Sys2Proof.Machine.execWitnessDecision actLow s
  | .goingDownRx health => Sys2Proof.Machine.execGoingDownRx health s
  | .pairingDecision => Sys2Proof.Machine.execPairingDecision s
  | .pairWaitExpiry => Sys2Proof.Machine.execPairWaitExpiry s
  | .switchoverFreeze => Sys2Proof.Machine.execSwitchoverFreeze s
  | .switchoverHandover => Sys2Proof.Machine.execSwitchoverHandover s
  | .xchkCellRx c => Sys2Proof.Machine.execXchkCellRx c s
  | .hrdConfig h p => Sys2Proof.Machine.execHrdConfig h p s
  | .hrdStatus h => Sys2Proof.Machine.execHrdStatus h s
  | .hrdSwitchover h sec tick => Sys2Proof.Machine.execHrdSwitchover h sec tick s
  | .hrdCancel h => Sys2Proof.Machine.execHrdCancel h s
  | .hrdUnfence h mode => Sys2Proof.Machine.execHrdUnfence h mode s
  | .hrdUnpair h => Sys2Proof.Machine.execHrdUnpair h s
  | .hrdDigestReset h => Sys2Proof.Machine.execHrdDigestReset h s
  | .registerWrite path addr v enables => Sys2Proof.Machine.execRegisterWrite path addr v enables s
  | .rcRegisterRead path addr => Sys2Proof.Machine.execRcRegisterRead path addr s
  | .multiwordLowRead path addr => Sys2Proof.Machine.execMultiwordLowRead path addr s
  | .lbHalfWrite secure addr high half => Sys2Proof.Machine.execLbHalfWrite secure addr high half s
  | .gblIntEoiWrite path v => Sys2Proof.Machine.execGblIntEoiWrite path v s
  | .pcieTlpError pf1 e => Sys2Proof.Machine.execPcieTlpError pf1 e s
  | .pcieFlr pf1 => Sys2Proof.Machine.execPcieFlr pf1 s
  | .pcieD3hotEntry pf1 => Sys2Proof.Machine.execPcieD3hotEntry pf1 s
  | .pcieLinkDown => Sys2Proof.Machine.execPcieLinkDown s
  | .pciePerst => Sys2Proof.Machine.execPciePerst s
  | .lbRst => Sys2Proof.Machine.execLbRst s
  | .lbTimeout => Sys2Proof.Machine.execLbTimeout s
  | .powerOn => Sys2Proof.Machine.execPowerOn s
  | .porstN => Sys2Proof.Machine.execPorstN s
  | .brownOut => Sys2Proof.Machine.execBrownOut s
  | .resetRelease straps => Sys2Proof.Machine.execResetRelease straps s
  | .alignmentReady => Sys2Proof.Machine.execAlignmentReady s
  | .pfwAssert => Sys2Proof.Machine.execPfwAssert s
  | .pfwRelease => Sys2Proof.Machine.execPfwRelease s
  | .dormantEntry => Sys2Proof.Machine.execDormantEntry s
  | .dormantExit => Sys2Proof.Machine.execDormantExit s
  | .pwrDormant h => Sys2Proof.Machine.execPwrDormant h s
  | .pwrWake h => Sys2Proof.Machine.execPwrWake h s
  | .pwrStatus h => Sys2Proof.Machine.execPwrStatus h s
  | .estLoadDone data readOk => Sys2Proof.Machine.execEstLoadDone data readOk s
  | .oscLoadDone data readOk => Sys2Proof.Machine.execOscLoadDone data readOk s
  | .islLoadDone data readOk => Sys2Proof.Machine.execIslLoadDone data readOk s
  | .oscFoUpdateDelivered => Sys2Proof.Machine.execOscFoUpdateDelivered s
  | .cfgStoreCommit => Sys2Proof.Machine.execCfgStoreCommit s
  | .lcChangeComplete => Sys2Proof.Machine.execLcChangeComplete s
  | .sysResetDelayExpiry => Sys2Proof.Machine.execSysResetDelayExpiry s
  | .ppsOutPulseEnd output => Sys2Proof.Machine.execPpsOutPulseEnd output s
  | .presenceReleased => Sys2Proof.Machine.execPresenceReleased s
  | .clockLockRestored domain => Sys2Proof.Machine.execClockLockRestored domain s
  | .aonPowerLost => Sys2Proof.Machine.execAonPowerLost s
  | .aonSourceChangeover vdd => Sys2Proof.Machine.execAonSourceChangeover vdd s
  | .herdLaneUp => Sys2Proof.Machine.execHerdLaneUp s
  | .herdLaneDown => Sys2Proof.Machine.execHerdLaneDown s
  | .herdStateCellRx entries => Sys2Proof.Machine.execHerdStateCellRx entries s
  | .forwardedCommandReply chan status order reply => Sys2Proof.Machine.execForwardedCommandReply chan status order reply s
  | .memoryTestError => Sys2Proof.Machine.execMemoryTestError s
  | .pcieLinkUp speed width mps => Sys2Proof.Machine.execPcieLinkUp speed width mps s
  | .msixVectorUnmask pf1 vector => Sys2Proof.Machine.execMsixVectorUnmask pf1 vector s

end Sys2Proof.Machine
end

