-- ==== Sys2Proof/Safety.lean ====
section
/-!
DEFINITION. The terms that the statements use: what a command's next state is, when a command packet passes the checks of Table 16-2, what
its completion is, and the invariant of the interrupt lines.
-/
namespace Sys2Proof.Safety

open Sys2Proof Sys2Proof.Machine

/-- The step goes on. -/
def goesOn (s : State) : Prop := ∃ t, step s = .next t

/-- An event completes: wherever the device meets the condition, the next state has the device that the effect gives, its interrupt outputs
settled, and the same queue. -/
def does (i : Instr) (when_ : Dev → Prop) (eff : Dev → Dev) : Prop :=
  ∀ s : State, when_ s.dev → exec i s = .next { s with dev := settle (eff s.dev) }

/-- A packet that executes on this unit alone, by its TARGET or since the peer sent it, is next on its channel, no CMD_ABORT has named it, its
SEQ is the expected one, and it passes steps 1 to 7 of Table 16-2. -/
def passes (h : Hdr) (op : Nat) (params : Bytes) (hostBuf : Bool) (d : Dev) : Prop :=
  canAccept d h op params = true ∧ isLocal h = true ∧ abortNamed d h = false ∧ seqBad d h = none ∧ acceptFault d h op params hostBuf = none

/-- The device as the opcode's own checks find it: the packet is off its channel, and its acceptance has been counted (R437). -/
def started (h : Hdr) (op : Nat) (params : Bytes) (d : Dev) : Dev := startCmd h op params (takePacket h d)

/-- A command packet completes: wherever it passes Table 16-2 and the device meets the opcode's own condition, the next state is that of the
effect, followed by the completion with the status and the reply bytes. -/
def ends (i : Instr) (h : Hdr) (op : Nat) (params : Bytes) (hostBuf : Bool) (st : Status) (when_ : Dev → Prop) (reply : Dev → Bytes)
    (eff : Dev → Dev) : Prop :=
  ∀ s : State, passes h op params hostBuf s.dev → when_ (started h op params s.dev) →
    let d := started h op params s.dev
    exec i s = .next { s with dev := settle (finish h op params st (reply d) (eff d)) }

/-- A command packet is accepted and goes on executing, its effect begun; packets with undefined opcodes whose turn has come follow. -/
def begins (i : Instr) (h : Hdr) (op : Nat) (params : Bytes) (hostBuf : Bool) (when_ : Dev → Prop) (eff : Dev → Dev) : Prop :=
  ∀ s : State, passes h op params hostBuf s.dev → when_ (started h op params s.dev) →
    exec i s = .next { s with dev := settle (refuseWaiting (eff (started h op params s.dev))) }

/-- A command packet completes OK with no reply bytes, from every state in which it passes Table 16-2 and meets its own condition. -/
def sets (i : Instr) (h : Hdr) (op : Nat) (params : Bytes) (when_ : Dev → Prop) (eff : Dev → Dev) : Prop :=
  ends i h op params false .ok when_ (fun _ => []) eff

/-- A command packet completes OK with reply bytes and no other effect. -/
def reports (i : Instr) (h : Hdr) (op : Nat) (params : Bytes) (when_ : Dev → Prop) (reply : Dev → Bytes) : Prop :=
  ends i h op params false .ok when_ reply id

/-- The staged generation may take a change with these keys in its change set (R20, R22). -/
abbrev canStage (dirKeys otherKeys : List Nat) (d : Dev) : Prop :=
  d.clk.pending = none ∧ (d.clk.firstBuilt = true →
    (addKeys dirKeys d.clk.chgDir).length ≤ 4194304 ∧ (addKeys otherKeys d.clk.chgOther).length ≤ 262144)

/-- The staged generation and its change set after a change. -/
def stagedBy (dirKeys otherKeys : List Nat) (f : Gen → Gen) (d : Dev) : Dev :=
  { d with
    staged := f d.staged
    clk := { d.clk with chgDir := addKeys dirKeys d.clk.chgDir, chgOther := addKeys otherKeys d.clk.chgOther } }

/-- A staging command writes the staged generation and its change set (R9, R20, R22) wherever its own condition holds and the staged
generation may take the change. -/
def stages (i : Instr) (h : Hdr) (op : Nat) (params : Bytes) (ok : Dev → Prop) (dirKeys otherKeys : Dev → List Nat) (f : Gen → Gen) : Prop :=
  sets i h op params (fun d => ok d ∧ canStage (dirKeys d) (otherKeys d) d) (fun d => stagedBy (dirKeys d) (otherKeys d) f d)

/-- A parameter block of `len` bytes is where R434 lets it be: in the host's memory, aligned and read, or inside the path's window; the
peer sends along what it has read. -/
abbrev blockFits (src : BlockSrc) (h : Hdr) (len : Nat) : Prop :=
  25 ≤ h.chan ∨ src.len.toNat = len ∧
  ((src.kind = 0 ∧ src.addr.toNat % 4 = 0 ∧ src.readOk = true) ∨ (src.kind = 1 ∧ src.addr.toNat + len ≤ windowSize h))

/-- The instant that the snapshot of a PPS input holds, in ns. -/
def snapNs (x : Snap) : Nat := instNs x.sec x.ns.toNat
/-- The offset of the second that a sentence names, in TAI, from the PPS_IN_0 edge that it labels (R51). -/
def sentenceOff (m : NmeaIn) (d : Dev) : Int :=
  (taiOf (leapTable d) (sentenceSoc m) (m.second = 60) * secNs : Nat) - (snapNs d.tod.snap0 : Int)
/-- The follow-up messages that are due on a port, and its Pdelay_Req (Table 2-8). -/
def ptpDelayReq (port : Nat) (d : Dev) : Dev :=
  let x := mget ({} : PtpPort) d.tod.ptp port
  let e := sendFollowUps port { d with tod := { d.tod with ptp := mput {} d.tod.ptp port { x with txSeq := x.txSeq + 1 } } }
  sendPtp port x 2 (x.txSeq + 1) true true (ptpHeader e port 2 54 x.domain 0x0200 (x.txSeq + 1) 5 0 ++ List.replicate 20 0) e

/-- Where the bytes of a table load come from (R160): the host's buffer, or the section of the batch in replay. -/
def loadData (d : Dev) (l : LoadRun) (host : Bytes) : Bytes :=
  if l.p.source = 1 then (replaySection d l.p.addr.toNat).getD [] else host

/-- A held frame of an entry that has been written anew: its end no longer shows in the entry. -/
def disown (i : Nat) (y : LchHeld) : LchHeld := if y.entry = i then { y with own := false } else y

/-- A port's oldest held frame is taken once an earlier launched frame is off the wire (R325). -/
def heldFrameTaken (port : Nat) (d : Dev) : Dev :=
  let till := mget 0 d.lch.wire port
  let e := if portUp d port = true ∧ opNs d < till then bringTo d (nowNs d + (till + wireNs (portOf d port) 8 - opNs d)) else d
  { e with lch := { e.lch with delayed := e.lch.delayed.eraseP fun y => y.port == port } }

/-- The packet of a packet command: header, opcode, parameter bytes, and whether a parameter names a host buffer (Table 16-2 step 5). None for
an event or an access, and for SYS_FW_RESTART, whose restart follows its completion. -/
def packetOf : Instr → Option (Hdr × Nat × Bytes × Bool)
  | .genSwitch h gen sec tick => some (h, 0x0110, (pk gen ++ pk sec ++ pk tick), false)
  | .genCancel h => some (h, 0x0111, [], false)
  | .genDiscardStaged h => some (h, 0x0112, [], false)
  | .genStatus h => some (h, 0x0113, [], false)
  | .counterSnapshot h code => some (h, 0x0120, pk code, false)
  | .timeStatus h => some (h, 0x0201, [], false)
  | .timeSet h sec ns uH atPps => some (h, 0x0202, (pk sec ++ pk ns ++ pk uH ++ pk atPps), false)
  | .timePhaseAdjust h s n => some (h, 0x0203, (pk s ++ pk n), false)
  | .timePhaseAbort h => some (h, 0x0204, [], false)
  | .timeRefSelect h refs pol baud => some (h, 0x0205, (pk refs ++ [pol, baud]), false)
  | .timeQualParams h uLock fRef10 aRef10 fRef100 aRef100 holdSpec degraded =>
    some (h, 0x0206, (pk uLock ++ pk fRef10 ++ pk aRef10 ++ pk fRef100 ++ pk aRef100 ++ pk holdSpec ++ pk degraded), false)
  | .timeLeapSet h entries => some (h, 0x0207, ([BitVec.ofNat 8 entries.length] ++ (entries.map LeapP.bytes).flatten), false)
  | .timePtpPort h p => some (h, 0x0208, p.bytes, false)
  | .timeOutputs h p => some (h, 0x0209, p.bytes, false)
  | .portConfig h p _ => some (h, 0x0301, p.bytes, false)
  | .portAddr h port addr mcast promisc => some (h, 0x0302, (pk port ++ pk addr ++ pk mcast ++ pk promisc), false)
  | .portMcastList h port first addrs =>
    some (h, 0x0303, (pk port ++ pk first ++ [BitVec.ofNat 8 addrs.length] ++ (addrs.map pk).flatten), false)
  | .portVlanFilter h p => some (h, 0x0304, p.bytes, false)
  | .portTsAdj h port rx tx => some (h, 0x0305, (pk port ++ pk rx ++ pk tx), false)
  | .portStatus h port => some (h, 0x0306, pk port, false)
  | .portMacsecConfig h p => some (h, 0x0310, p.bytes, false)
  | .portMacsecSa h p => some (h, 0x0311, p.bytes, false)
  | .portMacsecTxAn h port an => some (h, 0x0312, (pk port ++ pk an), false)
  | .ingStreamKey h p => some (h, 0x0401, p.bytes, false)
  | .ingStreamDef h p => some (h, 0x0402, p.bytes, false)
  | .ingStreamRemove h stream => some (h, 0x0403, pk stream, false)
  | .ingStreamStatus h stream => some (h, 0x0404, pk stream, false)
  | .ingStreamRelease h stream => some (h, 0x0405, pk stream, false)
  | .ingIpAddr h p => some (h, 0x0406, p.bytes, false)
  | .ingHostRing h p => some (h, 0x0407, p.bytes, false)
  | .ingStreamGate h stream set clear mask => some (h, 0x0408, (pk stream ++ pk set ++ pk clear ++ pk mask), false)
  | .ingStreamSigkey h stream binding keyId slot kind => some (h, 0x0420, (pk stream ++ [binding] ++ pk keyId ++ pk slot ++ [kind]), false)
  | .dirWrite h chan e => some (h, 0x0410, (pk chan ++ e.bytes), false)
  | .dirLoad h p => some (h, 0x0411, (p.bytes false), (p.source = 0))
  | .dirClear h first count => some (h, 0x0412, (pk first ++ pk count), false)
  | .dirRead h chan gsel => some (h, 0x0413, (pk chan ++ [gsel]), false)
  | .dirScaleWrite h index e => some (h, 0x0414, (pk index ++ e.bytes), false)
  | .dirValidate h first count => some (h, 0x0415, (pk first ++ pk count), false)
  | .dirStatus h => some (h, 0x0416, [], false)
  | .alnOstreamDef h p => some (h, 0x0501, p.bytes, false)
  | .alnOstreamRemove h ostream => some (h, 0x0502, pk ostream, false)
  | .alnMemberSet h p => some (h, 0x0503, p.bytes, false)
  | .alnMemberClear h first count => some (h, 0x0504, (pk first ++ pk count), false)
  | .alnParams h restartGap => some (h, 0x0505, [restartGap], false)
  | .alnOstreamStatus h ostream => some (h, 0x0506, pk ostream, false)
  | .alnMemberStatus h memb half => some (h, 0x0507, (pk memb ++ [half]), false)
  | .alnLandPlan h => some (h, 0x0508, [], false)
  | .pubOstreamFmt h src _ => some (h, 0x0510, (BlockSrc.bytes src), (src.kind = 0))
  | .pubTemplate h src _ => some (h, 0x0511, (BlockSrc.bytes src), (src.kind = 0))
  | .pubTemplateRemove h template => some (h, 0x0512, pk template, false)
  | .pubCfgImage h ostream shard kind addr len _ _ => some (h, 0x0513, (pk ostream ++ pk shard ++ [kind] ++ pk addr ++ pk len), true)
  | .pubRing h p => some (h, 0x0514, p.bytes, (p.enable = 1))
  | .pubRoute h type ring => some (h, 0x0515, [type, ring], false)
  | .pubQueueParams h queue limit watermark staleT => some (h, 0x0516, ([queue] ++ pk limit ++ pk watermark ++ pk staleT), false)
  | .pubHistPlan h tMax => some (h, 0x0517, pk tMax, false)
  | .pubHistRead h group sec tick count addr => some (h, 0x0518, (pk group ++ pk sec ++ pk tick ++ pk count ++ pk addr), true)
  | .pubTemplateStatus h template => some (h, 0x0519, pk template, false)
  | .pubTemplateSigkey h p => some (h, 0x0520, p.bytes, false)
  | .estConfig h p => some (h, 0x0601, p.bytes, false)
  | .estLoad h p => some (h, 0x0602, (p.bytes true), (p.source = 0))
  | .estClear h table first count => some (h, 0x0603, (pk table ++ pk first ++ pk count), false)
  | .estStatus h => some (h, 0x0604, [], false)
  | .estRefactor h => some (h, 0x0605, [], false)
  | .estRowRelease h row => some (h, 0x0606, pk row, false)
  | .estRowStatus h row => some (h, 0x0607, pk row, false)
  | .oscConfig h src _ => some (h, 0x0610, (BlockSrc.bytes src), (src.kind = 0))
  | .oscLoad h p => some (h, 0x0611, (p.bytes true), (p.source = 0))
  | .oscClear h table first count => some (h, 0x0612, (pk table ++ pk first ++ pk count), false)
  | .oscStatus h => some (h, 0x0613, [], false)
  | .oscRestart h => some (h, 0x0614, [], false)
  | .oscModeStatus h slot => some (h, 0x0615, pk slot, false)
  | .oscFoStatus h slot => some (h, 0x0616, pk slot, false)
  | .islConfig h src _ => some (h, 0x0620, (BlockSrc.bytes src), (src.kind = 0))
  | .islLoad h p => some (h, 0x0621, (p.bytes true), (p.source = 0))
  | .islClear h table first count => some (h, 0x0622, (pk table ++ pk first ++ pk count), false)
  | .islStatus h => some (h, 0x0623, [], false)
  | .islRestart h => some (h, 0x0624, [], false)
  | .islIslandStatus h slot => some (h, 0x0625, pk slot, false)
  | .almLimitWrite h cls entry => some (h, 0x0630, (pk cls ++ cut entry 0 32), false)
  | .almMap h source pins goose latch => some (h, 0x0631, (pk source ++ pk pins ++ pk goose ++ pk latch), false)
  | .almPinConfig h p => some (h, 0x0632, p.bytes, false)
  | .almAck h kind which => some (h, 0x0633, (pk kind ++ pk which), false)
  | .almGoose h template addr _ _ => some (h, 0x0634, (pk template ++ pk addr), true)
  | .almGooseSigkey h p =>
    some (h, 0x0635, (leBytes 1 p.index.toNat ++ pk p.binding ++ pk p.keyId ++ pk p.slot ++ pk p.timeOfKey ++ pk p.timeToNext ++ pk p.swap), false)
  | .almStatus h kind which => some (h, 0x0636, (pk kind ++ pk which), false)
  | .lchWrite h index entry => some (h, 0x0801, (pk index ++ cut entry 0 32), false)
  | .lchCancel h index => some (h, 0x0802, pk index, false)
  | .lchStatus h index => some (h, 0x0803, pk index, false)
  | .lchFrameLoad h buffer len addr _ _ => some (h, 0x0804, (pk buffer ++ pk len ++ pk addr), true)
  | .lchEventConfig h p => some (h, 0x0805, p.bytes, false)
  | .capSession h session remove addr _ _ _ => some (h, 0x0810, ([session, remove] ++ pk addr), (remove = 0))
  | .capMask h session mask addr _ _ => some (h, 0x0811, ([session, mask] ++ pk addr), true)
  | .capSkew h first values => some (h, 0x0812, ([first, BitVec.ofNat 8 values.length] ++ (values.map pk).flatten), false)
  | .capArm h session => some (h, 0x0813, [session], false)
  | .capStop h session => some (h, 0x0814, [session], false)
  | .capTrigger h session given sec ns => some (h, 0x0815, ([session, given] ++ pk sec ++ pk ns), false)
  | .capRead h session lane first count addr => some (h, 0x0816, ([session, lane] ++ pk first ++ pk count ++ pk addr), true)
  | .capRelease h session => some (h, 0x0817, [session], false)
  | .capStatus h session => some (h, 0x0818, [session], false)
  | .lmfClock h p => some (h, 0x0701, p.bytes, false)
  | .lmfChan h p => some (h, 0x0702, p.bytes, false)
  | .lmfPmu h p => some (h, 0x0703, p.bytes, false)
  | .lmfStatus h circuit => some (h, 0x0704, pk circuit, false)
  | .auxLane h lane odr run => some (h, 0x0710, (pk lane ++ pk odr ++ pk run), false)
  | .auxSeq h lane entries => some (h, 0x0711, (pk lane ++ leBytes 1 entries.length ++ words32 entries), false)
  | .auxInjected h lane trigger entries => some (h, 0x0712, (pk lane ++ leBytes 1 entries.length ++ pk trigger ++ words32 entries), false)
  | .auxBuffer h buffer first len watermark => some (h, 0x0713, (pk buffer ++ pk first ++ pk len ++ pk watermark), false)
  | .auxCal h lane period => some (h, 0x0714, (pk lane ++ ((period.map pk).getD [])), false)
  | .auxStatus h lane => some (h, 0x0715, pk lane, false)
  | .mtrConfig h p => some (h, 0x0720, p.bytes, false)
  | .mtrDemand h mask mode len utcAlign => some (h, 0x0721, (pk mask ++ pk mode ++ pk len ++ pk utcAlign), false)
  | .mtrPulse h p => some (h, 0x0722, p.bytes, false)
  | .mtrSaveParams h period => some (h, 0x0723, pk period, false)
  | .mtrSaveNow h => some (h, 0x0724, [], false)
  | .mtrStatus h circuit => some (h, 0x0725, pk circuit, false)
  | .mtrStartupTest h circuit => some (h, 0x0726, pk circuit, false)
  | .mtrClear h mask => some (h, 0x0727, pk mask, false)
  | .keyStatus h => some (h, 0x0901, [], false)
  | .keyUpdate h addr len _ _ => some (h, 0x0902, (pk addr ++ pk len), true)
  | .keySlotStatus h slot => some (h, 0x0903, pk slot, false)
  | .keyAttest h slot nonce addr => some (h, 0x0904, (pk slot ++ cut nonce 0 32 ++ pk addr), true)
  | .keyIdentity h addr len => some (h, 0x0905, (pk addr ++ pk len), true)
  | .keyRandom h count => some (h, 0x0906, pk count, false)
  | .tmpConfig h loops internal => some (h, 0x0910, (cut loops 0 4 ++ pk internal), false)
  | .tmpClear h => some (h, 0x0911, [], false)
  | .tmpStatus h => some (h, 0x0912, [], false)
  | .sysIdentify h => some (h, 0x0101, [], false)
  | .cmdAbort h chan seq => some (h, 0x0102, (pk chan ++ pk seq), false)
  | .sysNop h data => some (h, 0x0103, data, false)
  | .sysReset h delay => some (h, 0x0104, pk delay, false)
  | .cfgStoreWrite h addr len kind _ _ => some (h, 0x0105, (pk addr ++ pk len ++ pk kind), (kind = 0))
  | .cfgStoreClear h => some (h, 0x0106, [], false)
  | .cfgStoreStatus h => some (h, 0x0107, [], false)
  | .fwBegin h kind addr _ _ => some (h, 0x0A01, (pk kind ++ pk addr), (kind = 0))
  | .fwWrite h offset len kind addr _ _ => some (h, 0x0A02, (pk offset ++ pk len ++ pk kind ++ pk addr), (kind = 0))
  | .fwFinish h => some (h, 0x0A03, [], false)
  | .fwStatus h => some (h, 0x0A04, [], false)
  | .logConfig h hostMin mramMin => some (h, 0x0B01, (pk hostMin ++ pk mramMin), false)
  | .logRead h src fromOpt count buffered dest addr =>
    some (h, 0x0B02, (pk src ++ pk fromOpt ++ pk count ++ pk buffered ++ pk dest ++ pk addr), (dest = 0))
  | .logStatus h => some (h, 0x0B03, [], false)
  | .logClear h maxSev => some (h, 0x0B04, pk maxSev, false)
  | .logWrite h code sev p1 p2 p3 => some (h, 0x0B05, (pk code ++ pk sev ++ pk p1 ++ pk p2 ++ pk p3), false)
  | .logFlush h => some (h, 0x0B06, [], false)
  | .hrdConfig h p => some (h, 0x0C01, p.bytes, false)
  | .hrdStatus h => some (h, 0x0C02, [], false)
  | .hrdSwitchover h sec tick => some (h, 0x0C03, (pk sec ++ pk tick), false)
  | .hrdCancel h => some (h, 0x0C04, [], false)
  | .hrdUnfence h mode => some (h, 0x0C05, pk mode, false)
  | .hrdUnpair h => some (h, 0x0C06, [], false)
  | .hrdDigestReset h => some (h, 0x0C07, [], false)
  | .pwrDormant h => some (h, 0x0130, [], false)
  | .pwrWake h => some (h, 0x0131, [], false)
  | .pwrStatus h => some (h, 0x0132, [], false)
  | _ => none

/-- The parameter block of a command that has one: where it is, its length, and what the host buffer holds (R434). -/
def blockOf : Instr → Option (BlockSrc × Nat × Bytes)
  | .pubOstreamFmt _ src block => some (src, 64, block)
  | .pubTemplate _ src block => some (src, 80, block)
  | .oscConfig _ src block => some (src, 128, block)
  | .islConfig _ src block => some (src, 64, block)
  | _ => none

/-- The blocks that commands configure and that carry data: everything but the bookkeeping of commands, event log, counters, host rings,
captures, the pair, and the host interfaces. -/
def dataBlocks (d : Dev) : Dev :=
  { clk := { d.clk with tallies := [], closed := [] }, pwr := d.pwr, tod := d.tod, ports := d.ports, ing := d.ing, dir := d.dir, aln := d.aln,
    est := d.est, osc := d.osc, isl := d.isl, alm := d.alm, lch := d.lch, lmf := d.lmf, aux := d.aux, mtr := d.mtr, key := d.key, tmp := d.tmp,
    cur := d.cur, staged := d.staged, old := d.old, snap := d.snap }

/-- The interrupt lines follow their sources (R513, R516, R517): each summary bit is that of its path, INT_N is released in reset and in
FENCED, and follows the local bus's sources while LB_CLK runs. -/
def LinesFollow (d : Dev) : Prop :=
  d.gbl.win.summary = summaryOn d .lb ∧ d.gbl.winS.summary = summaryOn d .lbs ∧
  (d.pwr.held = false → d.gbl.pf0.summary = summaryOn d .pf0 ∧ d.gbl.pf1.summary = summaryOn d .pf1) ∧
  (d.pwr.held = true ∨ d.hrd.role = .fenced → d.gbl.intN = true) ∧
  (d.pwr.held = false → d.hrd.role ≠ .fenced → d.gbl.lbRunning = true → d.gbl.intN = !lbIrq d)

end Sys2Proof.Safety
end

