-- ==== Sys2Proof/Certificates/Slice0/Obligations.lean ====
section
/-!
DEFINITION. The statements for the provers. A name ends in `Complete` where the statement says of each command of a family that it takes its
own effect: the hypotheses are on the state and the operands alone, and the conclusion is the next state.
-/
open Sys2Proof Sys2Proof.Machine Sys2Proof.Safety

/-- Wheel, generations and clock locks (chapters 1 and 20): each command of the family takes its own effect. A tick start advances the wheel,
then switches, opens slots and retires in the order of R26 while CLK_CORE and CLK_MEM run, and else keeps the tick for the relock (R527); the
launch entries of the next tick and the pair's heartbeat follow.
Rests in part on the model's own choices, log entries 6, 11 and 27. -/
def Obligations.ClockAndGenerationCommandsComplete : Prop :=
  does .tickStart (fun d => isLive d = true ∧ coreRuns (advance d) = true) (fun d =>
    let a := advance d
    let b := retireStep (openSlots a.clk.sec a.clk.tick (switchStep a))
    pairTick (lchArm (wheelOrd b) b)) ∧
  does .tickStart (fun d => isLive d = true ∧ coreRuns (advance d) = false ∧ corePowered (advance d) = true) (fun d =>
    let a := advance d
    let b := { a with clk := { a.clk with missed := a.clk.missed ++ [(a.clk.sec, a.clk.tick)] } }
    pairTick (lchArm (wheelOrd b) b)) ∧
  does .perSecondSummary (fun d => isLive d = true ∧ (d.clk.tallies.any fun e => isOver d e.2) = false ∧ d.clk.closed = []) (fun d =>
    { d with clk := { d.clk with closed := [], tallies := d.clk.tallies } }) ∧
  (∀ k t, does .perSecondSummary (fun d => isLive d = true ∧ isOver d t = true ∧ d.clk.tallies = [(k, t)] ∧ d.clk.closed = []) (fun d =>
    sumGroup [(k, t)] t.sec (sumOne k t { d with clk := { d.clk with closed := [], tallies := [] } }))) ∧
  (∀ h gen sec (tick : W16), sets (.genSwitch h gen sec tick) h 0x0110 (pk gen ++ pk sec ++ pk tick)
    (fun d => gen = d.clk.gen + 1 ∧ d.clk.pending = none ∧ d.clk.retiring = none ∧ nowNs d < tickInst sec tick.toNat ∧
      dormantSpan d = false ∧ tick.toNat ≤ 3599)
    (startSwitch gen sec tick.toNat none)) ∧
  (∀ h w, sets (.genCancel h) h 0x0111 []
    (fun d => d.clk.pending = some w ∧ nowNs d < tickInst w.sec w.tick ∧ w.entry = none) dropSwitch) ∧
  (∀ h, sets (.genDiscardStaged h) h 0x0112 [] (fun d => stagedShut d = false)
    (fun d => { d with staged := d.cur, clk := { d.clk with chgDir := [], chgOther := [], redef := [] } })) ∧
  (∀ h, reports (.genStatus h) h 0x0113 [] (fun _ => True) (fun d =>
    pk d.clk.gen ++ pk d.clk.nextGen ++ pk (stagedNum d) ++ leBytes 4 d.clk.chgDir.length ++ leBytes 4 d.clk.chgOther.length ++
      leBytes 1 (b2n d.clk.pending.isSome + 2 * b2n d.clk.retiring.isSome))) ∧
  (∀ h code, sets (.counterSnapshot h code) h 0x0120 (pk code) (fun _ => snapOk code.toNat = true) (snapBlock code.toNat)) ∧
  (∀ domain : Fin 19, does (.pllUnlock domain) (fun d => isLive d = true ∧ bit d.clk.lock.toNat domain.val = true) (fun d =>
    lockLost domain.val (logEv 0x1505 domain.val 0 0 (setLock domain.val false d)))) ∧
  (∀ (domain : Fin 19) t, does (.pllRelock domain)
    (fun d => isLive d = true ∧ mfind d.clk.stalled domain.val = some t ∧ domain.val ∉ [0, 2, 4]) (fun d =>
    let e := setLock domain.val true { d with clk := { d.clk with stalled := d.clk.stalled.filter fun e => e.1 != domain.val } }
    logEv 0x1607 domain.val (optUs e - t) 0 (setFlag 0x16 4 (pwrCnt 5 e)))) ∧
  (∀ (domain : Fin 19) t, does (.pllRelockTimeout domain) (fun d => isLive d = true ∧ mfind d.clk.stalled domain.val = some t)
    (fun d => deviceReset 6 (waitUntil d ((t + 10000) * 1000)))) ∧
  (∀ domain : Fin 19, does (.clockLockRestored domain) (fun d => isLive d = true ∧ inDormant d = false ∧ 7 ≤ domain.val)
    (setLock domain.val true)) ∧
  does (.clockLockRestored 6) (fun d => isLive d = true) (fun d =>
    let e := setLock 6 true d
    { e with gbl := { e.gbl with lbRunning := true } })

/-- Time (chapter 2), what happens to the timebase: each event takes its own effect.
Rests in part on the model's own choices, log entries 6, 10, 25 and 33. -/
def Obligations.TimeEventsComplete : Prop :=
  does .secondStart (fun d => isLive d = true ∧ d.tod.secDone = some d.tod.sec) (fun d =>
    let a := applyQuality (applyRebase (applyLeap (bringTo d ((d.tod.sec.toNat + 1) * secNs))))
    timeAnchor (timeEdges (handOverOuts { a with tod := { a.tod with secDone := some a.tod.sec } }))) ∧
  does .todSerOutSentence (fun d => isLive d = true ∧ d.tod.serOutEn = true ∧ d.tod.driving = true ∧ timeOutsAllowed d = true) (fun d =>
    let a := bringTo d (instNs d.tod.sec 20000000)
    emit (.serial (serialText a)) a) ∧
  (∀ value, does (.todIncWrite value) (fun d => isLive d = true ∧ 1999 * 2 ^ 40 ≤ value.toNat * 1000 ∧
      value.toNat * 1000 ≤ 2001 * 2 ^ 40 ∧ d.tod.state ≠ .holdover)
    (fun d => { d with tod := { d.tod with inc := value } })) ∧
  (∀ a, does .phaseAdjDone (fun d => isLive d = true ∧ d.tod.adj = some a) (fun d =>
    let e := addOpt d (2 * (a.n - a.done))
    { e with tod := countCycles e.tod (a.n - a.done) })) ∧
  (∀ input taken, does (.ppsEdge input taken) (fun d => isLive d = true ∧ takesEdges d input.val = false) (fun d =>
    let t := nowStamp d
    setSnap input.val
      { frac := t.frac, ns := t.ns, sec := t.sec, edges := (snapOf d input.val).edges + 1, untaken := false, valid := true } d)) ∧
  (∀ m, does (.todSerInSentence m) (fun d => isLive d = true ∧ fwTakes d = true ∧ m.valid = true ∧ m.second ≤ 60 ∧ 10 ≤ m.afterMs ∧
      m.afterMs ≤ 900 ∧ d.tod.snap0.valid = true ∧ (unsetTime d = true ∨ (sentenceOff m d).natAbs < 500000000))
    (fun d => labelled 1 (sentenceOff m d) (snapNs d.tod.snap0) d)) ∧
  (∀ m, does (.todSerInSentence m) (fun d => isLive d = true ∧ fwTakes d = true ∧ m.valid = true ∧ m.second ≤ 60 ∧ 10 ≤ m.afterMs ∧
      m.afterMs ≤ 900 ∧ d.tod.snap0.valid = true ∧ unsetTime d = false ∧ 500000000 ≤ (sentenceOff m d).natAbs)
    (fun d => labelled 1 (sentenceOff m d) (snapNs d.tod.snap0)
      (leapClaim 1 ((snapNs d.tod.snap0 + 500000000) / secNs - sentenceSoc m) d))) ∧
  (∀ (port : Fin 12) domain delay, does (.ptpRx port domain (.pdelayResp delay)) (fun d => isLive d = true ∧ fwTakes d = true ∧
      (mget ({} : PtpPort) d.tod.ptp port).enable = true ∧ (mget ({} : PtpPort) d.tod.ptp port).domain = domain ∧
      d.hrd.role ≠ .fenced) (fun d =>
    { d with tod := { d.tod with ptp := mput {} d.tod.ptp port { mget {} d.tod.ptp port with meanDelay := delay } } })) ∧
  (∀ (port : Fin 12) domain sq o off, does (.ptpRx port domain (.sync sq o off)) (fun d => isLive d = true ∧ fwTakes d = true ∧
      (mget ({} : PtpPort) d.tod.ptp port).enable = true ∧ (mget ({} : PtpPort) d.tod.ptp port).domain = domain ∧
      d.hrd.role ≠ .fenced ∧ (mget ({} : PtpPort) d.tod.ptp port).state = .slave)
    (fun d => labelled 3 off (nowNs d) d)) ∧
  (∀ port : Fin 12, does (.ptpTxInterval port) (fun d => isLive d = true ∧ fwTakes d = true ∧ d.hrd.role ≠ .fenced ∧
      (mget ({} : PtpPort) d.tod.ptp port).enable = true ∧
      (mget ({} : PtpPort) (ageParent port d).tod.ptp port).state ≠ .master) (fun d => ptpDelayReq port (ageParent port d))) ∧
  (∀ port : Fin 12, does (.ptpTxInterval port) (fun d => isLive d = true ∧ fwTakes d = true ∧ d.hrd.role ≠ .fenced ∧
      (mget ({} : PtpPort) d.tod.ptp port).enable = true ∧
      (mget ({} : PtpPort) (ageParent port d).tod.ptp port).state = .master ∧
      (mget ({} : PtpPort) (ageParent port d).tod.ptp port).slaveOnly = false ∧
      (ptpDelayReq port (ageParent port d)).tod.u.isSome = true) (fun d =>
    let a := ageParent port d
    let x := mget ({} : PtpPort) a.tod.ptp port
    let e := ptpDelayReq port a
    let f := sendPtp port x 0xB (x.txSeq + 1) false false (announceMsg e port x (x.txSeq + 1)) e
    sendPtp port x 0 (x.txSeq + 1) false true (ptpHeader f port 0 44 x.domain 0x0200 (x.txSeq + 1) 0 0 ++ ptpTime {}) f)) ∧
  (∀ code, does (.timeRefLost code) (fun d => isLive d = true ∧ code ≠ 0 ∧ code.toNat < 5 ∧
      ((mfind d.tod.present code.toNat).isSome = true ∨ d.tod.ref = code)) (refGone code.toNat)) ∧
  (∀ c t, does .referenceUpgrade (fun d => isLive d = true ∧ fwTakes d = true ∧ d.tod.ref ≠ 0 ∧ rankOf d d.tod.ref.toNat = some 1 ∧
      d.tod.refList.take 1 = [c] ∧ mfind d.tod.present c = some t ∧ 60000 ≤ optSince d t) (switchRef c)) ∧
  does (.ref10Changeover true) (fun d => isLive d = true ∧ d.tod.osc = false) (fun d =>
    logEv 0x0105 0 0 0 { d with tod := { d.tod with osc := true, rebase := true } }) ∧
  does (.ref10Changeover false) (fun d => isLive d = true ∧ d.tod.osc = true) (fun d =>
    logEv 0x0104 0 0 0 (setFlag 0x01 3 { d with tod := { d.tod with osc := false, rebase := true } })) ∧
  does (.ppsOutPulseEnd 0) (fun d => isLive d = true ∧ d.tod.pps0.high = true) (fun d =>
    bringTo { d with tod := { d.tod with pps0 := { d.tod.pps0 with high := false } } } d.tod.pps0.fallAt) ∧
  does (.ppsOutPulseEnd 1) (fun d => isLive d = true ∧ d.tod.pps1.high = true) (fun d =>
    bringTo { d with tod := { d.tod with pps1 := { d.tod.pps1 with high := false } } } d.tod.pps1.fallAt) ∧
  (∀ path, does (.todNow0Read path) (fun d => isLive d = true) (fun d =>
    let t := nowStamp d
    latchRead path 0x1000 (fun _ => t.ns.toNat)
      (fun _ => [(0x1004, t.sec.toNat % 2 ^ 32), (0x1008, t.frac.toNat * 65536 + t.sec.toNat / 2 ^ 32)]) d))

/-- Time (chapter 2), the TIME commands: each completes with its own effect where its parameters and the time state allow it.
Rests in part on the model's own choices, log entries 11, 25 and 33. -/
def Obligations.TimeCommandsComplete : Prop :=
  (∀ h, ends (.timeStatus h) h 0x0201 [] false .ok (fun d => d.tod.deferred = none) (fun d =>
    [BitVec.ofNat 8 (stateCode d.tod.state), BitVec.ofNat 8 d.tod.ref.toNat] ++ leBytes 4 d.tod.qualU.toNat ++
      leBytes 8 (unsigned 64 d.tod.lastOffset) ++
      ((List.range 12).map fun p => BitVec.ofNat 8 (ptpCode (mget {} d.tod.ptp p).state)) ++ List.replicate 15 0 ++
      [BitVec.ofNat 8 (leapTable d).length] ++ ((leapTable d).map fun e => leBytes 6 e.t.toNat ++ [BitVec.ofNat 8 e.off]).flatten) id) ∧
  (∀ h sec ns uH, sets (.timeSet h sec ns uH 0) h 0x0202 (pk sec ++ pk ns ++ pk uH ++ pk (0 : Byte))
    (fun d => ns.toNat < secNs ∧ (d.tod.state = .unset ∨ d.tod.state = .freerun) ∧ d.cur.os = [])
    (fun d => applySet sec ns uH (dropDeferred 0 d))) ∧
  (∀ h sec ns uH, ends (.timeSet h sec ns uH 1) h 0x0202 (pk sec ++ pk ns ++ pk uH ++ pk (1 : Byte)) false .accepted
    (fun d => ns.toNat < secNs ∧ (d.tod.state = .unset ∨ d.tod.state = .freerun) ∧ d.cur.os = []) (fun _ => []) (fun d =>
      let e := dropDeferred 0 d
      { e with tod := { e.tod with deferred := some { sec := sec, ns := ns, uH := uH } } })) ∧
  (∀ h sv n, sets (.timePhaseAdjust h sv n) h 0x0203 (pk sv ++ pk n)
    (fun d => n ≠ 0 ∧ sv.toInt.natAbs * 10000 ≤ 4 * n.toNat * 65536 ∧ d.tod.adj = none ∧ d.tod.state = .freerun)
    (fun d => { d with tod := { d.tod with adj := some { s := sv.toInt, n := n.toNat, done := 0 } } })) ∧
  (∀ h a, ends (.timePhaseAbort h) h 0x0204 [] false .ok (fun d => d.tod.adj = some a)
    (fun _ => leBytes 8 (unsigned 64 (adjPart a))) (fun d => { d with tod := { d.tod with adj := none } })) ∧
  (∀ h (refs : W32) pol baud, let codes := (List.range 4).map fun i => bits refs.toNat (8 * i) 8
    let used := codes.takeWhile (· != 0)
    sets (.timeRefSelect h refs pol baud) h 0x0205 (pk refs ++ [pol, baud])
    (fun _ => (∀ c ∈ codes.drop used.length, c = 0) ∧ (∀ c ∈ used, c ≤ 5) ∧ used.Nodup ∧ pol.toNat < 4 ∧ baud.toNat < 5)
    (fun d =>
      let e := { d with tod := { d.tod with
        refList := used, polarity := BitVec.ofNat 2 pol.toNat, serInBaud := baud.toNat
        present := d.tod.present.filter fun e => used.contains e.1 || (e.1 != 1 && e.1 != 2) } }
      if d.tod.ref = 0 ∨ d.tod.ref.toNat ∈ used then e else checkDeferred (leaveRef d.tod.ref.toNat e))) ∧
  (∀ h uLock fRef10 aRef10 fRef100 aRef100 holdSpec degraded,
    sets (.timeQualParams h uLock fRef10 aRef10 fRef100 aRef100 holdSpec degraded) h 0x0206
    (pk uLock ++ pk fRef10 ++ pk aRef10 ++ pk fRef100 ++ pk aRef100 ++ pk holdSpec ++ pk degraded)
    (fun _ => degraded = 52 ∨ degraded = 187) (fun d =>
      let x : QualParams := { uLock := uLock.toNat, fRef10 := fRef10.toNat, aRef10 := aRef10.toNat, fRef100 := fRef100.toNat,
                              aRef100 := aRef100.toNat, holdSpec := holdSpec.toNat, degraded := degraded.toNat }
      { d with tod := { d.tod with rebase := true, newParams := some x } })) ∧
  (∀ h entries, let l : List LeapEntry := List.map (fun e => { t := e.t, off := e.off.toNat }) entries
    sets (.timeLeapSet h entries) h 0x0207 ([BitVec.ofNat 8 entries.length] ++ (entries.map LeapP.bytes).flatten)
    (fun d => leapOk l = true ∧ d.tod.state = .unset) (fun d => { d with tod := { d.tod with leapNew := some l } })) ∧
  (∀ h p, sets (.timePtpPort h p) h 0x0208 p.bytes
    (fun d => p.port.toNat < 12 ∧ p.enable.toNat ≤ 1 ∧ p.profile.toNat ≤ 1 ∧ p.slaveOnly.toNat ≤ 1 ∧ p.peerAddr.toNat ≤ 1 ∧
      p.vid.toNat < 4095 ∧ p.pcp.toNat ≤ 7 ∧ (p.profile = 1 → 3 ≤ p.gmId.toNat ∧ p.gmId.toNat ≤ 254) ∧
      (p.enable = 1 ∧ p.slaveOnly = 1 →
        ∀ q ∈ ptpPorts d, q ≠ p.port.toNat → (mget ({} : PtpPort) d.tod.ptp q).slaveOnly = false)) (fun d =>
      let x := mget ({} : PtpPort) d.tod.ptp p.port.toNat
      setPtp p.port.toNat { x with
        enable := p.enable = 1, profile := p.profile, domain := p.domain, priority1 := p.priority1, priority2 := p.priority2,
        slaveOnly := p.slaveOnly = 1, localPeer := p.peerAddr = 1, vid := p.vid, pcp := p.pcp, gmId := p.gmId,
        variance := p.variance, parent := if p.enable = 1 then x.parent else none } d)) ∧
  (∀ h p, let near (v : W32) : Prop := v.toInt.natAbs ≤ 100000
    let wide (v : W32) : Prop := 1 ≤ v.toNat ∧ v.toNat ≤ 500000
    sets (.timeOutputs h p) h 0x0209 p.bytes
    (fun _ => p.ppsEn.toNat < 4 ∧ p.ppsUtc.toNat < 4 ∧ near p.ppsOff0 ∧ near p.ppsOff1 ∧ wide p.ppsWidth0 ∧ wide p.ppsWidth1 ∧
      p.ref10En.toNat ≤ 1 ∧ near p.ref10Off ∧ p.irigEn.toNat ≤ 1 ∧ p.irigB005.toNat ≤ 1 ∧ p.irigLocal.toInt.natAbs ≤ 31 ∧
      near p.irigOff ∧ p.serEn.toNat ≤ 1 ∧ p.serBaud.toNat ≤ 4) (fun d =>
      let a := { d.tod.pps0 with
        en := bit p.ppsEn.toNat 0, utc := bit p.ppsUtc.toNat 0, offset := p.ppsOff0.toInt, width := p.ppsWidth0.toNat }
      let b := { d.tod.pps1 with
        en := bit p.ppsEn.toNat 1, utc := bit p.ppsUtc.toNat 1, offset := p.ppsOff1.toInt, width := p.ppsWidth1.toNat }
      { d with tod := { d.tod with
        pps0 := a, pps1 := b, ref10En := p.ref10En = 1, ref10Off := p.ref10Off.toInt, irigEn := p.irigEn = 1,
        irigB005 := p.irigB005 = 1, irigLocal := p.irigLocal.toInt, irigOff := p.irigOff.toInt, serOutEn := p.serEn = 1,
        serOutBaud := p.serBaud.toNat } }))

/-- Alignment (chapter 6): each command of the family takes its own effect: reports and deadlines move slots, sweeps judge terms, and the ALN
commands stage O-streams and memberships or report their state.
Rests in part on the model's own choices, log entries 11, 15, 27, 33 and 34. -/
def Obligations.AlignmentCommandsComplete : Prop :=
  (∀ (os : Fin 4096) sec (tick : Fin 3600) x, does (.slotDeadline os sec tick)
    (fun d => coreRuns d = true ∧ slotOf d os sec tick = some x ∧ x.state = .opened)
    (fun d =>
      let e := bringTo d x.dueAt
      tryCommit os x ((dueBelow e os x.dueAt).foldl (fun f y => tryCommit y.1 y.2 f) e))) ∧
  (∀ (os : Fin 4096) sec (tick : Fin 3600) x, does (.orderWaitCommit os sec tick)
    (fun d => coreRuns d = true ∧ slotOf d os sec tick = some x ∧ x.orderWait = true) (tryCommit os x)) ∧
  (∀ r rest, does .assemblyStart (fun d => coreRuns d = true ∧ d.aln.asmQueue = r :: rest ∧ r.summary.amend ≠ 0) (fun d =>
    crossCheck r (publishRecord r { d with aln := { d.aln with asmQueue := rest } }))) ∧
  (∀ r rest, does .assemblyStart
    (fun d => coreRuns d = true ∧ d.aln.asmQueue = r :: rest ∧ r.summary.amend = 0 ∧
      genByNum (testRecord false r { d with aln := { d.aln with asmQueue := rest } }) r.summary.gen = none)
    (fun d => crossCheck r (publishRecord r (testRecord false r { d with aln := { d.aln with asmQueue := rest } })))) ∧
  (∀ r rest g, does .assemblyStart
    (fun d => coreRuns d = true ∧ d.aln.asmQueue = r :: rest ∧ r.summary.amend = 0 ∧
      genByNum (testRecord false r { d with aln := { d.aln with asmQueue := rest } }) r.summary.gen = some g)
    (fun d => crossCheck r (publishRecord r (capWide g r (testRecord false r { d with aln := { d.aln with asmQueue := rest } }))))) ∧
  (∀ r rest, does .reportCheck (fun d => coreRuns d = true ∧ d.ing.alnQ = r :: rest ∧ d.ing.alnBp = false)
    (fun d => takeReport r { d with ing := { d.ing with alnQ := rest } })) ∧
  (∀ os : Fin 4096, does (.latencySweep os) (fun d => coreRuns d = true)
    (fun d => finishSweep os { d with aln := { d.aln with sweep := os } })) ∧
  (∀ v, does (.alnOsSelWrite v) (fun d => isLive d = true) (selectOs v)) ∧
  (∀ h p, stages (.alnOstreamDef h p) h 0x0501 p.bytes (fun _ => ostreamBad p = false) (fun _ => []) (fun _ => [keyOstream p.ostream.toNat])
    (fun g => { g with os := mset g.os p.ostream.toNat (ostreamOf p) })) ∧
  (∀ h (ostream : W16), stages (.alnOstreamRemove h ostream) h 0x0502 (pk ostream) (fun _ => ostream.toNat < 4096) (fun _ => [])
    (fun d => if (mfind d.staged.os ostream.toNat).isSome then [keyOstream ostream.toNat] else [])
    (fun g => { g with os := mdel g.os ostream.toNat })) ∧
  (∀ h p, stages (.alnMemberSet h p) h 0x0503 p.bytes (fun d => memberBad d.staged p = false) (fun _ => []) (fun _ => [keyMemb p.index.toNat])
    (putMemb p.index.toNat
      { ostream := p.ostream.toNat, stream := p.stream.toNat, sel := p.sel.toNat, wait := p.wait = 1, decimate := p.decimate = 1 })) ∧
  (∀ h (first count : BitVec 24), stages (.alnMemberClear h first count) h 0x0504 (pk first ++ pk count)
    (fun _ => count ≠ 0 ∧ first.toNat + count.toNat ≤ membMax) (fun _ => [])
    (fun d => ((d.staged.membs.filter fun e => first.toNat ≤ e.1 && e.1 < first.toNat + count.toNat).map Prod.fst).map keyMemb)
    (clearMembs first.toNat count.toNat)) ∧
  (∀ h restartGap, sets (.alnParams h restartGap) h 0x0505 [restartGap] (fun _ => restartGap ≠ 0)
    (fun d => { d with aln := { d.aln with restartGap := restartGap.toNat } })) ∧
  (∀ h (ostream : W16) x, reports (.alnOstreamStatus h ostream) h 0x0506 (pk ostream)
    (fun d => ostream.toNat < 4096 ∧ (mfind d.cur.os ostream.toNat).isSome = true ∧ (osRun d ostream.toNat).last = some x) (fun d =>
    let r := osRun d ostream.toNat
    leBytes 4 r.wait ++ [BitVec.ofNat 8 (b2n r.warming)] ++ leBytes 4 (laggards d ostream.toNat) ++ leBytes 4 r.newest ++ summaryBytes x)) ∧
  (∀ h (memb : BitVec 24) half x, reports (.alnMemberStatus h memb half) h 0x0507 (pk memb ++ [half])
    (fun d => memb.toNat < membMax ∧ half.toNat ≤ 1 ∧ mfind d.cur.membs memb.toNat = some x) (fun d =>
    let r := membRun d memb.toNat
    let y := streamAln d x.stream
    let term := ((mfind d.cur.os x.ostream).map fun z => toUs (termNs z y)).getD 0
    [BitVec.ofNat 8 (b2n r.lag), BitVec.ofNat 8 r.miss] ++ leBytes 4 term ++ leBytes 2 y.arrivals ++ leBytes 1 y.lq ++
      ((y.bins.drop (32 * half.toNat)).take 32).map (BitVec.ofNat 8))) ∧
  (∀ h, ends (.alnLandPlan h) h 0x0508 [] false .ok
    (fun d => d.clk.pending = none ∧ firstBreach d.staged = none ∧ landBlocks d.cur.land (landPlan d) ≤ 67108864 ∧
      planFits (landPlan d) = true)
    (fun d => leBytes 4 (landBlocks d.cur.land (landPlan d)))
    (fun d => { d with staged := { d.staged with land := landPlan d, landed := true } }))

/-- Ingest (chapter 4) and the firmware's frame queues: what arrives is taken and goes to the place that its kind selects.
Rests in part on the model's own choices, log entries 3, 12, 14, 15, 18 and 33. -/
def Obligations.IngestEventsComplete : Prop :=
  (∀ (port : Fin 12) m rest, does (.fwControlQueue port)
    (fun d => isLive d = true ∧ d.cmd.fwUp = true ∧ d.cmd.fwRestarting = false ∧ (portOf d port).ctrlQ = m :: rest ∧ m.etype = 0x0806)
    (fun d => answerArp port m (setPort d port { portOf d port with ctrlQ := rest }))) ∧
  (∀ (port : Fin 12) m rest i, does (.fwControlQueue port)
    (fun d => isLive d = true ∧ d.cmd.fwUp = true ∧ d.cmd.fwRestarting = false ∧ (portOf d port).ctrlQ = m :: rest ∧ m.etype ≠ 0x0806 ∧
      ipParse m.etype m.payload = .inr i)
    (fun d => answerIp port m i (setPort d port { portOf d port with ctrlQ := rest }))) ∧
  (∀ (port : Fin 12) m rest i, does (.frameClassify port)
    (fun d => coreRuns d = true ∧ d.ing.quotaBp = false ∧ (portOf d port).rxFifo = m :: rest ∧ ipParse m.etype m.payload = .inr i ∧
      i.proto = 17 ∧ (isOwnIp (ingCnt 0 (setPort d port { portOf d port with rxFifo := rest })) port i.v6 i.dst = true ∨
        isMcast i.v6 i.dst = true))
    (fun d => classifyUdp port m i (ingCnt 0 (setPort d port { portOf d port with rxFifo := rest })))) ∧
  (∀ k rest f q, does .frameDispatch
    (fun d => coreRuns d = true ∧ readyTasks true d = k :: rest ∧ (streamOf d k).queue = f :: q ∧ alnRoom true d k = true) (fun d =>
    let e := { d with ing := { d.ing with readyInt := d.ing.readyInt.filter (· != k), intCells := d.ing.intCells - 1 } }
    let g := setStream k { streamOf d k with queue := q } e
    wake true k (passInternal k ((mfind g.cur.streams k).getD noStream) f g))) ∧
  (∀ k rest f q, does .frameDispatch
    (fun d => coreRuns d = true ∧ readyTasks true d = [] ∧ readyTasks false d = k :: rest ∧ (streamOf d k).queue = f :: q ∧
      alnRoom false d k = true) (fun d =>
    let n := d.ing.extCells - 1
    let e := { d with ing := { d.ing with
      readyExt := d.ing.readyExt.filter (· != k), extCells := n, quotaBp := d.ing.quotaBp && 57344 < n } }
    wake false k (freeRx f.port f.held (parseFrame k f (setStream k { streamOf d k with queue := q } e))))) ∧
  (∀ r, does (.internalFrameIn r) (fun d => coreRuns d = true ∧ isInternal d r.stream = true)
    (fun d => (enterInternal r.stream r.sec r.ns r.values d).2)) ∧
  (∀ c x rest, does (.fwFrameQueue c)
    (fun d => isLive d = true ∧ d.cmd.fwUp = true ∧ d.cmd.fwRestarting = false ∧ d.ing.fwQueue = x :: rest ∧
      x.frame.data.head? ≠ some 0xA1 ∧ beAt x.frame.data 0 2 / 16 % 16 = 1)
    (fun d => controlRec 3 x.stream x.frame (queueRead fwQueueId { d with ing := { d.ing with fwQueue := rest } }))) ∧
  (∀ (ring : Fin 16) v, does (.rngHiTailWrite ring v) (fun d => isLive d = true) (hostTail ring v.toNat)) ∧
  (∀ (ring : Fin 16) x y, does (.hostDescFetch ring x true true)
    (fun d => coreRuns d = true ∧ hostTurn d = some ring.val ∧ d.ing.quotaBp = false ∧
      d.gbl.linkUp = true ∧ 16 ≤ x.len.toNat ∧ x.stream.toNat < 262144 ∧ x.bits.toNat ≤ 1 ∧ x.reserved = 0 ∧
      mfind d.cur.streams x.stream.toNat = some y ∧ (y.kind = .hostC37 ∨ y.kind = .hostSv)) (fun d =>
    let a := hostArrival x (ingCnt 1 { d with ing := { d.ing with hostNext := (ring.val + 1) % 16 } })
    let f : TaskFrame := { port := none, ts := a.1, data := cut x.frame 0 x.len.toNat }
    offerFrame x.stream.toNat f (hostAdvance ring (descStatus ring .ok a.2))))

/-- Ingest (chapter 4): the ING commands write the staged streams and keys, or the settings and states of a stream.
Rests in part on the model's own choices, log entries 11 and 15. -/
def Obligations.IngestCommandsComplete : Prop :=
  (∀ h (p : StreamKeyP), let k := p.stream.toNat
    let q := p.quals.toNat
    let key : StreamKey :=
      { sv := p.kind = 1, disc := p.disc, dstPort := p.dstPort, srcAddr := p.srcAddr, dstAddr := p.dstAddr,
        qPort := if bit q 0 then some p.port.toNat else none, qVid := if bit q 1 then some p.vid.toNat else none,
        qSrc := if bit q 2 then some p.srcPort else none }
    stages (.ingStreamKey h p) h 0x0401 p.bytes
    (fun d => k < 262144 ∧ q < 8 ∧ (if bit q 0 then p.port.toNat < 12 else p.port = 0) ∧ (if bit q 1 then p.vid.toNat < 4095 else p.vid = 0) ∧
      (bit q 2 = false → p.srcPort = 0) ∧ p.kind.toNat ≤ 1 ∧
      (mfind d.staged.streams k).map StreamDef.kind = some (if p.kind = 1 then .svUdp else .c37Udp) ∧
      ∀ e ∈ d.staged.keys, e.1 ≠ k → ¬ (e.2.sv = key.sv ∧ e.2.disc = key.disc ∧ e.2.dstPort = key.dstPort ∧ e.2.srcAddr = key.srcAddr ∧
        e.2.dstAddr = key.dstAddr))
    (fun _ => []) (fun _ => [keyStream k]) (fun g => { g with keys := mset g.keys k key })) ∧
  (∀ h (p : StreamDefP), let k := p.stream.toNat
    sets (.ingStreamDef h p) h 0x0402 p.bytes
    (fun d => streamDefBad p = false ∧ canStage [] [keyStream k] d) (fun d =>
      let e := stagedBy [] [keyStream k] (fun g => { g with streams := mset g.streams k (streamDefOf p) }) d
      { e with clk := { e.clk with redef := addKey k d.clk.redef } })) ∧
  (∀ h (stream : BitVec 24), let k := stream.toNat
    stages (.ingStreamRemove h stream) h 0x0403 (pk stream) (fun _ => k < 262144) (fun _ => []) (fun _ => [keyStream k])
    (fun g => { g with streams := mdel g.streams k, keys := mdel g.keys k })) ∧
  (∀ h (stream : BitVec 24), let k := stream.toNat
    reports (.ingStreamStatus h stream) h 0x0404 (pk stream) (fun d => k < 262144 ∧ (mfind d.cur.streams k).isSome = true) (fun d =>
    let r := streamOf d k
    [BitVec.ofNat 8 (runStateCode d k)] ++ r.lastRx.bytes ++ pk r.lastStat ++ [BitVec.ofNat 8 r.leapBits.toNat] ++ pk r.accepted ++
      ((rangeFrom 11 16).map fun i => pk (mget (0 : W32) r.dropped i)).flatten)) ∧
  (∀ h (stream : BitVec 24), let k := stream.toNat
    sets (.ingStreamRelease h stream) h 0x0405 (pk stream) (fun d => k < 262144 ∧ (streamOf d k).held = true)
    (fun d => noteReturn k (logEv 0x0707 k 0 0 (setStream k { streamOf d k with held := false } d)))) ∧
  (∀ h (p : IpAddrP), let v6 := decide (p.version = 6)
    let port := p.port.toNat
    let e := p.entry.toNat
    let x : IpEntry := { addr := p.addr, plen := p.plen.toNat }
    sets (.ingIpAddr h p) h 0x0406 p.bytes
    (fun d => port < 12 ∧ (p.version = 4 ∨ p.version = 6) ∧ e < 4 ∧ p.enable.toNat ≤ 1 ∧ p.plen.toNat ≤ (if v6 then 128 else 32) ∧
      isMcast v6 p.addr = false ∧ (v6 = false → p.addr.toNat / 2 ^ 32 = 0xFFFF) ∧
      (p.enable = 1 → ∀ i < 4, i ≠ e → ∀ y, mfind d.ing.addrs (addrKey port v6 i) = some y → y.addr ≠ p.addr))
    (fun d => { d with ing := { d.ing with
      addrs := if p.enable = 1 then mset d.ing.addrs (addrKey port v6 e) x else mdel d.ing.addrs (addrKey port v6 e) } })) ∧
  (∀ h (p : HostRingP), let r := p.ring.toNat
    sets (.ingHostRing h p) h 0x0407 p.bytes
    (fun d => r < 16 ∧ isPow 6 16 p.size.toNat = true ∧ p.base.toNat % 64 = 0 ∧ p.wb.toNat % 4 = 0 ∧ p.enable.toNat ≤ 1 ∧
      ((hostRing d r).run = true → (hostRing d r).head = (hostRing d r).tail))
    (fun d => setHostRing r { hostRing d r with
      base := p.base, size := p.size.toNat, wb := p.wb, en := p.enable = 1, run := p.enable = 1, head := 0, tail := 0, since := 0 } d)) ∧
  (∀ h (stream : BitVec 24) (on off mask : W16), let k := stream.toNat
    sets (.ingStreamGate h stream on off mask) h 0x0408 (pk stream ++ pk on ++ pk off ++ pk mask)
    (fun d => k < 262144 ∧ on &&& off = 0) (fun d =>
      let r := { streamOf d k with fwFlags := ((streamOf d k).fwFlags ||| on) &&& ~~~ off, fwMask := mask }
      let e := setStream k r d
      if gateOpen r then wake (isInternal e k) k e
      else { e with ing := { e.ing with readyExt := e.ing.readyExt.filter (· != k), readyInt := e.ing.readyInt.filter (· != k) } })) ∧
  (∀ h (stream : BitVec 24) (keyId : W32) (slot : W16) kind, let k := stream.toNat
    sets (.ingStreamSigkey h stream 1 keyId slot kind) h 0x0420 (pk stream ++ [1] ++ pk keyId ++ pk slot ++ [kind])
    (fun d => k < 262144 ∧ kind ≠ 0 ∧ kind.toNat ≤ 5 ∧ pipFault d slot.toNat 2 = none ∧ (streamOf d k).quar = false)
    (fun d => setStream k { streamOf d k with
      next := some ({ keyId := keyId, slot := slot.toNat, timeOfKey := 0, timeToNext := 0 }, kind) } d)) ∧
  (∀ h (stream : BitVec 24) (keyId : W32) (slot : W16) kind, let k := stream.toNat
    sets (.ingStreamSigkey h stream 0 keyId slot kind) h 0x0420 (pk stream ++ [0] ++ pk keyId ++ pk slot ++ [kind])
    (fun d => k < 262144 ∧ kind ≠ 0 ∧ kind.toNat ≤ 5 ∧ pipFault d slot.toNat 2 = none ∧ (streamOf d k).quar = true ∧
      (streamOf d k).next = none) (fun d =>
      noteReturn k (setStream k { streamOf d k with
        cur := some ({ keyId := keyId, slot := slot.toNat, timeOfKey := 0, timeToNext := 0 }, kind), quar := false } d)))

/-- The channel directory (chapter 5): writes and loads of staged entries, reads through commands and windows.
Rests in part on the model's own choices, log entries 11, 15 and 33. -/
def Obligations.DirectoryCommandsComplete : Prop :=
  (∀ h (chan : W32) e, sets (.dirWrite h chan e) h 0x0410 (pk chan ++ e.bytes)
    (fun d => chan.toNat < 33554432 ∧ writeFault e = none ∧ canStage [chan.toNat] [] d)
    (fun d => stagedBy [chan.toNat] [] (fun g => { g with dir := mput noEntry g.dir chan.toNat (e.withGen (stagedNum d)) }) d)) ∧
  (∀ h p, begins (.dirLoad h p) h 0x0411 (p.bytes false) (p.source = 0)
    (fun d => d.clk.pending = none ∧ p.source.toNat ≤ 1 ∧ p.count ≠ 0 ∧ p.first.toNat + p.count.toNat ≤ 33554432 ∧
      (p.source = 1 → h.chan = 24 ∧ (replaySection d p.addr.toNat).isSome = true))
    (fun d => { d with dir := { d.dir with loads := d.dir.loads ++ [loadRun h p] } })) ∧
  (∀ (l : LoadRun) rest data, let f := l.p.first.toNat
    let n := 32 * l.p.count.toNat
    let es (d : Dev) := (chunksOf 32 l.p.count.toNat (cut (loadData d l data) 0 n)).map dirEntryOf
    does (.dirLoadDone data true)
    (fun d => isLive d = true ∧ d.dir.loads = l :: rest ∧ l.conflict = false ∧ (l.p.source = 1 → n ≤ (loadData d l data).length) ∧
      crc32 (cut (loadData d l data) 0 n) = l.p.crc.toNat ∧ (∀ e ∈ es d, writeFault e = none) ∧ canStage (rangeFrom f (es d).length) [] d)
    (fun d =>
      let es := es d
      let e := stagedBy (rangeFrom f es.length) [] (putEntries (stagedNum d) f es) d
      finishLoad l .ok [] (logEv 0x0801 f l.p.count.toNat l.p.source.toNat { e with dir := { e.dir with loads := rest } }))) ∧
  (∀ h (first count : W32), sets (.dirClear h first count) h 0x0412 (pk first ++ pk count)
    (fun d => count.toNat ≠ 0 ∧ first.toNat + count.toNat ≤ 33554432 ∧ canStage (rangeFrom first.toNat count.toNat) [] d)
    (fun d => stagedBy (rangeFrom first.toNat count.toNat) []
      (putEntries (stagedNum d) first.toNat (List.replicate count.toNat noEntry)) d)) ∧
  (∀ h (chan : W32) gsel, reports (.dirRead h chan gsel) h 0x0413 (pk chan ++ [gsel]) (fun _ => chan.toNat < 33554432 ∧ gsel.toNat ≤ 1)
    (fun d => (readEntry d (gsel = 1) false chan.toNat).1 ++ pk (readEntry d (gsel = 1) false chan.toNat).2)) ∧
  (∀ h (index : W16) e, stages (.dirScaleWrite h index e) h 0x0414 (pk index ++ e.bytes)
    (fun _ => index ≠ 0 ∧ e.res = 0 ∧ e.flags.toNat ≤ 1 ∧ f64Fin e.k = true ∧ (f64Q e.k).1 ≠ 0 ∧ f64Fin e.b = true ∧ f32Fin e.theta0 = true)
    (fun _ => [2 ^ 25 + index.toNat]) (fun _ => []) (fun g => { g with scale := mset g.scale index.toNat e })) ∧
  (∀ h (first count : W32), reports (.dirValidate h first count) h 0x0415 (pk first ++ pk count)
    (fun d => first.toNat < 33554432 ∧ first.toNat + count.toNat ≤ 33554432 ∧
      ∀ e ∈ d.staged.dir, (count.toNat = 0 ∨ (first.toNat ≤ e.1 ∧ e.1 < first.toNat + count.toNat)) → rowFaults d.staged e.1 = [])
    (fun _ => List.replicate 9 0)) ∧
  (∀ h, reports (.dirStatus h) h 0x0416 [] (fun _ => True)
    (fun d => leBytes 4 (dirUsed d) ++ leBytes 4 (dirChg d) ++ pk d.clk.gen ++ pk (stagedNum d))) ∧
  (∀ path v w, let idx := BitVec.ofNat 32 (bits v.toNat 30 2 * 2 ^ 30 + bits v.toNat 0 25)
    does (.dirWinIdxWrite path v) (fun d => isLive d = true ∧ dirWinOf d path = some w)
    (setDirWin path { w with idx := idx, busy := true, valid := false, fetch := some (idx, false) })) ∧
  (∀ path w (v : W32), does (.dirWinFetchDone path)
    (fun d => isLive d = true ∧ dirWinOf d path = some w ∧ w.fetch = some (v, false) ∧ bit v.toNat 30 = false) (fun d =>
    let r := readEntry (bump d 0x08 7) (bit v.toNat 31) false (bits v.toNat 0 25)
    setDirWin path { w with
      busy := false, valid := true, err := false, gen := r.2, fetch := none,
      data := (chunksOf 4 8 r.1).map fun b => BitVec.ofNat 32 (fromLe b) } (bump d 0x08 7)))


/-- Ports (chapter 3): what the line does, frames in and out, PAUSE, and the PORT commands' settings.
Rests in part on the model's own choices, log entries 10, 26, 31, 33 and 34. -/
def Obligations.PortEventsComplete : Prop :=
  (∀ (port : Fin 12) f cls, does (.frameReceive port f)
    (fun d => let x := portOf d port
      isLive d = true ∧ x.link = .up ∧ x.rxFill + storeBound x ≤ rxSize port ∧ f.lineOk = true ∧ 64 ≤ f.bytes.length ∧
      f.bytes.length ≤ storeBound x ∧ crc32 (f.bytes.take (f.bytes.length - 4)) = leAt f.bytes (f.bytes.length - 4) 4 ∧
      daClass (fecCount port f.fecCorr f.fecBad d) port (BitVec.ofNat 48 (beAt f.bytes 0 6)) = some cls ∧ beAt f.bytes 12 2 ≠ 0x8808)
    (fun d => rxMacsec port f.bytes.length (BitVec.ofNat 48 (beAt f.bytes 0 6)) (BitVec.ofNat 48 (beAt f.bytes 6 6)) cls f.bytes
      (fecCount port f.fecCorr f.fecBad d))) ∧
  (∀ (port : Fin 12) f cls, does (.frameReceive port f)
    (fun d => let x := portOf d port
      isLive d = true ∧ x.link = .up ∧ x.rxFill + storeBound x ≤ rxSize port ∧ f.lineOk = true ∧ 64 ≤ f.bytes.length ∧
      f.bytes.length ≤ storeBound x ∧ crc32 (f.bytes.take (f.bytes.length - 4)) = leAt f.bytes (f.bytes.length - 4) 4 ∧
      daClass (fecCount port f.fecCorr f.fecBad d) port (BitVec.ofNat 48 (beAt f.bytes 0 6)) = some cls ∧ beAt f.bytes 12 2 = 0x8808 ∧ beAt f.bytes 14 2 = 1)
    (fun d => rxPause port (BitVec.ofNat 16 (beAt f.bytes 16 2)) (fecCount port f.fecCorr f.fecBad d))) ∧
  (∀ (port : Fin 12) (q : W16), does (.pauseDelivered port)
    (fun d => isLive d = true ∧ (portOf d port).pauseIn = some q ∧ (pauseLeft d (portOf d port) ≠ 0 ∨ q = 0))
    (fun d => setPort d port { portOf d port with pauseIn := none, pause := q.toNat, pauseAt := opNs d })) ∧
  (∀ (port : Fin 12) (q : W16), does (.pauseDelivered port)
    (fun d => isLive d = true ∧ (portOf d port).pauseIn = some q ∧ pauseLeft d (portOf d port) = 0 ∧ q ≠ 0)
    (fun d => portCnt port 28 (setPort d port { portOf d port with pauseIn := none, pause := q.toNat, pauseAt := opNs d }))) ∧
  (∀ port : Fin 12, does (.pauseTimerExpiry port) (fun d => isLive d = true ∧ pauseLeft d (portOf d port) = 0)
    (fun d => setPort d port { portOf d port with pause := 0 })) ∧
  (∀ port : Fin 12, does (.pauseTimerExpiry port)
    (fun d => isLive d = true ∧ pauseLeft d (portOf d port) ≠ 0 ∧ modeRate (portOf d port).mode ≠ 0) (fun d =>
    let x := portOf d port
    setPort (bringTo d (nowNs d + ceilDiv (x.pause * 512) (modeRate x.mode) - (opNs d - x.pauseAt))) port { x with pause := 0 })) ∧
  (∀ (port : Fin 12) f rest, does (.frameTransmit port)
    (fun d => isLive d = true ∧ portUp d port = true ∧ d.hrd.role ≠ .fenced ∧ (portOf (txFetch port d) port).txBuf = f :: rest ∧
      pauseLeft (txFetch port d) (portOf (txFetch port d) port) = 0 ∧ launchOnWire (txFetch port d) port = false ∧
      reservedFor (txFetch port d) port f.bytes = false)
    (fun d => let e := txFetch port d
      txSend port f (setPort e port { portOf e port with txBuf := rest }))) ∧
  (∀ (port : Fin 12) fecLock anDone partner, does (.portLinkUp port fecLock anDone partner)
    (fun d => isLive d = true ∧ (portOf d port).mode ≠ 0 ∧ (portOf d port).link ≠ .up ∧ d.hrd.role ≠ .fenced ∧
      (port.val < 8 → d.pwr.run ≠ .dormant ∧ d.pwr.run ≠ .waking)) (fun d =>
      let x := portOf d port
      let y := { x with link := .up, fecLock := fecLock, anDone := anDone && x.an && x.mode != 2, highBer := false, partner := partner }
      let e := if port.val < 8 then { d with clk := { d.clk with lock := setBit d.clk.lock (8 + port.val) } } else d
      portLog port 1 x.mode 0 (portFlag port 0 (setPort e port y)))) ∧
  (∀ (port : Fin 12) entered cut, does (.portLinkDown port entered cut)
    (fun d => isLive d = true ∧ (portOf d port).link = .up ∧ entered ≠ .up) (linkFall port entered cut)) ∧
  (∀ (port : Fin 12) (codewords : W32), does (.portHighBer port codewords) (fun d => isLive d = true)
    (fun d => portLog port 5 codewords.toNat 0 (portFlag port 5 (setPort d port { portOf d port with highBer := true }))))

/-- Ports (chapter 3): each PORT command changes the settings of its port, or reports its state.
Rests in part on the model's own choices, log entries 11 and 33. -/
def Obligations.PortCommandsComplete : Prop :=
  (∀ h (p : PortConfigP) cut, let n := p.port.toNat
    let f (x : Port) : Port := { x with
      mode := p.mode.toNat, fec := p.fec = 1, an := p.an = 1, polarity := p.polarity, maxLen := p.maxLen.toNat, pauseOn := p.pause = 1,
      arpTags := p.arpTags.toNat, arpTpid := p.arpTpid, arpOuter := p.arpOuter, arpInner := p.arpInner }
    sets (.portConfig h p cut) h 0x0301 p.bytes
    (fun d => let x := portOf d n
      portBad p.port = false ∧ modeOk n p.mode.toNat = true ∧ p.an.toNat ≤ 1 ∧ p.fec.toNat ≤ 1 ∧ p.polarity.toNat < 16 ∧
      1518 ≤ p.maxLen.toNat ∧ p.maxLen.toNat ≤ 9216 ∧ p.pause.toNat ≤ 1 ∧ p.arpTags.toNat ≤ 2 ∧ p.arpTpid.toNat ≤ 2 ∧
      x.mode = p.mode.toNat ∧ x.fec = decide (p.fec = 1) ∧ x.an = decide (p.an = 1) ∧ x.polarity = p.polarity)
    (fun d => setPort d n (f (portOf d n)))) ∧
  (∀ h (p : PortConfigP) cut, let n := p.port.toNat
    let f (x : Port) : Port := { x with
      mode := p.mode.toNat, fec := p.fec = 1, an := p.an = 1, polarity := p.polarity, maxLen := p.maxLen.toNat, pauseOn := p.pause = 1,
      arpTags := p.arpTags.toNat, arpTpid := p.arpTpid, arpOuter := p.arpOuter, arpInner := p.arpInner }
    sets (.portConfig h p cut) h 0x0301 p.bytes
    (fun d => let x := portOf d n
      portBad p.port = false ∧ modeOk n p.mode.toNat = true ∧ p.an.toNat ≤ 1 ∧ p.fec.toNat ≤ 1 ∧ p.polarity.toNat < 16 ∧
      1518 ≤ p.maxLen.toNat ∧ p.maxLen.toNat ≤ 9216 ∧ p.pause.toNat ≤ 1 ∧ p.arpTags.toNat ≤ 2 ∧ p.arpTpid.toNat ≤ 2 ∧
      x.mode ≠ p.mode.toNat ∧ x.link ≠ .up)
    (fun d => setPort d n { f (portOf d n) with link := if p.mode.toNat = 0 then .disabled else .training })) ∧
  (∀ h (p : PortConfigP) cut, let n := p.port.toNat
    let f (x : Port) : Port := { x with
      mode := p.mode.toNat, fec := p.fec = 1, an := p.an = 1, polarity := p.polarity, maxLen := p.maxLen.toNat, pauseOn := p.pause = 1,
      arpTags := p.arpTags.toNat, arpTpid := p.arpTpid, arpOuter := p.arpOuter, arpInner := p.arpInner }
    sets (.portConfig h p cut) h 0x0301 p.bytes
    (fun d => let x := portOf d n
      portBad p.port = false ∧ modeOk n p.mode.toNat = true ∧ p.an.toNat ≤ 1 ∧ p.fec.toNat ≤ 1 ∧ p.polarity.toNat < 16 ∧
      1518 ≤ p.maxLen.toNat ∧ p.maxLen.toNat ≤ 9216 ∧ p.pause.toNat ≤ 1 ∧ p.arpTags.toNat ≤ 2 ∧ p.arpTpid.toNat ≤ 2 ∧
      x.mode ≠ p.mode.toNat ∧ x.link = .up)
    (fun d => linkFall n (if p.mode.toNat = 0 then .disabled else .training) cut (setPort d n (f (portOf d n))))) ∧
  (∀ h (port : Byte) (addr : W48) mcast promisc, sets (.portAddr h port addr mcast promisc) h 0x0302 (pk port ++ pk addr ++ pk mcast ++ pk promisc)
    (fun _ => portBad port = false ∧ bit addr.toNat 40 = false ∧ mcast.toNat ≤ 1 ∧ promisc.toNat ≤ 1)
    (fun d => setPort d port.toNat { portOf d port.toNat with unicast := some addr, mcastAll := mcast = 0, promisc := promisc = 1 })) ∧
  (∀ h (port first : Byte) (addrs : List W48),
    sets (.portMcastList h port first addrs) h 0x0303 (pk port ++ pk first ++ [BitVec.ofNat 8 addrs.length] ++ (addrs.map pk).flatten)
    (fun _ => portBad port = false ∧ addrs ≠ [] ∧ addrs.length ≤ 7 ∧ first.toNat + addrs.length ≤ 64)
    (fun d => let x := portOf d port.toNat
      setPort d port.toNat { x with mcast := addrs.zipIdx.foldl (fun m e => mset m (first.toNat + e.2) e.1) x.mcast })) ∧
  (∀ h (p : VlanFilterP), let a := p.firstVid.toNat
    let b := p.lastVid.toNat
    sets (.portVlanFilter h p) h 0x0304 p.bytes
    (fun _ => portBad p.port = false ∧ p.untagged.toNat ≤ 1 ∧ b < 4095 ∧ a ≤ b ∧ p.extraTpid ≠ 0x8100 ∧ p.extraTpid ≠ 0x88A8 ∧ p.set.toNat ≤ 1)
    (fun d => let x := portOf d p.port.toNat
      let kept := x.vidOff.filter fun v => v < a || b < v
      setPort d p.port.toNat { x with
        untagged := p.untagged = 1, extraTpid := p.extraTpid
        vidOff := if p.set = 1 then kept else (kept ++ rangeFrom a (b + 1 - a)).mergeSort (· ≤ ·) })) ∧
  (∀ h (port : Byte) (rx tx : W48), sets (.portTsAdj h port rx tx) h 0x0305 (pk port ++ pk rx ++ pk tx)
    (fun _ => portBad port = false ∧ rx.toInt.natAbs ≤ 100000 * 65536 ∧ tx.toInt.natAbs ≤ 100000 * 65536)
    (fun d => setPort d port.toNat { portOf d port.toNat with rxAdj := rx.toInt, txAdj := tx.toInt })) ∧
  (∀ h (port : Byte), reports (.portStatus h port) h 0x0306 (pk port) (fun _ => portBad port = false) (fun d =>
    let x := portOf d port.toNat
    [BitVec.ofNat 8 (linkCode x.link)] ++ pk x.partner ++ [BitVec.ofNat 8 (b2n x.fecLock)] ++ pk x.preFec)) ∧
  (∀ h (p : MacsecConfigP), sets (.portMacsecConfig h p) h 0x0310 p.bytes
    (fun _ => portBad p.port = false ∧ p.enable.toNat ≤ 1 ∧ p.conf.toNat ≤ 1 ∧ p.sci.toNat ≤ 1 ∧ p.ptpClear.toNat ≤ 1 ∧ p.replay.toNat ≤ 2 ^ 30)
    (fun d => setPort d p.port.toNat { portOf d p.port.toNat with
      msec := p.enable = 1, conf := p.conf = 1, sendSci := p.sci = 1, ptpClear := p.ptpClear = 1, replay := p.replay.toNat })) ∧
  (∀ h (p : MacsecSaP), let n := p.port.toNat
    sets (.portMacsecSa h p) h 0x0311 p.bytes
    (fun d => portBad p.port = false ∧ p.dir = 0 ∧ p.an.toNat ≤ 3 ∧ p.install = 1 ∧ p.sc.toNat = 0 ∧ pipFault d p.slot.toNat 1 = none ∧
      ((mfind (portOf d n).txSas p.an.toNat).isSome = true ∨ (portOf d n).txSas.length < 2))
    (fun d => let x := portOf d n
      setPort d n { x with
        txSas := mset x.txSas p.an.toNat { slot := p.slot.toNat, ssci := p.ssci, pn := p.pn.toNat, low := p.pn.toNat }, txSci := p.sci })) ∧
  (∀ h (p : MacsecSaP), let n := p.port.toNat
    sets (.portMacsecSa h p) h 0x0311 p.bytes
    (fun d => portBad p.port = false ∧ p.dir = 1 ∧ p.an.toNat ≤ 3 ∧ p.install = 1 ∧ p.sc.toNat < (if n < 8 then 32 else 8) ∧
      pipFault d p.slot.toNat 2 = none)
    (fun d => let x := portOf d n
      let y := mget { sci := p.sci, sas := [] } x.rxScs p.sc.toNat
      let z := { y with sci := p.sci, sas := mset y.sas p.an.toNat { slot := p.slot.toNat, ssci := p.ssci, pn := p.pn.toNat, low := p.pn.toNat } }
      setPort d n { x with rxScs := if z.sas.isEmpty then mdel x.rxScs p.sc.toNat else mset x.rxScs p.sc.toNat z })) ∧
  (∀ h (port an : Byte), sets (.portMacsecTxAn h port an) h 0x0312 (pk port ++ pk an)
    (fun d => portBad port = false ∧ (mfind (portOf d port.toNat).txSas an.toNat).isSome = true)
    (fun d => setPort d port.toNat { portOf d port.toNat with txAn := some an.toNat }))

/-- Publishing (chapter 7): records go to their rings, the rings' pointers move, stale queues are logged, and the PUB commands stage formats
and templates, program rings and routes, and read the history.
Rests in part on the model's own choices, log entries 1, 3, 16 and 17. -/
def Obligations.PublishingEventsComplete : Prop :=
  (∀ (ring : Fin 32) x l, does (.ringRecordWrite ring)
    (fun d => isLive d = true ∧ (ringOf d ring).part = some (x, l) ∧ (ringOf d ring).en = true ∧ (ringOf d ring).run = true ∧
      d.gbl.linkUp = true ∧ d.gbl.pf0.d3hot = false) (ringPut ring x l)) ∧
  (∀ ring : Fin 32, does (.ringRecordWrite ring)
    (fun d => isLive d = true ∧ (ringOf d ring).part = none ∧ ringWrites d ring = true ∧ (mget [] d.pub.feeders ring.val) ≠ [] ∧
      ringWrites (writeGap ring d) ring = true)
    (fun d => writeNext ring (writeGap ring d))) ∧
  (∀ (ring : Fin 32) v, does (.rngDlHeadWrite ring v) (fun d => isLive d = true) (ringHead ring v.toNat)) ∧
  (∀ q : Fin 77, does (.queueStale q) (fun d => isLive d = true ∧ q.val < 32) (fun d => queueStale q (mget [] d.pub.feeders q.val).length d)) ∧
  (∀ q : Fin 77, does (.queueStale q) (fun d => isLive d = true ∧ 32 ≤ q.val ∧ q.val < 44)
    (fun d => queueStale q (mget [] d.pub.egress (q.val - 32)).length d)) ∧
  (∀ q : Fin 77, does (.queueStale q) (fun d => isLive d = true ∧ 44 ≤ q.val ∧ q.val < 76) (ringStale (q.val - 44))) ∧
  does (.queueStale 76) (fun d => isLive d = true) (fun d => queueStale 76 d.ing.fwQueue.length d)

/-- Publishing (chapter 7): the PUB commands stage formats, templates, images and history plans, program rings, routes and queues, bind keys,
and read the history.
Rests in part on the model's own choices, log entries 11, 16 and 33. -/
def Obligations.PublishingCommandsComplete : Prop :=
  (∀ h (src : BlockSrc) block, let fmt := fun d => ostreamFmtOf (paramBytes h src 64 block d)
    ends (.pubOstreamFmt h src block) h 0x0510 (BlockSrc.bytes src) (src.kind = 0) .ok
    (fun d => blockFits src h 64 ∧ fmtBad (fmt d) = false ∧ canStage [] [keyOstream (fmt d).ostream.toNat] d)
    (fun _ => []) (fun d => stagedBy [] [keyOstream (fmt d).ostream.toNat]
      (fun g => { g with fmts := mset g.fmts (fmt d).ostream.toNat { fmt d with svid := svidOf (fmt d) } }) d)) ∧
  (∀ h (src : BlockSrc) block, let tpl := fun d => templateOf (paramBytes h src 80 block d)
    ends (.pubTemplate h src block) h 0x0511 (BlockSrc.bytes src) (src.kind = 0) .ok
    (fun d => blockFits src h 80 ∧ templateBad (tpl d) = false ∧ templateRefused d (tpl d) = false ∧ canStage [] [] d)
    (fun _ => []) (fun d => stagedBy [] [] (fun g => { g with tpls := mset g.tpls (tpl d).template.toNat (tpl d) }) d)) ∧
  (∀ h (template : W16), sets (.pubTemplateRemove h template) h 0x0512 (pk template)
    (fun d => template.toNat < 16384 ∧ canStage [] [] d) (stagedBy [] [] fun g => { g with tpls := mdel g.tpls template.toNat })) ∧
  (∀ h (ostream shard : W16) kind (addr : W64) (len : W16) image, let k := imgKey ostream.toNat shard.toNat kind.toNat
    ends (.pubCfgImage h ostream shard kind addr len image true) h 0x0513 (pk ostream ++ pk shard ++ [kind] ++ pk addr ++ pk len) true .ok
    (fun d => ostream.toNat < 4096 ∧ kind.toNat ≤ 3 ∧ len ≠ 0 ∧
      imageBytes { d.staged with images := mdel d.staged.images k } + len.toNat ≤ 2 ^ 28 ∧ canStage [] [] d)
    (fun _ => []) (stagedBy [] [] fun g => { g with images := mset g.images k (cut image 0 len.toNat) })) ∧
  (∀ h (p : RingP), let r := p.ring.toNat
    ends (.pubRing h p) h 0x0514 p.bytes (p.enable = 1) .ok
    (fun d => p.enable = 1 ∧ r < 32 ∧ p.base.toNat % 4096 = 0 ∧ 6 ≤ p.log2.toNat ∧ p.log2.toNat ≤ 24 ∧ p.wb.toNat % 4 = 0 ∧ p.watermark ≠ 0 ∧
      p.staleT.toNat ≤ 1000000 ∧ ((ringOf d r).en = false ∨ (ringOf d r).run = false))
    (fun _ => []) (fun d =>
      let g := ringOf d r
      let y : Ring := { g with
        base := p.base, size := 2 ^ p.log2.toNat, wb := p.wb, watermark := p.watermark.toNat, staleT := p.staleT.toNat, en := true,
        run := true, closing := false, notice := false, head := 0, tail := 0, tailWb := 0, rseq := 0, part := none }
      setRing d r y)) ∧
  (∀ h (p : RingP), let r := p.ring.toNat
    ends (.pubRing h p) h 0x0514 p.bytes (p.enable = 1) .ok (fun _ => p.enable = 0 ∧ r < 32 ∧ p.base.toNat % 4096 = 0 ∧ 6 ≤ p.log2.toNat ∧
      p.log2.toNat ≤ 24 ∧ p.wb.toNat % 4 = 0 ∧ p.watermark ≠ 0 ∧ p.staleT.toNat ≤ 1000000) (fun _ => []) (fun d =>
      let g := ringOf d r
      setRing d r (if g.run = true ∧ g.part.isSome = true then { g with closing := true }
        else { g with en := false, run := false, closing := false }))) ∧
  (∀ h (type ring : Byte), sets (.pubRoute h type ring) h 0x0515 [type, ring]
    (fun _ => 4 ≤ type.toNat ∧ type.toNat ≤ 8 ∧ ringNumBad ring = false)
    (fun d => { d with pub := { d.pub with routes := mput 255 d.pub.routes type.toNat ring.toNat } })) ∧
  (∀ h (queue : Byte) (limit : W32) (watermark : W16) (staleT : W32), let q := queue.toNat
    let reserve := if q < 32 then 4096 else 8192
    sets (.pubQueueParams h queue limit watermark staleT) h 0x0516 ([queue] ++ pk limit ++ pk watermark ++ pk staleT)
    (fun _ => q < 44 ∧ reserve ≤ limit.toNat ∧ limit.toNat ≤ reserve + 438272 ∧ watermark ≠ 0 ∧ staleT.toNat ≤ 1000000) (fun d =>
      let y : QParams := { qParams d q with limit := limit.toNat, watermark := watermark.toNat, staleT := staleT.toNat }
      { d with pub := { d.pub with qparams := mput {} d.pub.qparams q y } })) ∧
  (∀ h (tMax : W32) plan, ends (.pubHistPlan h tMax) h 0x0517 (pk tMax) false .ok
    (fun d => d.clk.pending = none ∧ histPlan d.staged tMax.toNat = some plan)
    (fun d => leBytes 8 plan.tH ++ leBytes 4 (plan.groups.filter ((d.cur.hist.map HistPlan.groups).getD []).contains).length)
    (fun d => { d with staged := { d.staged with hist := some plan } })) ∧
  (∀ h (group : W32) (sec : W48) (tick : W16) (count : W32) (addr : W64) g, let step := periodTicks g.rate
    let block := fun (d : Dev) i => mfind d.pub.hist (histPos g (BitVec.ofNat 48 ((tickOrd sec tick.toNat + i * step) / 3600))
      ((tickOrd sec tick.toNat + i * step) % 3600))
    ends (.pubHistRead h group sec tick count addr) h 0x0518 (pk group ++ pk sec ++ pk tick ++ pk count ++ pk addr) true .ok
    (fun d => ((d.cur.hist.map HistPlan.groups).getD [])[group.toNat]? = some g ∧ tick.toNat < 3600 ∧ tick.toNat % step = 0 ∧ count ≠ 0)
    (fun d => leBytes 4 ((List.range count.toNat).map fun i => match block d i with
      | some b => b2n (headIs b.head (BitVec.ofNat 48 ((tickOrd sec tick.toNat + i * step) / 3600)) ((tickOrd sec tick.toNat + i * step) % 3600))
      | none => 0).sum)
    (fun d => hostWrite addr ((List.range count.toNat).map fun i => match block d i with
      | some b => padTo 128 (histBytes b)
      | none => List.replicate 128 0).flatten d)) ∧
  (∀ h (template : W16), let t := template.toNat
    reports (.pubTemplateStatus h template) h 0x0519 (pk template) (fun _ => t < 16384) (fun d =>
    let x := tplOf d t
    if (mfind d.cur.tpls t).isSome = true then
      [1, BitVec.ofNat 8 (b2n x.on), BitVec.ofNat 8 (b2n x.quar)] ++ pk x.spdu ++ leBytes 6 x.sent ++ leBytes 6 x.dropped
    else List.replicate 19 0)) ∧
  (∀ h (p : SigKeyP), sets (.pubTemplateSigkey h p) h 0x0520 p.bytes
    (fun d => p.index.toNat < 16384 ∧ p.binding.toNat ≤ 1 ∧ p.swap.toNat ≤ 1 ∧ pipFault d p.slot.toNat 1 = none) (fun d =>
      let t := tplOf d p.index.toNat
      let b : Binding := { keyId := p.keyId, slot := p.slot.toNat, timeOfKey := p.timeOfKey, timeToNext := p.timeToNext }
      let n := setBinding (p.binding = 1) (p.swap = 1) b t.cur t.next
      bindTemplate p.index.toNat { t with cur := n.1, next := n.2 } d))

/-- Alarms (chapter 10): records tested in the express lane, GOOSE repeats, pins, and the ALM commands: limits, maps, pins, acknowledgement,
GOOSE templates and their keys, and states.
Rests in part on the model's own choices, log entries 12, 15 and 33. -/
def Obligations.AlarmCommandsComplete : Prop :=
  (∀ w rest, does .gazelleLaneStart (fun d => coreRuns d = true ∧ d.alm.gzQueue = w :: rest ∧ nowNs d ≤ w.since + 812)
    (fun d => testRecord true w.record { d with alm := { d.alm with gzQueue := rest } })) ∧
  (∀ w rest, does .gazelleLaneStart (fun d => coreRuns d = true ∧ d.alm.gzQueue = w :: rest ∧ w.since + 812 < nowNs d)
    (fun d => testRecord true w.record (tally tallyGzLate 0 1 0 (setFlag 0x02 2 (bump { d with alm := { d.alm with gzQueue := rest } } 0x02 7))))) ∧
  (∀ (t : Fin 256) g, does (.gooseRepeat t)
    (fun d => coreRuns d = true ∧ mfind d.alm.goose t.val = some g ∧ leAt g.desc 0 1 = 1) (fun d =>
      let x := { g with sqNum := nextNum g.sqNum, interval := min (2 * g.interval) (leAt g.desc 64 4) }
      sendGoose t (tellPeer t (setGoose t x d)))) ∧
  (∀ pin : Fin 16, does (.alarmPinMinWidth pin) (fun d => coreRuns d = true ∧ (pinOf d pin).running = true)
    (fun d => pinsFollow (setPin pin { pinOf d pin with running := false } d))) ∧
  (∀ v, does (.almForceWrite v) (fun d => isLive d = true) (almForce v)) ∧
  (∀ h (cls : W16) entry, let b := cut entry 0 32
    stages (.almLimitWrite h cls entry) h 0x0630 (pk cls ++ b) (fun _ => cls ≠ 0 ∧ limitClassBad b = false) (fun _ => [])
    (fun _ => [3 * 2 ^ 24 + cls.toNat]) (fun g => { g with limits := mset g.limits cls.toNat (limitClassOf b) })) ∧
  (∀ h (source : Byte) (pins : W16) (goose latch : Byte), let m : SrcMap := { pins := pins, goose := goose.toNat, latch := latch = 1 }
    sets (.almMap h source pins goose latch) h 0x0631 (pk source ++ pk pins ++ pk goose ++ pk latch)
    (fun _ => engSource source.toNat = true ∧ latch.toNat ≤ 1)
    (fun d => { d with alm := { d.alm with map := mput {} d.alm.map source.toNat m } })) ∧
  (∀ h (p : AlmPinP), let n := p.pin.toNat
    sets (.almPinConfig h p) h 0x0632 p.bytes
    (fun _ => n ≤ 15 ∧ p.enable.toNat ≤ 1 ∧ p.drive.toNat ≤ 1 ∧ p.active.toNat ≤ 1 ∧ p.width.toNat ≤ 1000000)
    (fun d =>
      let e := setPin n { pinOf d n with
        enabled := p.enable = 1, openDrain := p.drive = 1, high := p.active = 1, minWidth := p.width.toNat } d
      if p.enable = 1 then showPin n e else emit (.pin 0 n none) e)) ∧
  (∀ h (kind : Byte) (which : W32), let ls := fun d => (latchedBy d kind.toNat which.toNat).1
    let es := fun d => (latchedBy d kind.toNat which.toNat).2
    ends (.almAck h kind which) h 0x0633 (pk kind ++ pk which) false .ok
    (fun _ => kind.toNat ≤ 2 ∧ (kind = 0 → which.toNat < 33554432) ∧ (kind = 1 → which.toNat < 128))
    (fun d => leBytes 4 ((ls d).length + (es d).length))
    (fun d => logEv 0x0205 kind.toNat which.toNat ((ls d).length + (es d).length)
      (bump (almSettle d ((es d).foldl ackEngine ((ls d).foldl ackLimit d))) 0x02 5))) ∧
  (∀ h (template : Byte) (addr : W64) desc, ends (.almGoose h template addr desc true) h 0x0634 (pk template ++ pk addr) true .ok
    (fun d => gooseBad d (cut desc 0 512) = false) (fun _ => []) (loadGoose template.toNat (cut desc 0 512))) ∧
  (∀ h (p : SigKeyP) g, let t := p.index.toNat
    sets (.almGooseSigkey h p) h 0x0635 (leBytes 1 t ++ pk p.binding ++ pk p.keyId ++ pk p.slot ++ pk p.timeOfKey ++ pk p.timeToNext ++ pk p.swap)
    (fun d => mfind d.alm.goose t = some g ∧ pipFault d p.slot.toNat 1 = none ∧ p.binding.toNat ≤ 1 ∧ p.swap.toNat ≤ 1) (fun d =>
      let x : Binding := { keyId := p.keyId, slot := p.slot.toNat, timeOfKey := p.timeOfKey, timeToNext := p.timeToNext }
      let b := setBinding (p.binding = 1) (p.swap = 1) x g.cur g.next
      bindGoose t { g with cur := b.1, next := b.2 } d)) ∧
  (∀ h (which : W32), reports (.almStatus h 0 which) h 0x0636 (pk (0 : Byte) ++ pk which) (fun _ => which.toNat < 33554432) (fun d =>
    let x := mget {} d.alm.limits which.toNat
    almStatusReply x.raised x.latched x.onN x.offN x.lastX x.changed)) ∧
  (∀ h (which : W32), reports (.almStatus h 1 which) h 0x0636 (pk (1 : Byte) ++ pk which) (fun _ => which.toNat < 128) (fun d =>
    let x := sourceOf d which.toNat
    almStatusReply x.raised x.latched 0 0 x.value x.changed))

/-- The state estimator (chapter 8): its slots, factorisations and preparations, and the EST commands.
Rests in part on the model's own choices, log entries 11, 20, 32 and 33. -/
def Obligations.EstimatorCommandsComplete : Prop :=
  (∀ r rest, does .estSlotStart
    (fun d => engRuns d = true ∧ d.est.working = none ∧ d.est.notices = r :: rest ∧ ∀ f, d.est.ready = some f → r.summary.gen ≠ f.gen)
    (fun d => { d with est := { d.est with notices := rest, working := some r } })) ∧
  (∀ (r : Record) rest (f : Factor), does .estSlotStart
    (fun d => engRuns d = true ∧ d.est.working = none ∧ d.est.notices = r :: rest ∧ d.est.ready = some f ∧ r.summary.gen = f.gen) (fun d =>
      let n := d.est.fseq + 1
      let run := { d.est.run with
        factor := some { f with seq := n }, open_ := [], refOpen := f.branches, cold := d.est.run.cold || d.est.run.factor.isNone }
      let e := logEv 0x0B01 n.toNat f.nnz f.unobs.length { d with est := { d.est with fseq := n, run := run, ready := none } }
      { e with est := { e.est with notices := rest, working := some r } })) ∧
  (∀ (r : Record) g, does .estSlotDelivered
    (fun d => engRuns d = true ∧ d.est.working = some r ∧ genByNum { d with est := { d.est with working := none } } r.summary.gen = some g)
    (fun d => estDeliver g r { d with est := { d.est with working := none } })) ∧
  (∀ f, does .estRefactorDone
    (fun d => engRuns d = true ∧ d.est.running = some f ∧ f.prep = false ∧ f.gen = d.clk.gen) (fun d =>
      let done (r : EstRowRun) : EstRowRun :=
        if r.inA = false ∧ r.cause = .topology ∧ f.branches = d.est.run.open_ then { r with topoDone := true } else r
      let e := bump d 0x0B 10
      let run := { e.est.run with rows := e.est.run.rows.map fun x => (x.1, done x.2) }
      let x := factorOf d.cur.est f
      factoriserFree (if nnzMax < x.nnz then fillStop x e else { e with est := { e.est with ready := some x, run := run } }))) ∧
  (∀ f, does .estPreparationDone
    (fun d => engRuns d = true ∧ d.est.running = some f ∧ f.prep = true ∧ f.gen ≠ d.clk.gen) (fun d =>
      let x := factorOf d.staged.est f
      factoriserFree (if nnzMax < x.nnz then fillStop x { d with est := { d.est with failed := f.gen :: d.est.failed } }
        else { d with est := { d.est with prepared := some x } }))) ∧
  (∀ h (p : EstConfigP), let c := estConfigOf p
    stages (.estConfig h p) h 0x0601 p.bytes (fun d => estConfigBad p = false ∧
      rateBad d.staged c.ostream = false ∧ derivedFits d.staged c.stream c.ostream = true)
    (fun _ => []) (fun _ => []) (fun g => { g with est := { g.est with config := c } })) ∧
  (∀ h (p : LoadP) t, begins (.estLoad h p) h 0x0602 (p.bytes true) (p.source = 0)
    (fun d => d.clk.pending = none ∧ estTables p.table.toNat = some t ∧ p.source.toNat ≤ 1 ∧ p.count.toNat ≠ 0 ∧
      p.first.toNat + p.count.toNat ≤ t.size ∧ (p.source = 1 → h.chan = 24 ∧ (replaySection d p.addr.toNat).isSome = true))
    (fun d => { d with est := { d.est with loads := d.est.loads ++ [loadRun h p] } })) ∧
  (∀ (l : LoadRun) rest t data, let n := t.width * l.p.count.toNat
    let b (d : Dev) := cut (loadData d l data) 0 n
    let es (d : Dev) := chunksOf t.width l.p.count.toNat (b d)
    does (.estLoadDone data true)
    (fun d => isLive d = true ∧ d.est.loads = l :: rest ∧ estTables l.p.table.toNat = some t ∧ l.conflict = false ∧
      (l.p.source = 1 → n ≤ (loadData d l data).length) ∧ crc32 (b d) = l.p.crc.toNat ∧ ∀ e ∈ es d, estBad l.p.table.toNat e = false)
    (fun d => finishLoad l .ok [] { d with
      est := { d.est with loads := rest }
      staged := (es d).zipIdx.foldl (fun g e => estPut l.p.table.toNat g (l.p.first.toNat + e.2) e.1) d.staged })) ∧
  (∀ h (table : Byte) (first count : W32) t, let f := first.toNat
    let n := count.toNat
    stages (.estClear h table first count) h 0x0603 (pk table ++ pk first ++ pk count)
    (fun _ => estTables table.toNat = some t ∧ n ≠ 0 ∧ f + n ≤ t.size) (fun _ => []) (fun _ => [])
    (fun g => { g with est :=
      if table = 0 then { g.est with buses := mclear g.est.buses f n }
      else if table = 1 then { g.est with branches := mclear g.est.branches f n }
      else { g.est with rows := mclear g.est.rows f n } })) ∧
  (∀ h, reports (.estStatus h) h 0x0604 [] (fun _ => True) (fun d =>
    leBytes 4 (estStat d) ++ leBytes 4 (estFactNum d Factor.nnz) ++ leBytes 4 (estFactNum d Factor.buses) ++
    leBytes 4 (estFactNum d fun f => f.unobs.length) ++ leBytes 4 (rowsInA d) ++ leBytes 1 (estPrepState d) ++ leBytes 4 d.est.prepOff.length ++
    leBytes 4 (d.est.prepOff.head?.getD 0))) ∧
  (∀ h, sets (.estRefactor h) h 0x0605 [] (fun d => ∀ f, d.est.running = some f → f.prep = false) requestFactor) ∧
  (∀ h (row : W32), let r := row.toNat
    sets (.estRowRelease h row) h 0x0606 (pk row)
    (fun d => let y := rowRun d.est.run r
      r < 327680 ∧ y.inA = false ∧ y.disabled = false ∧ y.cause = .bad) (fun d =>
      let y := { rowRun d.est.run r with inA := true, badN := 0 }
      requestFactor (joinA r 2 (setEstRun false (setRow r y d.est.run) d)))) ∧
  (∀ h (row : W32), let r := row.toNat
    reports (.estRowStatus h row) h 0x0607 (pk row) (fun d => r < 262144 ∧ (mfind d.cur.est.rows r).isSome = true) (fun d =>
    let y := rowRun d.est.run r
    let f := d.est.run.factor
    let cause := match y.cause with | .absent => 0 | .bad => 1 | .topology => 2
    leBytes 1 (b2n (y.inA && !y.disabled)) ++ leBytes 1 (if y.inA then 0 else cause) ++
      leBytes 1 (b2n (f.any fun f => f.critical.contains r)) ++ leBytes 8 ((f.bind fun f => mfind f.omega r).getD 0).toNat ++
      leBytes 8 y.lastRn.toNat ++ leBytes 1 (max y.absentN y.badN) ++ leBytes 1 y.joinN))

/-- The mode engine (chapter 9): its slots, updates and evaluations, and the OSC commands.
Rests in part on the model's own choices, log entries 1, 11, 21, 32 and 33. -/
def Obligations.ModeEngineCommandsComplete : Prop :=
  (∀ r rest g c, let upd := fun (d : Dev) => { d with osc := { d.osc with notices := rest } }
    does .oscSlotStart
    (fun d => engRuns d = true ∧ oscIdle d = true ∧ d.osc.notices = r :: rest ∧ oscGen (upd d) r = some (g, c))
    (fun d => almSettle d (oscStart g c r (upd d)))) ∧
  (∀ r g c, does .oscModeUpdateDelivered (fun d => engRuns d = true ∧ d.osc.update1 = some r ∧ oscGen d r = some (g, c)) (oscDeliver1 g c r)) ∧
  (∀ r g c, does .oscFoEvaluation (fun d => engRuns d = true ∧ d.osc.eval2 = some r ∧ oscGen d r = some (g, c)) (oscEvalSlot g c r)) ∧
  (∀ r g c, does .oscFoUpdateDelivered
    (fun d => engRuns d = true ∧ d.osc.update2 = some r ∧ d.osc.eval2 = none ∧ oscGen d r = some (g, c)) (oscDeliver2 g c r)) ∧
  (∀ h (src : BlockSrc) block, let b := fun d => paramBytes h src 128 block d
    ends (.oscConfig h src block) h 0x0610 (BlockSrc.bytes src) (src.kind = 0) .ok
    (fun d => let c := oscConfigOf (b d)
      blockFits src h 128 ∧ oscFieldBad (b d) = false ∧ oscRuleBad c = false ∧ oscOstreamBad d.staged c = false ∧
      canStage [] [] d)
    (fun _ => []) (fun d => stagedBy [] [] (fun g => { g with osc := { g.osc with config := some (oscConfigOf (b d)) } }) d)) ∧
  (∀ h (p : LoadP) t, begins (.oscLoad h p) h 0x0611 (p.bytes true) (p.source = 0)
    (fun d => d.clk.pending = none ∧ oscTables p.table.toNat = some t ∧ p.source.toNat ≤ 1 ∧ p.count.toNat ≠ 0 ∧
      p.first.toNat + p.count.toNat ≤ t.size ∧ (p.source = 1 → h.chan = 24 ∧ (replaySection d p.addr.toNat).isSome = true))
    (fun d => { d with osc := { d.osc with loads := d.osc.loads ++ [loadRun h p] } })) ∧
  (∀ (l : LoadRun) rest t data, let n := t.width * l.p.count.toNat
    let b (d : Dev) := cut (loadData d l data) 0 n
    let es (d : Dev) := chunksOf t.width l.p.count.toNat (b d)
    does (.oscLoadDone data true)
    (fun d => isLive d = true ∧ d.osc.loads = l :: rest ∧ oscTables l.p.table.toNat = some t ∧ l.conflict = false ∧
      (l.p.source = 1 → n ≤ (loadData d l data).length) ∧ crc32 (b d) = l.p.crc.toNat ∧ ∀ e ∈ es d, oscBad l.p.table.toNat e = false)
    (fun d => finishLoad l .ok [] { d with
      osc := { d.osc with loads := rest }
      staged := (es d).zipIdx.foldl (fun g e => oscPut l.p.table.toNat g (l.p.first.toNat + e.2) e.1) d.staged })) ∧
  (∀ h (table : Byte) (first count : W32) t, let f := first.toNat
    let n := count.toNat
    stages (.oscClear h table first count) h 0x0612 (pk table ++ pk first ++ pk count)
    (fun _ => oscTables table.toNat = some t ∧ n ≠ 0 ∧ f + n ≤ t.size) (fun _ => []) (fun _ => [])
    (fun g => { g with osc :=
      if table = 0 then { g.osc with inputs := mclear g.osc.inputs f n } else { g.osc with branches := mclear g.osc.branches f n } })) ∧
  (∀ h, reports (.oscStatus h) h 0x0613 [] (fun _ => True) (fun d =>
    leBytes 4 (oscStat d) ++ leBytes 4 (oscInputsReg d) ++ leBytes 4 (min 0xFFFFFFFF d.osc.samples) ++
    leBytes 4 (min 0xFFFFFFFF d.osc.segments) ++ prepBytes (if d.clk.pending.isSome then d.staged else d.cur).osc.prep)) ∧
  (∀ h, sets (.oscRestart h) h 0x0614 [] (fun d => d.osc.force.isSome = true) (fun d => { d with osc := { d.osc with restartDue := true } })) ∧
  (∀ h (slot : Byte) m, reports (.oscModeStatus h slot) h 0x0615 (pk slot)
    (fun d => slot.toNat ≤ 31 ∧ mfind d.osc.modes slot.toNat = some m) (fun d =>
    [if m.stale ≠ 0 then 2 else if m.fresh = true then 3 else 1] ++ pk m.cand.f ++ pk m.cand.zeta ++ pk m.cand.amp ++ pk m.cand.e ++
      leBytes 4 m.cand.ref ++ leBytes 2 m.age ++ leBytes 1 (mget {} d.osc.damp slot.toNat).onN)) ∧
  (∀ h (slot : Byte) x, reports (.oscFoStatus h slot) h 0x0616 (pk slot)
    (fun d => slot.toNat ≤ 7 ∧ mfind d.osc.fos slot.toNat = some x) (fun d =>
    let l := (x.slopes.foldr insertSlope []).map Prod.fst
    pk x.peak.f ++ pk x.peak.eta ++ pk x.peak.cv ++ leBytes 4 ((tickOrd d.clk.sec d.clk.tick - tickOrd x.sec x.tick) / 3600) ++
      leBytes 4 (x.source.getD 0xFFFFFFFF) ++ pk x.share ++ ((List.range 8).map fun i => leBytes 4 (l.getD i 0xFFFFFFFF)).flatten))

/-- The island engine (chapter 10): its slots in both units, and the ISL commands.
Rests in part on the model's own choices, log entries 22, 32 and 33. -/
def Obligations.IslandEngineCommandsComplete : Prop :=
  (∀ r rest g c, let upd := fun (d : Dev) => { d with isl := { d.isl with notices := rest } }
    does .islSlotStart
    (fun d => engRuns d = true ∧ d.isl.topo = none ∧ d.isl.coh = none ∧ d.isl.notices = r :: rest ∧ islGen (upd d) r = some (g, c))
    (fun d => almSettle d (islStart g c r (upd d)))) ∧
  (∀ r g c, does .islTopoDelivered (fun d => engRuns d = true ∧ d.isl.topo = some r ∧ islGen d r = some (g, c)) (islDeliver3 g c r)) ∧
  (∀ r g c, does .islCohDelivered (fun d => engRuns d = true ∧ d.isl.coh = some r ∧ islGen d r = some (g, c)) (islDeliver4 g c r)) ∧
  (∀ h (src : BlockSrc) block, let b := fun d => paramBytes h src 64 block d
    ends (.islConfig h src block) h 0x0620 (BlockSrc.bytes src) (src.kind = 0) .ok
    (fun d => let c := islConfigOf (b d)
      blockFits src h 64 ∧ islFieldBad (b d) = false ∧ islOstreamBad d.staged c = false ∧ canStage [] [] d)
    (fun _ => []) (fun d => stagedBy [] [] (fun g => { g with isl := { g.isl with config := some (islConfigOf (b d)) } }) d)) ∧
  (∀ h (p : LoadP) t, begins (.islLoad h p) h 0x0621 (p.bytes true) (p.source = 0)
    (fun d => d.clk.pending = none ∧ islTables p.table.toNat = some t ∧ p.source.toNat ≤ 1 ∧ p.count.toNat ≠ 0 ∧
      p.first.toNat + p.count.toNat ≤ t.size ∧ (p.source = 1 → h.chan = 24 ∧ (replaySection d p.addr.toNat).isSome = true))
    (fun d => { d with isl := { d.isl with loads := d.isl.loads ++ [loadRun h p] } })) ∧
  (∀ (l : LoadRun) rest t data, let n := t.width * l.p.count.toNat
    let b (d : Dev) := cut (loadData d l data) 0 n
    let es (d : Dev) := chunksOf t.width l.p.count.toNat (b d)
    does (.islLoadDone data true)
    (fun d => isLive d = true ∧ d.isl.loads = l :: rest ∧ islTables l.p.table.toNat = some t ∧ l.conflict = false ∧
      (l.p.source = 1 → n ≤ (loadData d l data).length) ∧ crc32 (b d) = l.p.crc.toNat ∧ ∀ e ∈ es d, islBad l.p.table.toNat e = false)
    (fun d => finishLoad l .ok [] { d with
      isl := { d.isl with loads := rest }
      staged := (es d).zipIdx.foldl (fun g e => islPut l.p.table.toNat g (l.p.first.toNat + e.2) e.1) d.staged })) ∧
  (∀ h (table : Byte) (first count : W32) t, let f := first.toNat
    let n := count.toNat
    stages (.islClear h table first count) h 0x0622 (pk table ++ pk first ++ pk count)
    (fun _ => islTables table.toNat = some t ∧ n ≠ 0 ∧ f + n ≤ t.size) (fun _ => []) (fun _ => [])
    (fun g => { g with isl :=
      if table = 0 then { g.isl with branches := mclear g.isl.branches f n } else { g.isl with inputs := mclear g.isl.inputs f n } })) ∧
  (∀ h, reports (.islStatus h) h 0x0623 [] (fun _ => True) (fun d =>
    leBytes 4 (islStat d) ++ leBytes 4 d.isl.nComps ++ leBytes 4 d.isl.nClusters ++
    leBytes 4 (min 0xFFFFFFFF d.isl.coldSlots) ++ leBytes 4 (min 0xFFFFFFFF d.isl.cohSlots) ++
    prepBytes (if d.clk.pending.isSome then d.staged else d.cur).isl.prep)) ∧
  (∀ h, sets (.islRestart h) h 0x0624 [] (fun d => d.isl.force.isSome = true) (fun d => { d with isl := { d.isl with restartDue := true } })) ∧
  (∀ h (slot : Byte) x, reports (.islIslandStatus h slot) h 0x0625 (pk slot)
    (fun d => slot.toNat ≤ 31 ∧ mfind d.isl.islands slot.toNat = some x) (fun d =>
    let anchor := ((d.isl.comps.find? fun y => y.id = x.comp).map fun y => y.nodes.headD 0).getD 0
    leBytes 4 x.comp ++ pk x.fc ++ leBytes 4 x.nodes ++ leBytes 4 x.valid ++
      leBytes 4 ((tickOrd d.clk.sec d.clk.tick - tickOrd x.sec x.tick) / 3600) ++ leBytes 4 anchor))

/-- Launches and event pins (chapter 11): occurrences run at their instants, frames wait out a PAUSE, pins pulse and queue edges, and the LCH
commands file, withdraw and report entries.
Rests in part on the model's own choices, log entries 6, 11, 24 and 34. -/
def Obligations.LaunchCommandsComplete : Prop :=
  (∀ (entry : Fin 16384) e, does (.launchExecute entry)
    (fun d => isLive d = true ∧ mfind d.lch.entries entry.val = some e ∧ e.due = true)
    (fun d => (dueUpTo d entry e.inst).foldl (fun d k => launchDue k d) (bringTo d e.inst))) ∧
  (∀ (port : Fin 12) y, let r := fun d => launchSend port y.frame (heldFrameTaken port d)
    does (.launchFrameDelayed port)
    (fun d => isLive d = true ∧ (d.lch.delayed.find? fun y => y.port == port.val) = some y ∧
      (portUp d port = false ∨ (pauseLeft d (portOf d port) = 0 ∧ reservedFor d port y.frame = false)))
    (fun d => match (r d).2 with
      | some c => endHeld y .failed c (r d).1
      | none => endHeld y (if y.late then .lateDone else .delayed) 0 (r d).1)) ∧
  (∀ (pin : Fin 8) t, does (.eventPulseEnd pin) (fun d => isLive d = true ∧ (eventPin d pin).pulseEnd = some t)
    (fun d => let x := eventPin d pin
      showEvent pin (setEvent pin { x with pulseEnd := none, level := !x.high } (bringTo d t)))) ∧
  (∀ (pin : Fin 8) rise, let n : Nat := pin.val
    let lev := fun d => setEvent n { eventPin d n with level := rise } d
    does (.eventInputEdge pin rise)
    (fun d => isLive d = true ∧ (eventPin d n).mode = .input ∧ bit (eventPin (lev d) n).edges.toNat (if rise then 0 else 1) = true ∧
      (eventPin (lev d) n).queue.length < 16)
    (fun d =>
      let x := eventPin (lev d) n
      let e := bump (setEvent n { x with queue := x.queue ++ [{ rise := rise, ts := nowStamp (lev d) }] } (lev d)) 0x11 13
      let f := offerTrigger 3 (fun w => w.toNat = n) (some (edgeBit rise)) (nowNs e) (unskew e (48 + n) (nowNs e)) e
      if rise = true ∧ engRuns f = true then auxEventEdge n f else f)) ∧
  (∀ path, does (.lchDone0Read path) (fun d => isLive d = true ∧ isSecure path = false) (doneRead path)) ∧
  (∀ path (pin : Fin 8), does (.lchEvLoRead path pin) (fun d => isLive d = true ∧ isSecure path = false) (eventRead path pin)) ∧
  (∀ h (index : W16) entry, let b := cut entry 0 32
    let e := lchEntryOf b
    let i := index.toNat
    sets (.lchWrite h index entry) h 0x0801 (pk index ++ b)
    (fun d => i ≤ 16383 ∧ lchBad b = false ∧ nowOrd d + 2 ≤ tickOrd e.sec e.tick ∧
      (∀ x, mfind d.lch.entries i = some x → x.filed = false) ∧ filedIn d e.sec e.tick < 256 ∧ e.action ≠ 6)
    (fun d => bump (setEntry i e { d with lch := { d.lch with delayed := d.lch.delayed.map (disown i) } }) 0x11 0)) ∧
  (∀ h (index : W16) entry, let b := cut entry 0 32
    let e := lchEntryOf b
    let i := index.toNat
    let g := BitVec.ofNat 16 (e.par 20 2)
    sets (.lchWrite h index entry) h 0x0801 (pk index ++ b)
    (fun d => i ≤ 16383 ∧ lchBad b = false ∧ nowOrd d + 2 ≤ tickOrd e.sec e.tick ∧
      (∀ x, mfind d.lch.entries i = some x → x.filed = false) ∧ filedIn d e.sec e.tick < 256 ∧ e.action = 6 ∧
      switchConflict g e.sec e.tick d = false)
    (fun d => startSwitch g e.sec e.tick (some i) (bump (setEntry i e
      { d with lch := { d.lch with delayed := d.lch.delayed.map (disown i) } }) 0x11 0))) ∧
  (∀ h (index : W16) e, sets (.lchCancel h index) h 0x0802 (pk index)
    (fun d => index.toNat ≤ 16383 ∧ mfind d.lch.entries index.toNat = some e ∧ e.action ≠ 6 ∧ e.status = .pending)
    (cancelEntry index.toNat)) ∧
  (∀ h (index : W16), reports (.lchStatus h index) h 0x0803 (pk index) (fun _ => index.toNat ≤ 16383) (fun d =>
    match mfind d.lch.entries index.toNat with
    | none => List.replicate 28 0
    | some e => leBytes 1 (lchCode e.status) ++ leBytes 1 e.cause ++ leBytes 6 e.sec.toNat ++ leBytes 2 e.tick ++ leBytes 4 e.offset ++
        leBytes 4 (e.runs - 1) ++ leBytes 6 e.last.1.toNat ++ leBytes 4 e.last.2.toNat)) ∧
  (∀ h (buffer len : W16) (addr : W64) data,
    ends (.lchFrameLoad h buffer len addr data true) h 0x0804 (pk buffer ++ pk len ++ pk addr) true .ok
    (fun d => buffer.toNat ≤ 1023 ∧ 60 ≤ len.toNat ∧ len.toNat ≤ 2044 ∧
      ∀ e ∈ d.lch.entries, ¬ (e.2.status = .armed ∧ e.2.action = 1 ∧ e.2.par 21 2 = buffer.toNat))
    (fun _ => []) (fun d => { d with lch := { d.lch with buffers := mset d.lch.buffers buffer.toNat (cut data 0 len.toNat) } })) ∧
  (∀ h (p : EventConfigP), let n := p.pin.toNat
    let x : EventPin :=
      { mode := if p.mode = 0 then .off else if p.mode = 1 then .output else .input, openDrain := p.drive = 1, high := p.active = 1,
        edges := BitVec.ofNat 2 p.edges.toNat, level := if p.mode = 1 then p.active = 0 else false }
    sets (.lchEventConfig h p) h 0x0805 p.bytes
    (fun _ => n ≤ 7 ∧ p.mode.toNat ≤ 2 ∧ p.drive.toNat ≤ 1 ∧ p.active.toNat ≤ 1 ∧ p.edges.toNat ≤ 3 ∧ (p.mode = 2 → p.edges ≠ 0))
    (fun d => if p.mode = 1 then showEvent n (setEvent n x d) else emit (.pin 1 n none) (setEvent n x d)))

/-- Capture (chapter 12): triggers, ends, the window's session, and the CAP commands.
Rests in part on the model's own choices, log entries 11 and 19. -/
def Obligations.CaptureCommandsComplete : Prop :=
  (∀ w rest, does .captureTrigger
    (fun d => coreRuns d = true ∧ d.cap.waiting = w :: rest ∧ (w.kind = 4 → (sessOf d w.session).state = .armed))
    (fun d => capTrigger w.session w.kind w.term w.sel w.raw w.tp { d with cap := { d.cap with waiting := rest } })) ∧
  (∀ session : Fin 32, does (.captureEnd session)
    (fun d => coreRuns d = true ∧ (sessOf d session).state = .capturing ∧ rangeDone d (sessOf d session) = true)
    (fun d => endCapture session (naturalEnd (sessOf d session)) none d)) ∧
  (∀ v, does (.capSelWrite v) (fun d => isLive d = true) (capSelect v.toNat)) ∧
  (∀ h (session : Byte) (addr : W64) desc list readOk, let s := session.toNat
    ends (.capSession h session 1 addr desc list readOk) h 0x0810 ([session, 1] ++ pk addr) false .ok
    (fun d => s ≤ 31 ∧ capFixed d s = false) (fun _ => []) (dropSession s)) ∧
  (∀ h (session : Byte) (addr : W64) desc list, let s := session.toNat
    let b := cut desc 0 128
    let c := capDefOf b list
    let f := fun (d : Dev) => ((mfind d.cur.os c.ostream).map OstreamDef.rate).getD 0
    let v := fun (d : Dev) => if c.isWide && c.wideAll then recordValues d.cur c.ostream else 0
    let need := fun (d : Dev) => if c.stream then leAt b 36 4 else ((lanesOf c).map (laneAlloc c (f d) (v d))).sum
    ends (.capSession h session 0 addr desc list true) h 0x0810 ([session, 0] ++ pk addr) true .ok
    (fun d => s ≤ 31 ∧ capFixed d s = false ∧ capDefBad b list = false ∧ need d ≤ d.cap.free + (sessOf d s).alloc)
    (fun d => leBytes 4 (need d)) (fun d =>
      let x := sessOf d s
      let y : CapSession := { x.emptied .idle with defn := some c, alloc := need d, values := v d, nextNum := 0 }
      setSess s y (dropTriggers s { d with cap := { d.cap with free := d.cap.free + x.alloc - need d } }))) ∧
  (∀ h (session mask : Byte) (addr : W64) desc, let s := session.toNat
    let b := cut desc 0 784
    ends (.capMask h session mask addr desc true) h 0x0811 ([session, mask] ++ pk addr) true .ok
    (fun d => s ≤ 31 ∧ mask.toNat ≤ 7 ∧ capFixed d s = false ∧ capMaskBad b (sessOf d s).defn = false)
    (fun _ => []) (fun d => setSess s { sessOf d s with masks := mset (sessOf d s).masks mask.toNat (capMaskOf b) } d)) ∧
  (∀ h (first : Byte) (values : List W32), let v := values.map fun w => signed 32 w.toNat
    sets (.capSkew h first values) h 0x0812 ([first, BitVec.ofNat 8 values.length] ++ (values.map pk).flatten)
    (fun _ => values ≠ [] ∧ values.length ≤ 8 ∧ first.toNat + values.length ≤ 56 ∧ ∀ n ∈ v, n.natAbs ≤ 100000)
    (fun d => { d with cap := { d.cap with skews := v.zipIdx.foldl (fun m e => mput 0 m (first.toNat + e.2) e.1) d.cap.skews } })) ∧
  (∀ h (session : Byte), sets (.capArm h session) h 0x0813 [session]
    (fun d => session.toNat ≤ 31 ∧ (sessOf d session.toNat).state = .idle)
    (fun d => setSess session.toNat ((sessOf d session.toNat).emptied .armed) d)) ∧
  (∀ h (session : Byte), let s := session.toNat
    sets (.capStop h session) h 0x0814 [session] (fun d => s ≤ 31 ∧ (sessOf d s).state = .armed)
    (fun d => setSess s ((sessOf d s).emptied .idle) d)) ∧
  (∀ h (session : Byte), let s := session.toNat
    sets (.capStop h session) h 0x0814 [session]
    (fun d => s ≤ 31 ∧ (sessOf d s).state = .capturing ∧ rangeDone d (sessOf d s) = false) (endCapture s 3 none)) ∧
  (∀ h (session given : Byte) sec (ns : W32), let t := fun (d : Dev) => if given = 1 then instNs sec ns.toNat else nowNs d
    sets (.capTrigger h session given sec ns) h 0x0815 ([session, given] ++ pk sec ++ pk ns)
    (fun d => session.toNat ≤ 31 ∧ given.toNat ≤ 1 ∧ (given = 1 → ns.toNat < 1000000000) ∧ t d ≤ nowNs d ∧ nowNs d ≤ t d + 2100000000)
    (fun d => capTrigger session.toNat 5 0xFF 0 (t d) (t d) d)) ∧
  (∀ h (session lane : Byte) (first count : W32) (addr : W64),
    let held := fun (d : Dev) => mget [] (sessOf d session.toNat).held lane.toNat
    ends (.capRead h session lane first count addr) h 0x0816 ([session, lane] ++ pk first ++ pk count ++ pk addr) true .ok
    (fun d => session.toNat ≤ 31 ∧ lane ≠ 0 ∧ lane.toNat ≤ 6 ∧ (sessOf d session.toNat).state = .rearm ∧
      first.toNat + count.toNat ≤ (held d).length)
    (fun _ => []) (fun d => hostWrite addr ((((held d).drop first.toNat).take count.toNat).map chunkBytes).flatten d)) ∧
  (∀ h (session : Byte) c, sets (.capRelease h session) h 0x0817 [session]
    (fun d => session.toNat ≤ 31 ∧ (sessOf d session.toNat).state = .rearm ∧ (sessOf d session.toNat).defn = some c ∧ c.hold = true)
    (capFree session.toNat)) ∧
  (∀ h (session : Byte), reports (.capStatus h session) h 0x0818 [session] (fun _ => session.toNat ≤ 31) (fun d =>
    let x := sessOf d session.toNat
    let list := (x.cap.map Capture.during).getD []
    leBytes 1 (capStateNum x.state) ++ leBytes 4 (preHeld x) ++ leBytes 4 x.alloc ++ ((x.cap.map fun k => stampOfNs k.tp).getD {}).bytes ++
      leBytes 4 ((x.cap.map Capture.duringN).getD 0) ++ padTo 96 (list.map fun t => (stampOfNs t).bytes).flatten))

/-- The local front end (chapter 13): samples, modulator faults, settling, PMU reports, and the LMF commands.
Rests in part on the model's own choices, log entries 6, 11 and 23. -/
def Obligations.LocalFrontEndCommandsComplete : Prop :=
  (∀ samples, let b := fun d =>
      let e := settlePassed (bringTo d (nextSample d * 312500 / 9))
      if e.lmf.sample = none then pmuAnew (nextSample d) e else e
    let on := fun d => (List.range 48).filter fun k => (chanOf (b d) k).enabled
    does (.localSample samples) (fun d => engRuns d = true ∧ on d ≠ []) (fun d => takeSample (nextSample d) (on d) samples (b d))) ∧
  (∀ (chan : Fin 48) level, does (.modFault chan level)
    (fun d => engRuns d = true ∧ (chanOf d chan).enabled = true ∧ (chanOf d chan).fault = false) (fun d =>
      let x := { chanOf d chan with fault := true, settling := false, faultAt := some (nowStamp d) }
      logEv 0x0E01 chan (b2n level) 0 (setFlag 0x0E 0 (bump (setChan chan x d) 0x0E 3)))) ∧
  (∀ chan : Fin 48, does (.modFaultClear chan) (fun d => engRuns d = true ∧ (chanOf d chan).fault = true)
    (fun d => restartChans [chan.val] 3 (setChan chan { chanOf d chan with fault := false } d))) ∧
  (∀ chan : Fin 48, does (.channelSettled chan) (fun d => engRuns d = true ∧ (chanOf d chan).settling = true)
    (fun d => chanSettle chan (waitUntil d (chanOf d chan).settleOp))) ∧
  (∀ (circuit : Fin 8) q r t, does (.localPmuReport circuit)
    (fun d => engRuns d = true ∧ d.lmf.sample = some q ∧ pmuDue d circuit q = some (r, t))
    (fun d => pmuReport circuit r.set t (pmuDone circuit r t d))) ∧
  (∀ h (p : LmfClockP), sets (.lmfClock h p) h 0x0701 p.bytes (fun _ => 20 ≤ p.d.toNat ∧ p.d.toNat ≤ 50) (fun d =>
    let e := { d with lmf := { d.lmf with d := p.d.toNat, clkOn := p.enable, edges := p.edges } }
    if d.lmf.d = p.d.toNat then e else restartChans (List.range 48) 0 e)) ∧
  (∀ h (p : LmfChanP), ends (.lmfChan h p) h 0x0702 p.bytes false .ok
    (fun d => p.chan.toNat ≤ 47 ∧ p.enable.toNat ≤ 1 ∧ (p.r.toNat = 32 ∨ p.r.toNat = 64 ∨ p.r.toNat = 128) ∧ p.median.toNat ≤ 1 ∧
      -200000 ≤ p.pd.toInt ∧ p.pd.toInt ≤ 200000 ∧ f32Fin p.fs = true ∧ f32Lt 0 p.fs = true ∧ modFits d.lmf.d p.r.toNat = true)
    (fun d => leBytes 4 (groupDelay d.lmf.d p.r.toNat (p.median = 1))) (setupChan p)) ∧
  (∀ h (p : LmfPmuP), let c := p.circuit.toNat
    let x : LmfPmu := { enabled := p.enable = 1, rate := p.rate.toNat, mClass := p.cls = 1, f60 := p.fnom = 60, stream := p.stream.toNat }
    sets (.lmfPmu h p) h 0x0703 p.bytes
    (fun _ => c ≤ 7 ∧ p.enable.toNat ≤ 1 ∧ p.rate.toNat ∈ rates ∧ p.cls.toNat ≤ 1 ∧ (p.fnom = 50 ∨ p.fnom = 60) ∧ p.stream.toNat ≤ 262143 ∧
      (p.cls = 1 → 10 ≤ p.rate.toNat ∧ p.rate.toNat ≤ 60))
    (fun d => if pmuOf d c = x then d else noteChange c (pmuChange c x (nextTick d) d))) ∧
  (∀ h (circuit : Byte), let c := circuit.toNat
    let one := fun d k => leBytes 4 (delayOf d k) ++ leBytes 4 (unsigned 32 (chanOf d k).pd) ++
      leBytes 1 (b2n (chanOf d k).enabled + 2 * b2n (chanOf d k).settling + 4 * b2n (chanOf d k).fault) ++ ((chanOf d k).faultAt.getD {}).bytes
    reports (.lmfStatus h circuit) h 0x0704 (pk circuit) (fun _ => c ≤ 7) (fun d =>
    let m := pmuOf d c
    ((rangeFrom (6 * c) 6).map (one d)).flatten ++ leBytes 1 (b2n m.enabled) ++ leBytes 1 m.rate ++ leBytes 1 (b2n m.mClass) ++
      leBytes 1 (if m.f60 then 60 else 50) ++ leBytes 3 m.stream))

/-- The auxiliary converters (chapter 13): conversions, calibrations and the spare slice, the windows of the buffers, and the AUX commands.
Rests in part on the model's own choices, log entries 4, 6, 11 and 23. -/
def Obligations.ConverterCommandsComplete : Prop :=
  (∀ (lane : Fin 8) raw i e, let l : Nat := lane.val
    does (.auxConversionDone lane raw)
    (fun d => let x := auxLaneOf d l
      engRuns d = true ∧ x.run = true ∧ x.work = .regular i ∧ x.entries[i]? = some e)
    (fun d => let y := auxDeliver l e false raw (waitUntil d (auxLaneOf d l).doneOp)
      auxLaneNext l (auxSetLane l { auxLaneOf y l with next := (i + 1) % (auxLaneOf d l).entries.length, gaveOp := some (opNs y) } y))) ∧
  (∀ (lane : Fin 8) raw i e, let l : Nat := lane.val
    does (.auxConversionDone lane raw)
    (fun d => let x := auxLaneOf d l
      engRuns d = true ∧ x.run = true ∧ x.work = .injected i ∧ x.injected[i]? = some e)
    (fun d => let y := auxDeliver l e true raw (waitUntil d (auxLaneOf d l).doneOp)
      if i + 1 < (auxLaneOf d l).injected.length then auxBegin l (.injected (i + 1)) y
      else auxLaneNext l (bump y 0x0F 1))) ∧
  (∀ v, does (.auxInjWrite v) (fun d => engRuns d = true) (auxInj v)) ∧
  (∀ (lane : Fin 8) coefs, let l : Nat := lane.val
    does (.auxCalDone lane coefs)
    (fun d => engRuns d = true ∧ (auxLaneOf d l).run = true ∧ (auxLaneOf d l).work = .calibrating)
    (fun d =>
      let e := waitUntil d (auxLaneOf d l).doneOp
      auxLaneNext l (bump { e with aux := { e.aux with coefs := mset d.aux.coefs (auxSliceOf d l) coefs } } 0x0F 6))) ∧
  does .auxSpareTakeover (fun d => engRuns d = true ∧ d.aux.calPeriod ≠ 0 ∧ d.aux.spare < 9) (fun d =>
    let w := waitUntil d d.aux.rotateOp
    let e := { w with aux := { w.aux with rotateOp := w.aux.rotateOp + w.aux.calPeriod * secNs } }
    let l := e.aux.nextLane
    if !e.aux.spareOk then e
    else if (auxLaneOf e l).run then auxSetLane l { auxLaneOf e l with takeover := true } e else auxTakeOver l e) ∧
  (∀ coefs, does (.auxSpareCalibrated coefs none) (fun d => engRuns d = true ∧ d.aux.spare < 9)
    (fun d => { d with aux := { d.aux with coefs := mset d.aux.coefs d.aux.spare coefs, spareOk := true } })) ∧
  (∀ coefs f, does (.auxSpareCalibrated coefs (some f)) (fun d => engRuns d = true ∧ d.aux.spare < 9)
    (fun d => logEv 0x0F01 d.aux.spare f.1.toNat (b2n f.2) (setFlag 0x0F 4 { d with aux := { d.aux with spare := 15, spareOk := false } }))) ∧
  (∀ (buffer : Fin 16) v, does (.auxBufRdWrite buffer v) (fun d => isLive d = true) (auxBufRd buffer v)) ∧
  (∀ h (lane : Byte) (odr : W16) run, let l := lane.toNat
    sets (.auxLane h lane odr run) h 0x0710 (pk lane ++ pk odr ++ pk run)
    (fun _ => l ≤ 7 ∧ odr.toNat ∈ [10, 20, 50, 100, 200, 500, 1000, 2000, 4000] ∧ run.toNat ≤ 1) (fun d =>
      let e := auxSetLane l { auxLaneOf d l with odr := odr.toNat } d
      if run = 1 then (if (auxLaneOf d l).run = true then e else auxLaneStart l e) else auxLaneStop l e)) ∧
  (∀ h (lane : Byte) (entries : List W32), let l := lane.toNat
    sets (.auxSeq h lane entries) h 0x0711 (pk lane ++ leBytes 1 entries.length ++ words32 entries)
    (fun d => l ≤ 7 ∧ entries ≠ [] ∧ entries.length ≤ 16 ∧ (∀ e ∈ entries, auxEntryBad e = false) ∧ (auxLaneOf d l).run = false)
    (fun d => auxSetLane l { auxLaneOf d l with entries := entries.map auxEntry } d)) ∧
  (∀ h (lane trigger : Byte) (entries : List W32), let l := lane.toNat
    sets (.auxInjected h lane trigger entries) h 0x0712 (pk lane ++ leBytes 1 entries.length ++ pk trigger ++ words32 entries)
    (fun d => l ≤ 7 ∧ entries.length ≤ 4 ∧ (trigger = 0 ∨ (8 ≤ trigger.toNat ∧ trigger.toNat ≤ 15)) ∧
      (∀ e ∈ entries, auxEntryBad e = false) ∧ (auxLaneOf d l).run = false)
    (fun d => auxSetLane l { auxLaneOf d l with injected := entries.map auxEntry, trigger := trigger.toNat } d)) ∧
  (∀ h (buffer : Byte) (first len watermark : W16), let a := first.toNat
    let n := len.toNat
    sets (.auxBuffer h buffer first len watermark) h 0x0713 (pk buffer ++ pk first ++ pk len ++ pk watermark)
    (fun d => buffer.toNat ≤ 15 ∧ 16 ≤ n ∧ n ≤ 8192 ∧ a + n ≤ 8192 ∧
      (∀ e ∈ d.aux.bufs, e.1 ≠ buffer.toNat → e.2.first + e.2.len ≤ a ∨ a + n ≤ e.2.first) ∧
      (∀ e ∈ d.aux.lanes, e.2.run = true → ∀ y ∈ e.2.entries ++ e.2.injected, y.buffer ≠ buffer.toNat))
    (setAuxBuf buffer.toNat { first := a, len := n, watermark := watermark.toNat })) ∧
  (∀ h (p : W16), sets (.auxCal h 0xFF (some p)) h 0x0714 (pk (0xFF : Byte) ++ pk p) (fun _ => p.toNat ≤ 3600)
    (fun d => { d with aux := { d.aux with calPeriod := p.toNat, rotateOp := opNs d + p.toNat * secNs } })) ∧
  (∀ h (lane : Byte), let l := lane.toNat
    sets (.auxCal h lane none) h 0x0714 (pk lane) (fun d => l ≤ 7 ∧ (auxLaneOf d l).run = true) (fun d =>
      let x := auxLaneOf d l
      match x.work with
      | .regular i => auxBegin l .calibrating (auxSetLane l { x with next := i } d)
      | _ => auxSetLane l { x with pend := x.pend ++ [true] } d)) ∧
  (∀ h (lane : Byte), let l := lane.toNat
    reports (.auxStatus h lane) h 0x0715 (pk lane) (fun _ => l ≤ 7) (fun d =>
    let x := auxLaneOf d l
    let cur := if x.run = false then 255 else match x.work with | .regular i => i | .injected i => 64 + i | .calibrating => 128
    leBytes 1 (auxSliceOf d l) ++ leBytes 2 x.odr ++ leBytes 1 cur ++
      leBytes 1 (b2n (x.pend.contains false) + 2 * b2n (x.pend.contains true) + 4 * b2n x.takeover) ++
      ((List.range 16).map fun i => pk ((mget [] d.aux.coefs (auxSliceOf d l)).getD i 0)).flatten))

/-- Metering (chapter 14): interval ends and records, pulses, saves, the start-up test, and the MTR commands.
Rests in part on the model's own choices, log entries 6, 11, 23 and 32. -/
def Obligations.MeteringCommandsComplete : Prop :=
  (∀ (circuit : Fin 8) v b, let c : Nat := circuit.val
    does (.demandBoundary circuit)
    (fun d => let x := circOf d c
      engRuns d = true ∧ x.open_ = some v ∧ x.config.enable = true ∧ x.demand.launchOnly = false ∧ (x.gapDue = false ∨ unsetTime d = false) ∧
      nextBoundary x.demand (leapTable d) v.start.sec.toNat = some b)
    (fun d =>
      let e := bringTo d (b * secNs)
      let s := max b ((lastBoundary (circOf d c).demand (leapTable e) e.tod.sec.toNat).getD b)
      closeIv c (stampOfNs (b * secNs)) [] (some (openIv e (s * secNs))) e)) ∧
  (∀ (circuit : Fin 8) v stop rest, let c : Nat := circuit.val
    does (.intervalRecord circuit) (fun d => engRuns d = true ∧ (circOf d c).closing = (v, stop) :: rest ∧ intervalFormed d (circOf d c) v stop = true) (fun d =>
      let e := bump (setCirc c { circOf d c with closing := rest } d) 0x10 11
      let e := if bit (ivFlags v) 0 then bump e 0x10 12 else e
      let body := padTo 128 (ivEnergies v.energy)
      postRecord 8 (v.start.bytes ++ [0x10, BitVec.ofNat 8 c] ++ leBytes 2 (ivFlags v) ++ stop.bytes ++ leBytes 4 v.gaps ++ leBytes 4 v.noload)
        [body.take 64, body.drop 64] e)) ∧
  (∀ output : Fin 8, let p : Nat := output.val
    does (.pulseStart output)
    (fun d => let x := pulseOf d p
      engRuns d = true ∧ x.enabled = true ∧ x.owed ≠ 0 ∧ x.active = false ∧ d.mtr.frozen = false)
    (fun d =>
      let e := match (pulseOf d p).idleOp with
        | some o => waitUntil d (o + widthNs (pulseOf d p))
        | none => d
      let x := pulseOf e p
      showPulse p (bump (setPulse p { x with owed := x.owed - 1, active := true, endOp := opNs e + widthNs x } e) 0x10 9))) ∧
  (∀ output : Fin 8, let p : Nat := output.val
    does (.pulseEnd output) (fun d => engRuns d = true ∧ (pulseOf d p).active = true ∧ d.mtr.frozen = false)
    (fun d => let e := waitUntil d (pulseOf d p).endOp
      showPulse p (setPulse p { pulseOf e p with active := false, idleOp := some (opNs e) } e))) ∧
  does .meterSavePeriodic
    (fun d => engRuns d = true ∧ d.mtr.saving = none ∧ d.pwr.pfw = false ∧ d.pwr.seqRun = false ∧ fwTakes d = true)
    (fun d => let e := waitUntil d d.mtr.saveOp
      beginSave 0 { e with mtr := { e.mtr with saveOp := opNs e + e.mtr.savePeriod * secNs } }) ∧
  does .meterSaveDone (fun d => isLive d = true) endSave ∧
  (∀ t, does .meterStartupTestDone (fun d => engRuns d = true ∧ d.mtr.test = some t)
    (fun d => testDone t.circuit t.chan (waitUntil d t.endOp))) ∧
  (∀ h (p : MtrConfigP), sets (.mtrConfig h p) h 0x0720 p.bytes
    (fun _ => p.circuit.toNat ≤ 7 ∧ p.enable.toNat ≤ 1 ∧ p.conn.toNat ≤ 1 ∧ (p.fnom = 50 ∨ p.fnom = 60) ∧
      f32Between p.iN 0x3DCCCCCD 0x47C35000 = true ∧ f32Between p.uN 0x3F800000 0x49742400 = true ∧ f32Fin p.creep = true ∧
      f32Lt p.creep 0 = false ∧ f64Lt (f64Mul 0x3F3A36E2EB1C432D (f32To64 p.iN)) (f32To64 p.creep) = false)
    (setupMeter p)) ∧
  (∀ h (mask mode : Byte) (len : W16) utcAlign,
    sets (.mtrDemand h mask mode len utcAlign) h 0x0721 (pk mask ++ pk mode ++ pk len ++ pk utcAlign)
    (fun _ => mode.toNat ≤ 1 ∧ len.toNat ∈ [60, 120, 180, 240, 300, 360, 600, 720, 900, 1200, 1800, 3600] ∧ utcAlign.toNat ≤ 1)
    (setupDemand mask.toNat (mode = 1) len.toNat (utcAlign = 1))) ∧
  (∀ h (p : MtrPulseP), sets (.mtrPulse h p) h 0x0722 p.bytes
    (fun _ => p.output.toNat ≤ 7 ∧ p.circuit.toNat ≤ 7 ∧ p.reg.toNat ≤ 12 ∧ p.kp ≠ 0 ∧ p.width ≠ 0 ∧ p.width.toNat ≤ 1000 ∧
      p.drive.toNat ≤ 1 ∧ p.active.toNat ≤ 1 ∧ p.enable.toNat ≤ 1) (setupPulse p)) ∧
  (∀ h (period : W16), sets (.mtrSaveParams h period) h 0x0723 (pk period) (fun _ => period ≠ 0 ∧ period.toNat ≤ 3600)
    (fun d => { d with mtr := { d.mtr with savePeriod := period.toNat, saveOp := opNs d + period.toNat * secNs } })) ∧
  (∀ h, ends (.mtrSaveNow h) h 0x0724 [] false .ok (fun d => d.mtr.saving = none) (fun d => pk (beginSave 2 d).mtr.seq) (beginSave 2)) ∧
  (∀ h (circuit : Byte), reports (.mtrStatus h circuit) h 0x0725 (pk circuit) (fun _ => circuit.toNat ≤ 7) (fun d =>
    let x := circOf d circuit.toNat
    let v := x.open_.getD {}
    pk x.latest.p ++ pk x.latest.q ++ pk x.latest.p1 ++ pk x.latest.q1 ++ pk x.latest.s ++ pk x.ft ++ v.start.bytes ++ ivEnergies v.energy)) ∧
  (∀ h (circuit : Byte), begins (.mtrStartupTest h circuit) h 0x0726 (pk circuit) false
    (fun d => circuit.toNat ≤ 7 ∧ d.mtr.test = none ∧ (circOf d circuit.toNat).config.enable = true)
    (fun d => { d with mtr := { d.mtr with test := some { circuit := circuit.toNat, chan := h.chan, endOp := opNs d + 10 * secNs } } })) ∧
  (∀ h (mask : Byte), sets (.mtrClear h mask) h 0x0727 (pk mask) (fun d => d.tmp.presence = true) (clearMeters mask.toNat))

/-- Keys and tamper (chapter 15): key updates and attestation, scrubbing and re-masking, tamper and presence, life-cycle changes.
Rests in part on the model's own choices, log entries 1, 11 and 29. -/
def Obligations.KeyAndTamperCommandsComplete : Prop :=
  (∀ u, does .keyUpdateCommit (fun d => isLive d = true ∧ d.key.update = some u ∧ stalledIn d 4 = false) (fun d =>
    let e := commitOp u.msg u.key (takeCounter u.msg { d with key := { d.key with update := none } })
    let e := logEv 0x1701 (msgByte u.msg 5) (msgTarget u.msg) (msgCounter u.msg % 2 ^ 32) (keyCnt 0 e)
    match executingOn e u.chan with
    | some x => finishExec x .ok [] e
    | none => e)) ∧
  (∀ bad : List W16, does (.keySlotScrub bad) (fun d => isLive d = true ∧ d.key.vault = .ready ∧ stalledIn d 4 = false)
    (fun d => bad.foldl pipFails d)) ∧
  does .shareRemask (fun d => isLive d = true ∧ d.key.vault = .ready ∧ d.key.drbgDead = false ∧ stalledIn d 4 = false)
    (fun d => ((d.key.slots.filter fun e => !isPip e.1).map Prod.fst).foldl (fun d r => remask r d) d) ∧
  (∀ test : W32, does (.keyDrbgFault test) (fun d => isLive d = true ∧ d.key.drbgDead = false)
    (fun d => logEv 0x170A test.toNat 0 0 { d with key := { d.key with drbgDead := true } })) ∧
  (∀ sources : Byte, let act := fun d => sources.toNat.land (tamperArmed d)
    does (.tamperDetected sources) (fun d => act d ≠ 0 ∧ d.pwr.held = true) (fun d => tamperHeld (act d) (tamperContext d) d)) ∧
  (∀ sources : Byte, let act := fun d => sources.toNat.land (tamperArmed d)
    let zeroed := fun d => zeroizeLine (dropUpdate .aborted (latchTamper (act d) (tamperContext d) d))
    let logged := fun d => logTamper (act d) (tamperContext d) (zeroed d).tmp.last.toNat (zeroed d)
    does (.tamperDetected sources) (fun d => act d ≠ 0 ∧ d.pwr.held = false)
    (fun d => if (logged d).pwr.run = .starting then enterTampered (logged d) else logged d)) ∧
  does .presenceRecognised (fun _ => True) (fun d => { d with tmp := { d.tmp with presPin := true, presence := true } }) ∧
  does .presenceReleased (fun _ => True) (fun d => { d with tmp := { d.tmp with presPin := false, presence := false } }) ∧
  (∀ n, does .lcChangeComplete (fun d => isLive d = true ∧ d.key.changing = some n) (fun d =>
    let owner := if d.key.lc = .blank then d.key.newOwner else if n = .blank then [] else d.key.owner
    deviceReset 5 { d with
      key := { d.key with ks := some d.key.ksNext, ksNext := d.key.ksNext + 1, stored := [], storedKe := [], storedKs := none,
                          lc := n, changing := none, owner := owner, newOwner := [] }
      cmd := { d.cmd with store := [], storeSchema := 0, storePending := none }
      mtr := { d.mtr with saves := [] } })) ∧
  (∀ h, reports (.keyStatus h) h 0x0901 [] (fun _ => True)
    (fun d => leBytes 4 (keyStat d) ++ leBytes 8 d.key.ownerCtr.toNat ++ ownerHash d ++ leBytes 4 (tmpStat d))) ∧
  (∀ h (addr : W64) (len : W16) msg (s : State), let p := pk addr ++ pk len
    let m := cut msg 0 len.toNat
    let d := started h 0x0902 p s.dev
    passes h 0x0902 p true s.dev → d.key.update = none ∧ d.key.changing = none →
    exec (.keyUpdate h addr len msg true) s = .next { s with dev := settle (match msgChecks d m with
      | .inr k => { d with key := { d.key with update := some { chan := h.chan, seq := h.seq, msg := m, key := k } } }
      | .inl st => finish h 0x0902 p st [] (refuseUpdate m st d)) }) ∧
  (∀ h (slot : W16), reports (.keySlotStatus h slot) h 0x0903 (pk slot) (fun _ => refOk slot.toNat = true) (fun d =>
    match slotAt d slot.toNat with
    | some k => leBytes 1 (slotNum k.state) ++ leBytes 1 k.attr ++ leBytes 1 k.origin ++ pk k.parent ++ cut k.label 0 32 ++ pk k.wrap
    | none => List.replicate 45 0)) ∧
  (∀ h (slot : W16) nonce (addr : W64), let b := fun d => attestation d slot.toNat nonce
    ends (.keyAttest h slot nonce addr) h 0x0904 (pk slot ++ cut nonce 0 32 ++ pk addr) true .ok
    (fun d => refOk slot.toNat = true ∧ d.key.drbgDead = false ∧ d.key.identity = true) (fun _ => [])
    (fun d => hostWrite addr (b d ++ cut (Config.sign d.draws (Config.hash 384 (b d))) 0 96)
      (useDrbg (keyCnt 7 { d with draws := d.draws + 1 })))) ∧
  (∀ h (addr : W64) (len : W32) (s : State), let p := pk addr ++ pk len
    let d := started h 0x0905 p s.dev
    let b := beBytes 8 d.gbl.eui.toNat ++ cut (Config.identity ()).1 0 96 ++ (Config.identity ()).2
    passes h 0x0905 p true s.dev →
    exec (.keyIdentity h addr len) s = .next { s with dev := settle (if b.length ≤ len.toNat then finish h 0x0905 p .ok [] (hostWrite addr b d)
      else finish h 0x0905 p .badParam [] d) }) ∧
  (∀ h (count : Byte), ends (.keyRandom h count) h 0x0906 (pk count) false .ok
    (fun d => count ≠ 0 ∧ count.toNat ≤ 48 ∧ d.key.drbgDead = false)
    (fun d => (drbgBytes count.toNat (keyCnt 10 d)).1) (fun d => (drbgBytes count.toNat (keyCnt 10 d)).2)) ∧
  (∀ h (loops : List Byte) (internal : Byte), let en := tmpEnables loops internal
    let fs := tmpFilters loops
    sets (.tmpConfig h loops internal) h 0x0910 (cut loops 0 4 ++ pk internal)
    (fun d => (∀ x ∈ cut loops 0 4, loopBad x = false) ∧ internal &&& 0x8F = 0 ∧ (tmpWeakens d en fs = false ∨ d.tmp.presence = true))
    (fun d => logEv 0x1803 en.toNat ((List.range 4).foldl (fun n i => n + (fs.getD i 0).toNat * 4 ^ i) 0) 0
      { d with tmp := { d.tmp with enabled := en, filters := fs } })) ∧
  (∀ h, sets (.tmpClear h) h 0x0911 [] (fun d => d.tmp.presence = true)
    (fun d => logEv 0x1802 d.tmp.latch.toNat 0 0 { d with tmp := { d.tmp with latch := 0 } })) ∧
  (∀ h, reports (.tmpStatus h) h 0x0912 [] (fun _ => True)
    (fun d => leBytes 4 (tmpStat d) ++ pk d.tmp.count ++ pk d.tmp.last ++ leBytes 1 d.tmp.context))

/-- The loader's image store (chapter 16): an update begins, is written, is finished by its hash, and is reported.
Rests in part on the model's own choices, log entries 1 and 30. -/
def Obligations.ImageStoreCommandsComplete : Prop :=
  (∀ h (kind : Byte) (addr : W64) header readOk (s : State), let p := pk kind ++ pk addr
    let d := started h 0x0A01 p s.dev
    let b := fwSource d kind header 4096
    let x := imageHdrOf b
    passes h 0x0A01 p (kind = 0) s.dev → fwlBusy h d = false ∧ kind.toNat ≤ 1 ∧ (kind = 0 → readOk = true) ∧ imageHdrBad b = false ∧
      d.cmd.minSvn ≤ x.svn ∧ d.cmd.storeSchema ≤ x.schema ∧ x.minFawn ≤ d.cmd.fawnVersion →
    exec (.fwBegin h kind addr header readOk) s = .next { s with dev := settle (if x.sigOk = true then
        finish h 0x0A01 p .ok [] (logEv 0x1901 (versionWord x) x.build.toNat x.svn.toNat
          { d with cmd := { d.cmd with storedComplete := false, stored := x, updOpen := true, written := [] } })
      else finish h 0x0A01 p .authFail [] d) }) ∧
  (∀ h (offset len : W32) (kind : Byte) (addr : W64) data readOk, let o := offset.toNat
    let n := len.toNat
    ends (.fwWrite h offset len kind addr data readOk) h 0x0A02 (pk offset ++ pk len ++ pk kind ++ pk addr) (kind = 0) .ok
    (fun d => fwlBusy h d = false ∧ d.cmd.updOpen = true ∧ kind.toNat ≤ 1 ∧ o % 64 = 0 ∧ 64 ≤ n ∧ n ≤ 1048576 ∧ n % 64 = 0 ∧
      o + n ≤ d.cmd.stored.bodyLen ∧ (kind = 1 → n ≤ 65536) ∧ (kind = 0 → readOk = true)) (fun _ => [])
    (fun d => { d with cmd := { d.cmd with
      body := putUnits (o / 64) (chunksOf 64 (n / 64) (fwSource d kind data n)) d.cmd.body
      written := addUnits d.cmd.written (rangeFrom (o / 64) (n / 64)) } })) ∧
  (∀ h, ends (.fwFinish h) h 0x0A03 [] false .accepted
    (fun d => fwlBusy h d = false ∧ d.cmd.updOpen = true ∧ Config.hash 384 (bodyBytes d) = d.cmd.stored.bodyHash) (fun _ => [])
    (fun d => logEv 0x1902 (versionWord d.cmd.stored) d.cmd.stored.build.toNat 0
      { d with cmd := { d.cmd with storedComplete := true, bodyHashOk := true, updOpen := false } })) ∧
  (∀ h, reports (.fwStatus h) h 0x0A04 [] (fun _ => True) (fun d =>
    let x := runningImage d
    leBytes 4 (fwlStat d) ++ versionBytes x ++ versionBytes d.cmd.stored ++ pk x.schema ++ pk x.svn ++ pk d.cmd.minSvn ++ pk d.cmd.fawnVersion))

/-- Command queues and mailboxes (chapter 16): tails and heads move, entries are fetched, messages are posted, taken and answered.
Rests in part on the model's own choices, log entry 30. -/
def Obligations.QueueAndMailboxEventsComplete : Prop :=
  (∀ (pair : Fin 16) v, does (.cmdSqTailWrite pair v) (fun d => isLive d = true) (sqTailWrite pair v)) ∧
  (∀ (pair : Fin 16) v, does (.cmdCqHeadWrite pair v) (fun d => isLive d = true) (cqHeadWrite pair v)) ∧
  (∀ (pair : Fin 16) v, does (.cmdQueueEnable pair v) (fun d => isLive d = true) (queueEnable pair v)) ∧
  (∀ (pair : Fin 16) v, does (.cmdQueueDisable pair v) (fun d => isLive d = true) (queueDisable pair v)) ∧
  (∀ (pair : Fin 16) packet, let n : Nat := pair.val
    let seq := packetSeq packet
    let with_ := fun (d : Dev) bad => let q := pairOf d n
      setPair d n { q with
        sqHead := (q.sqHead + 1) % sqSize q, seqFixed := true, seqNext := seq + 1
        fetched := q.fetched ++ [{ packet := cut packet 0 64, bad := bad }] }
    does (.cmdFetch pair packet)
    (fun d => let q := pairOf d n
      isLive d = true ∧ q.en = true ∧ q.stopped = false ∧ q.sqHead ≠ q.sqTail ∧ q.fetched.length < 992 ∧ d.gbl.linkUp = true ∧
      (funcOf d (8 ≤ n)).d3hot = false ∧ stalledIn d 4 = false)
    (fun d => let q := pairOf d n
      refuseWaiting (if q.seqFixed = true ∧ seq ≠ q.seqNext then seqError n q.seqNext seq (with_ d (some q.seqNext)) else with_ d none))) ∧
  (∀ path (mbx word : Fin 16) v, let m : Nat := mbx.val
    does (.mbxDataWrite path mbx word v)
    (fun d => pathOpen d path = true ∧ mbxReach path m = true ∧ mbxIn m = true ∧ (mboxOf d m).full = false)
    (fun d => accessOk path (setMbox d m { mboxOf d m with data := mput 0 (mboxOf d m).data word v }))) ∧
  (∀ path (mbx : Fin 16), let m : Nat := mbx.val
    does (.mbxPost path mbx) (fun d => pathOpen d path = true ∧ mbxReach path m = true ∧ mbxIn m = true ∧ (mboxOf d m).full = false)
    (fun d => accessOk path (mbxCnt 0 (setMbox d m { mboxOf d m with
      full := true, path := BitVec.ofNat 3 (pathNum path), sepoch := d.cmd.epochs.getD (epochIdx path) 0, window := path, stalled := false,
      abort := false, fullOp := opNs d })))) ∧
  (∀ path (mbx : Fin 16), let m : Nat := mbx.val
    does (.mbxTake path mbx) (fun d => pathOpen d path = true ∧ mbxReach path m = true ∧ mbxIn m = false ∧ (mboxOf d m).full = true)
    (fun d => accessOk path (mbxCnt 2 (setMbox d m { mboxOf d m with full := false, stalled := false })))) ∧
  (∀ mbx : Fin 16, let m : Nat := mbx.val
    does (.mailboxTaken mbx)
    (fun d => isLive d = true ∧ mbxIn m = true ∧ (mboxOf d m).full = true ∧ (mboxOf d m).taken = none ∧ (mboxOf d (m + 4)).replies = [] ∧
      mbxServed d m = true)
    (fun d => let x := mboxOf d m
      refuseWaiting (mbxNotice m (setMbox d m { x with
        full := false, emptyEv := true, stalled := false, abort := false
        taken := some { path := x.window, packet := mboxPacket x, abort := x.abort } })))) ∧
  (∀ (mbx : Fin 16) b rest, let m : Nat := mbx.val
    does (.mailboxReplyPost mbx)
    (fun d => isLive d = true ∧ mbxIn m = false ∧ (mboxOf d m).replies = b :: rest ∧ (mboxOf d m).full = false ∧ softRuns d = true)
    (fun d => mbxNotice m (mbxCnt 1 (setMbox d m { mboxOf d m with
      data := entryWords b, full := true, path := 3, sepoch := d.cmd.epochs.getD 3 0, msgEv := true, stalled := false, replies := rest,
      fullOp := opNs d })))) ∧
  (∀ mbx : Fin 16, let m : Nat := mbx.val
    does (.mailboxStall mbx) (fun d => isLive d = true ∧ (mboxOf d m).full = true ∧ (mboxOf d m).stalled = false)
    (fun d => let x := mboxOf d m
      mbxNotice m (logEv 0x0301 m x.path.toNat 0
        (mbxCnt 4 (setMbox (waitUntil d (x.fullOp + 10000000)) m { x with stall := true, stalled := true })))))

/-- System commands (chapter 16): identity, aborts, resets, the configuration store and its replay, restarts, and the event log's commands
(chapter 17).
Rests in part on the model's own choices, log entries 6, 11, 28, 30 and 33. -/
def Obligations.SystemAndLogCommandsComplete : Prop :=
  does .fwWatchdog (fun d => isLive d = true ∧ d.cmd.fwUp = true ∧ d.cmd.fwRestarting = false ∧
      (d.cmd.watchdogs.filter fun t => optSince d t ≤ 60000).length < 2)
    (fun d => fwRestart 0 (opNow d) { d with cmd := { d.cmd with
      watchdogs := d.log.opt :: d.cmd.watchdogs.filter fun t => optSince d t ≤ 60000 } }) ∧
  does .fwWatchdog (fun d => isLive d = true ∧ d.cmd.fwUp = true ∧ d.cmd.fwRestarting = false ∧
      2 ≤ (d.cmd.watchdogs.filter fun t => optSince d t ≤ 60000).length)
    (fun d => deviceReset 4 (depart 2 (logEv 0x1906 2 (opNow d) 0 d))) ∧
  (∀ (b : StoredBatch) e, does .cfgReplayBatch
    (fun d => let r := d.cmd.replay
      isLive d = true ∧ r.running = true ∧ d.clk.pending = none ∧ d.clk.retiring = none ∧ softRuns d = true ∧
      d.cmd.store[r.next]? = some b ∧ replayTakes d b = true ∧ b.packets.length ≤ r.packet ∧
      genSwitch b.targetGen (BitVec.ofNat 48 (replayTick d / 3600)) (replayTick d % 3600) d = (e, some (.ok, [])))
    (fun d => { e with cmd := { e.cmd with replay := { d.cmd.replay with next := d.cmd.replay.next + 1, packet := 0 } } })) ∧
  does .cfgReplayBatch
    (fun d => let r := d.cmd.replay
      isLive d = true ∧ r.running = true ∧ d.clk.pending = none ∧ d.clk.retiring = none ∧ softRuns d = true ∧ d.cmd.store[r.next]? = none)
    (fun d => logEv 0x1907 d.cmd.replay.next d.clk.gen.toNat 0
      { d with cmd := { d.cmd with replay := { d.cmd.replay with running := false, result := 1 } } }) ∧
  (∀ b e, let kept := fun (d : Dev) => { d with cmd := { d.cmd with store := d.cmd.store ++ [b], storePending := none } }
    does .cfgStoreCommit
    (fun d => isLive d = true ∧ d.cmd.storePending = some b ∧ softRuns d = true ∧ ((kept d).cmd.executing.find? fun e => e.op == 0x0105) = some e)
    (fun d => finishExec e .ok [] (kept d))) ∧
  (∀ t, does .sysResetDelayExpiry (fun d => isLive d = true ∧ d.pwr.resetDelay = some t) (fun d => deviceReset 3 (depart 2 (waitUntil d t)))) ∧
  does .memoryTestError (fun d => isLive d = true) (fun d => autoSwitch 2 { d with hrd := { d.hrd with memFail := true } }) ∧
  (∀ h, reports (.sysIdentify h) h 0x0101 [] (fun _ => True) (fun d =>
    let x := runningImage d
    pk d.gbl.eui ++ leBytes 2 0x6400 ++ [1] ++ versionBytes x ++ pk x.schema ++ pk x.svn ++ pk d.cmd.fawnVersion ++ leBytes 1 (lcNum d.key.lc) ++
      leBytes 1 (b2n d.cmd.loader))) ∧
  (∀ h (chan : Byte) (seq : W32), let n := chan.toNat
    sets (.cmdAbort h chan seq) h 0x0102 (pk chan ++ pk seq)
    (fun d => n ≤ 23 ∧ (secureChan n = true → secureChan h.chan = true) ∧ waitsOn (cmdCnt 4 d) n seq = true)
    (fun d => markAbort n seq (cmdCnt 4 d))) ∧
  (∀ h (chan : Byte) (seq : W32) e, let n := chan.toNat
    sets (.cmdAbort h chan seq) h 0x0102 (pk chan ++ pk seq)
    (fun d => let c := cmdCnt 4 d
      n ≤ 23 ∧ (secureChan n = true → secureChan h.chan = true) ∧ waitsOn c n seq = false ∧ executingOn c n = some e ∧
      e.hdr.seq = seq ∧ n ≠ h.chan ∧ e.abortable = true ∧ workOn c n e = true ∧ (c.key.update.any fun u => u.chan == n) = false)
    (fun d => finishExec e .aborted [] (dropWork n e (cmdCnt 4 d)))) ∧
  (∀ h (chan : Byte) (seq : W32) e, let n := chan.toNat
    sets (.cmdAbort h chan seq) h 0x0102 (pk chan ++ pk seq)
    (fun d => let c := cmdCnt 4 d
      n ≤ 23 ∧ (secureChan n = true → secureChan h.chan = true) ∧ waitsOn c n seq = false ∧ executingOn c n = some e ∧
      e.hdr.seq = seq ∧ n ≠ h.chan ∧ e.abortable = true ∧ (c.key.update.any fun u => u.chan == n) = true)
    (fun d => dropUpdate .aborted (cmdCnt 4 d))) ∧
  (∀ h (chan : Byte) (seq : W32) e, let n := chan.toNat
    begins (.cmdAbort h chan seq) h 0x0102 (pk chan ++ pk seq) false
    (fun d => let c := cmdCnt 4 d
      n ≤ 23 ∧ (secureChan n = true → secureChan h.chan = true) ∧ waitsOn c n seq = false ∧ executingOn c n = some e ∧
      e.hdr.seq = seq ∧ n ≠ h.chan ∧ (e.abortable = false ∨ workOn c n e = false))
    (fun d => let c := cmdCnt 4 d
      { c with cmd := { c.cmd with aborts := c.cmd.aborts ++ [{ chan := h.chan, target := n, seq := seq }] } })) ∧
  (∀ h data, reports (.sysNop h data) h 0x0103 data (fun _ => data.length ≤ 48) (fun _ => data)) ∧
  (∀ h (delay : W32), sets (.sysReset h delay) h 0x0104 (pk delay) (fun _ => delay.toNat ≤ 1000)
    (fun d => { d with pwr := { d.pwr with resetDelay := some (opNs d + delay.toNat * 1000000) } })) ∧
  (∀ h (addr : W64) (len : W32) (kind : Byte) batch given, let b := cut given 0 len.toNat
    let x : StoredBatch := { image := b }
    begins (.cfgStoreWrite h addr len kind batch true) h 0x0105 (pk addr ++ pk len ++ pk kind) (kind = 0)
    (fun d => ((kind = 0 ∧ given = batch) ∨ (kind = 1 ∧ h.chan = 24 ∧ replaySection d addr.toNat = some given)) ∧
      d.cmd.storePending = none ∧ batchBad x = false ∧ x.schema = (runningImage d).schema ∧
      x.baseGen = storeBase d ∧ storeUsed d + b.length ≤ storeMax)
    (fun d => { d with cmd := { d.cmd with storePending := some x } })) ∧
  (∀ h, sets (.cfgStoreClear h) h 0x0106 [] (fun d => d.cmd.storePending = none)
    (fun d => { d with cmd := { d.cmd with store := [], storeSchema := (runningImage d).schema } })) ∧
  (∀ h, reports (.cfgStoreStatus h) h 0x0107 [] (fun _ => True)
    (fun d => leBytes 4 d.cmd.store.length ++ leBytes 4 (storeUsed d) ++ pk d.cmd.storeSchema ++ leBytes 1 d.cmd.replay.result)) ∧
  (∀ h (s : State), passes h 0x0108 [] false s.dev →
    let d := started h 0x0108 [] s.dev
    exec (.sysFwRestart h) s =
      .next { s with dev := settle (fwRestart 1 0x0108 (finish h 0x0108 [] .ok [] { d with cmd := { d.cmd with restartDue := true } })) }) ∧
  does .logFlushRun (fun d => isLive d = true ∧ (d.log.flushFault = true ∨ d.log.flushHalf = true) ∧ softRuns d = true) (flushLog false) ∧
  (∀ h (hostMin mramMin : Byte), sets (.logConfig h hostMin mramMin) h 0x0B01 (pk hostMin ++ pk mramMin)
    (fun _ => hostMin.toNat ≤ 5 ∧ mramMin.toNat ≤ 3)
    (fun d => { d with log := { d.log with hostMin := hostMin.toNat, mramMin := mramMin.toNat } })) ∧
  (∀ h (src : W32) (fromOpt : W64) (count : W32) (buffered : Byte) (addr : W64),
    reports (.logRead h src fromOpt count buffered 1 addr) h 0x0B02 (pk src ++ pk fromOpt ++ pk count ++ pk buffered ++ pk (1 : Byte) ++ pk addr)
    (fun _ => src.toNat < 2 ^ 24 ∧ fromOpt.toNat < 2 ^ 40 ∧ count ≠ 0 ∧ buffered.toNat ≤ 1)
    (fun d => recPlace (oldestRec d.log.mram) ++ recPlace (newestRec d.log.mram) ++
      ((readFrom d fromOpt.toNat src.toNat (buffered = 1) (min count.toNat 22)).map LogRec.bytes).flatten)) ∧
  (∀ h (src : W32) (fromOpt : W64) (count : W32) (buffered : Byte) (addr : W64),
    let l := fun d => readFrom d fromOpt.toNat src.toNat (buffered = 1) count.toNat
    ends (.logRead h src fromOpt count buffered 0 addr) h 0x0B02
      (pk src ++ pk fromOpt ++ pk count ++ pk buffered ++ pk (0 : Byte) ++ pk addr) true .ok
    (fun _ => src.toNat < 2 ^ 24 ∧ fromOpt.toNat < 2 ^ 40 ∧ count ≠ 0 ∧ buffered.toNat ≤ 1)
    (fun d => recPlace (oldestRec d.log.mram) ++ recPlace (newestRec d.log.mram) ++ leBytes 4 (l d).length ++ recPlace (l d).getLast? ++ [0])
    (fun d => hostWrite addr ((l d).map LogRec.bytes).flatten d)) ∧
  (∀ h, reports (.logStatus h) h 0x0B03 [] (fun _ => True) (fun d =>
    leBytes 4 (logStat d) ++ ((List.range 6).map fun s => leBytes 4 (logStored d s)).flatten ++
      leBytes 6 (mget (0 : W48) d.cnt (cntKey 0x13 0 3)).toNat ++ recPlace (oldestRec d.log.mram) ++ recPlace (newestRec d.log.mram))) ∧
  (∀ h (maxSev : Byte), let gone := fun d => (flushLog false d).log.mram.filter fun r => sevNum r.sev ≤ maxSev.toNat
    ends (.logClear h maxSev) h 0x0B04 (pk maxSev) false .ok (fun d => d.tmp.presence = true ∧ maxSev.toNat ≤ 5)
    (fun d => leBytes 4 (gone d).length) (fun d =>
      let e := flushLog false d
      let e := setFlag 0x13 4 (bump { e with log := { e.log with mram := e.log.mram.filter fun r => maxSev.toNat < sevNum r.sev } } 0x13 12)
      logEv 0x1302 maxSev.toNat (gone d).length (((newestRec (gone d)).map fun r => r.seq.toNat).getD 0) e)) ∧
  (∀ h (code : W16) (sev : Byte) (p1 p2 p3 : W32),
    sets (.logWrite h code sev p1 p2 p3) h 0x0B05 (pk code ++ pk sev ++ pk p1 ++ pk p2 ++ pk p3)
    (fun _ => 0xF000 ≤ code.toNat ∧ sev.toNat ≤ 4)
    (fun d => logFull 0xFF code.toNat (sevOf sev.toNat) p1.toNat p2.toNat p3.toNat false (bump d 0x13 13))) ∧
  (∀ h, sets (.logFlush h) h 0x0B06 [] (fun _ => True) (flushLog false))

/-- Paired operation (chapter 18), what the pair does: heartbeats, the loss of the peer, roles, the hand-over, and the Herd lane.
Rests in part on the model's own choices, log entries 1, 6 and 26. -/
def Obligations.PairEventsComplete : Prop :=
  (∀ (b : Heartbeat) k, let e := fun (d : Dev) => { d with hrd := { d.hrd with actIn := b.actIn } }
    does (.heartbeatRx b) (fun d => isLive d = true ∧ b.sideband = true ∧ heartTick (e d) = some k ∧ (d.hrd.hbAt.any (k ≤ ·)) = false)
    (fun d => heardAt k (degraded (hrdCnt 2 (e d))))) ∧
  (∀ b : Heartbeat, let e := fun (d : Dev) => { d with hrd := { d.hrd with actIn := b.actIn } }
    does (.heartbeatRx b) (fun d => isLive d = true ∧ b.sideband = false)
    (fun d => if b.crcOk = false then degraded (hrdCnt 3 (e d)) else if b.pairId ≠ d.hrd.pairId then hrdCnt 15 (e d) else heartCell b (e d))) ∧
  (let t := wheelOrd
   let lost := fun (d : Dev) =>
    let e := bringTo d (ordNs (t d) + 2000)
    let e := { e with hrd := { e.hrd with
      hb := false, hbRun := 0, offset := 0, outage := some 2, lostSent := lastFits e.hrd.sentFit (t d), lostPeer := lastFits e.hrd.peerFit (t d) } }
    let e := withdrawSwitch (refGone 4 (logEv 0x1402 (roleCode e.hrd.role) (logSec e e.tod.sec) 0 (setFlag 0x14 1 (hrdCnt 4 e))))
    if e.hrd.role = .standby then noteExit 2 e else e
   does .hbLost
    (fun d => isLive d = true ∧ d.hrd.hb = true ∧ tickHeard d (t d) = false ∧ tickHeard d (t d - 1) = false ∧ (d.hrd.hbAt.any (t d < ·)) = false)
    (fun d => let e := lost d
      if peerBit e 19 = true ∨ e.hrd.role = .unpaired ∨ e.hrd.role = .fenced then e
      else hrdCnt 5 { e with hrd := { e.hrd with witnessDue := some (t d + 3), peerSeen := false, peerSeenOn := 0 } })) ∧
  (∀ actLow t, let dec := fun (d : Dev) =>
      let e := bringTo d (ordNs t)
      let byPin := !e.hrd.peerSeen && actLow && !actDriven e
      let e := { e with hrd := { e.hrd with
        actIn := actLow, witnessDue := none, peerSeen := e.hrd.peerSeen || byPin, peerSeenOn := if byPin then 0xF else e.hrd.peerSeenOn } }
      (e.hrd.peerSeen, logEv 0x1404 (b2n e.hrd.peerSeen) e.hrd.peerSeenOn 0 e)
    does (.witnessDecision actLow) (fun d => isLive d = true ∧ d.hrd.witnessDue = some t)
    (fun d => let e := (dec d).2
      if (dec d).1 = true then hrdCnt 6 { e with hrd := { e.hrd with isolated := true } } else unseen e)) ∧
  (∀ health, does (.goingDownRx health) (fun d => isLive d = true) (fun d =>
    let e := withdrawSwitch { d with hrd := { d.hrd with peerHealth := health } }
    if e.hrd.role = .standby then
      let k := firstTickFrom (nowNs e + 2000)
      noteExit 1 { e with hrd := { e.hrd with takeAt := some (BitVec.ofNat 48 (k / 3600), k % 3600) } }
    else e)) ∧
  does .pairingDecision
    (fun d => isLive d = true ∧ d.hrd.role = .pairing ∧ d.hrd.peerRole = .pairing ∧ d.hrd.hb = true ∧ 8 ≤ d.hrd.hbRun ∧ d.hrd.roleDue = none ∧
      d.pwr.straps.priority ≠ d.hrd.peerPriority)
    (fun d => takeRole (if d.pwr.straps.priority then .active else .standby) 0 (bringTo d (ordNs (d.hrd.hbAt.getD 0 + 9 - d.hrd.hbRun)))) ∧
  does .pairingDecision
    (fun d => isLive d = true ∧ d.hrd.role = .pairing ∧ d.hrd.peerRole = .pairing ∧ d.hrd.hb = true ∧ 8 ≤ d.hrd.hbRun ∧ d.hrd.roleDue = none ∧
      d.pwr.straps.priority = d.hrd.peerPriority)
    (fun d => logEv 0x140B (b2n d.pwr.straps.priority) 0 0 (bringTo d (ordNs (d.hrd.hbAt.getD 0 + 9 - d.hrd.hbRun)))) ∧
  (∀ t, let e := fun (d : Dev) => waitUntil { d with hrd := { d.hrd with pairWaitOp := none } } t
    does .pairWaitExpiry
    (fun d => isLive d = true ∧ d.hrd.role = .pairing ∧ d.hrd.peerHeard = false ∧ d.hrd.hb = false ∧ d.hrd.pairWaitOp = some t)
    (fun d => if d.pwr.straps.priority then takeRole .active 0 (e d) else logEv 0x1409 d.hrd.pairWait 0 0 (e d))) ∧
  (∀ s, let t := fun d => bringTo d (ordNs (tickOrd s.sec s.tick - 1))
    does .switchoverFreeze
    (fun d => isLive d = true ∧ d.hrd.switch = some s ∧ s.taker = false ∧ d.hrd.role = .active ∧ d.hrd.frozen = none)
    (fun d => if s.acked = true then setFrozen (some (levelsNow (t d))) (t d) else logEv 0x1406 s.tick 0 0 (withdrawSwitch (t d)))) ∧
  (∀ s, does .switchoverHandover (fun d => isLive d = true ∧ d.hrd.switch = some s ∧ s.taker = true ∧ d.hrd.role = .standby) (fun d =>
    let e := bringTo d (tickInst s.sec s.tick)
    takeOver (if s.auto then 2 else 1) false (hrdCnt 8 { e with hrd := { e.hrd with switch := none } }))) ∧
  (∀ s, does .switchoverHandover
    (fun d => isLive d = true ∧ d.hrd.switch = some s ∧ s.taker = false ∧ d.hrd.role = .active ∧ d.hrd.frozen.isSome = true) (fun d =>
    let e := bringTo d (tickInst s.sec s.tick)
    setRole .standby (if s.auto then 2 else 1) (hrdCnt 8 { e with hrd := { e.hrd with switch := none, timeOutsDue := true } }))) ∧
  (∀ (c : XchkCell) x, does (.xchkCellRx c)
    (fun d => isLive d = true ∧ d.hrd.role = .standby ∧ (d.hrd.xrecords.find? fun x =>
        x.ostream = c.ostream.toNat && x.sec == c.sec && x.tick = c.tick.toNat && x.amend = c.amend.toNat) = some x ∧
      x.complete = true ∧ c.complete = true ∧ x.absent = c.absent)
    (fun d => if x.crc = c.crc then hrdCnt 12 d
      else tally tallyXchk 0 1 x.ostream (setFlag 0x14 6 (hrdCnt 13 { d with hrd := { d.hrd with xchkAt := some d.log.opt } })))) ∧
  does .herdLaneUp (fun d => isLive d = true) (fun d => { d with hrd := { d.hrd with lane := .up } }) ∧
  does .herdLaneDown (fun d => isLive d = true) herdFails ∧
  (∀ entries : List StateEntry, does (.herdStateCellRx entries) (fun d => isLive d = true) (fun d => { d with hrd := { d.hrd with
    mirror := entries.foldl (fun m e => mset m e.template.toNat (e.stNum, e.sqNum)) d.hrd.mirror } })) ∧
  (∀ (origin : Fin 4) packet, does (.forwardedCommandRx origin packet) (fun d => isLive d = true)
    (fun d => refuseWaiting { d with hrd := { d.hrd with arrived := d.hrd.arrived ++ [(25 + origin.val, cut packet 0 64)] } })) ∧
  (∀ (chan : Fin 24) f, does (.forwardTimeout chan)
    (fun d => isLive d = true ∧ (d.hrd.forwarded.find? fun f => f.hdr.chan == chan.val && f.there.isNone) = some f)
    (fun d => forwardLost f (waitUntil d (f.sentOp + 1010000000)))) ∧
  (∀ (chan : Fin 24) (status : W16) order reply f, does (.forwardedCommandReply chan status order reply)
    (fun d => isLive d = true ∧ (d.hrd.forwarded.find? fun f => f.hdr.chan == chan.val && f.there.isNone) = some f ∧ f.hdr.target = 1)
    (fun d => endForward f (statusOf status.toNat) reply
      { d with hrd := { d.hrd with peerStatus := mset d.hrd.peerStatus chan (status, order) } })) ∧
  (∀ (chan : Fin 24) (status : W16) order reply f x, does (.forwardedCommandReply chan status order reply)
    (fun d => isLive d = true ∧ (d.hrd.forwarded.find? fun f => f.hdr.chan == chan.val && f.there.isNone) = some f ∧ f.hdr.target ≠ 1 ∧
      f.peerFirst = false ∧ f.here = some x)
    (fun d => bothDone f x status { d with hrd := { d.hrd with peerStatus := mset d.hrd.peerStatus chan (status, order) } })) ∧
  (∀ (chan : Fin 24) (status : W16) order reply f, does (.forwardedCommandReply chan status order reply)
    (fun d => isLive d = true ∧ (d.hrd.forwarded.find? fun f => f.hdr.chan == chan.val && f.there.isNone) = some f ∧ f.hdr.target ≠ 1 ∧
      f.peerFirst = false ∧ f.here = none)
    (fun d => { d with hrd := { d.hrd with
      peerStatus := mset d.hrd.peerStatus chan (status, order)
      forwarded := d.hrd.forwarded.map fun g => if g.hdr.chan = chan.val then { g with there := some (status, reply) } else g } })) ∧
  (∀ (chan : Fin 24) (status : W16) order reply f, does (.forwardedCommandReply chan status order reply)
    (fun d => isLive d = true ∧ (d.hrd.forwarded.find? fun f => f.hdr.chan == chan.val && f.there.isNone) = some f ∧ f.hdr.target ≠ 1 ∧
      f.peerFirst = true)
    (fun d =>
      let e := { d with hrd := { d.hrd with peerStatus := mset d.hrd.peerStatus chan (status, order) } }
      if status = 0 then applyAfterPeer f e else endForward f (statusOf status.toNat) reply e))

/-- Paired operation (chapter 18): the HRD commands configure the pair, report it, plan and withdraw a switch-over, and change roles.
Rests in part on the model's own choices, log entries 11 and 26. -/
def Obligations.PairCommandsComplete : Prop :=
  (∀ h (p : HrdConfigP), let f := fun (d : Dev) => { d with hrd := { d.hrd with
      enabled := decide (p.enable = 1), pairId := p.pairId, witnessMask := BitVec.ofNat 12 p.mask.toNat, pairWait := p.pairWait.toNat,
      timeOutStandby := p.timeOut = 1, auto := BitVec.ofNat 4 p.auto.toNat, asym := signed 48 p.asym.toNat } }
    sets (.hrdConfig h p) h 0x0C01 p.bytes
    (fun d => hrdConfigBad p = false ∧ (d.hrd.role = .unpaired ∨ d.hrd.role = .pairing))
    (fun d => if p.enable = 1 ∧ d.hrd.role = .unpaired then enterPairing 5 (f d)
      else if p.enable ≠ 1 ∧ d.hrd.role = .pairing then showAll (setRole .unpaired 5 (f d)) else f d)) ∧
  (∀ h, reports (.hrdStatus h) h 0x0C02 [] (fun _ => True) (fun d =>
    leBytes 4 (hrdStat d) ++ pk d.hrd.health ++ pk d.hrd.peerHealth ++ pk d.hrd.digest ++ pk d.hrd.peerDigest ++ pk d.hrd.offset ++
      ((List.range 24).map fun c => pk (mget (0, 0) d.hrd.peerStatus c).1 ++ pk (mget (0, 0) d.hrd.peerStatus c).2).flatten)) ∧
  (∀ h (sec : W48) (tick : W16), let t := tick.toNat
    ends (.hrdSwitchover h sec tick) h 0x0C03 (pk sec ++ pk tick) false .accepted
    (fun d => d.hrd.role = .active ∧ peerBit d 27 = true ∧ t ≤ 3599 ∧ 9 * nowNs d + 5000000 ≤ 9 * tickInst sec t ∧ d.hrd.switch = none)
    (fun _ => []) (planSwitch sec t false)) ∧
  (∀ h s, sets (.hrdCancel h) h 0x0C04 []
    (fun d => d.hrd.switch = some s ∧ s.taker = false ∧ nowNs d < ordNs (tickOrd s.sec s.tick - 1)) withdrawSwitch) ∧
  (∀ h, sets (.hrdUnfence h 0) h 0x0C05 (pk (0 : Byte)) (fun d => d.hrd.role = .fenced ∧ d.hrd.hb = true)
    (fun d => setRole .standby 5 { d with hrd := { d.hrd with departed := false, departCause := 0 } })) ∧
  (∀ h, sets (.hrdUnfence h 1) h 0x0C05 (pk (1 : Byte)) (fun d => d.hrd.role = .fenced ∨ d.hrd.role = .pairing)
    (fun d => becomeActive 5 (logEv 0x140C (roleCode d.hrd.role) 0 0 d))) ∧
  (∀ h, sets (.hrdUnpair h) h 0x0C06 [] (fun d => d.hrd.role ≠ .standby)
    (fun d => if d.hrd.role = .unpaired then d else showAll (setRole .unpaired 5 (goingDown 6 (withdrawSwitch d))))) ∧
  (∀ h, sets (.hrdDigestReset h) h 0x0C07 [] (fun _ => h.target ≠ 2) (fun d => { d with hrd := { d.hrd with digest := 0 } })) ∧
  (∀ h, sets (.hrdDigestReset h) h 0x0C07 [] (fun _ => h.target = 2)
    (fun d => { d with hrd := { d.hrd with digest := 0, mirrorHeld := false } }))

/-- The host interfaces (chapter 19): register accesses, the end of interrupt, and what PCIe and the local bus do.
Rests in part on the model's own choices, log entries 5 and 31. -/
def Obligations.HostInterfaceCommandsComplete : Prop :=
  (∀ path (addr v : W32) enables, let a := addr.toNat / 4 * 4
    does (.registerWrite path addr v enables)
    (fun d => pathOpen d path = true ∧ isMapped path a = true ∧ (isLb path = true ∨ enables = 15) ∧ mbxAt path a = none ∧
      (isLb path = true → pcieOnly a = false))
    (fun d => accessOk path (if isSecure path then writePf1 path a v.toNat d else writePf0 path a v.toNat d))) ∧
  (∀ path (addr v : W32) enables m, let a := addr.toNat / 4 * 4
    does (.registerWrite path addr v enables)
    (fun d => pathOpen d path = true ∧ isMapped path a = true ∧ (isLb path = true ∨ enables = 15) ∧ mbxAt path a = some m)
    (writeMbx path m (a % 0x100) v.toNat)) ∧
  (∀ path (addr : W32), let a := addr.toNat / 4 * 4
    does (.rcRegisterRead path addr)
    (fun d => pathOpen d path = true ∧ isMapped path a = true ∧ lowRead path a d = none ∧ isHighWord d path a = false)
    (fun d => accessOk path (keepHalf path (readAs (wordAt d path a) (clearRc path a d))))) ∧
  (∀ path (addr : W32) e, let a := addr.toNat / 4 * 4
    does (.multiwordLowRead path addr) (fun d => pathOpen d path = true ∧ isMapped path a = true ∧ lowRead path a d = some e)
    (fun _ => accessOk path (keepHalf path e))) ∧
  (∀ secure addr half, let path : Path := if secure then .lbs else .lb
    does (.lbHalfWrite secure addr false half) (fun d => d.pwr.straps.lbWidth = true ∧ pathOpen d path = true)
    (fun d => accessOk path { d with gbl := { d.gbl with lbHeld := some half } })) ∧
  (∀ secure (addr : W32) (half : W16), let path : Path := if secure then .lbs else .lb
    does (.lbHalfWrite secure addr true half) (fun d => d.pwr.straps.lbWidth = true ∧ pathOpen d path = true)
    (fun d => writeWord path (addr.toNat / 4 * 4) (half.toNat * 65536 + (d.gbl.lbHeld.getD 0).toNat)
      { d with gbl := { d.gbl with lbHeld := none } })) ∧
  (∀ path (v : W32), does (.gblIntEoiWrite path v) (fun d => pathOpen d path = true) (fun d => accessOk path (intEoi path v.toNat d))) ∧
  (∀ pf1, does (.pcieTlpError pf1 .unsupported) (fun d => isLive d = true ∧ d.gbl.linkUp = true) (pcieError pf1 1 false)) ∧
  (∀ pf1, does (.pcieTlpError pf1 .malformed) (fun d => isLive d = true ∧ d.gbl.linkUp = true) (pcieError pf1 4 true)) ∧
  (∀ pf1, does (.pcieTlpError pf1 .poisonedWrite) (fun d => isLive d = true ∧ d.gbl.linkUp = true) (pcieError pf1 2 false)) ∧
  (∀ pf1, does (.pcieTlpError pf1 .poisonedCompletion) (fun d => isLive d = true ∧ d.gbl.linkUp = true) (pcieError pf1 3 false)) ∧
  (∀ pf1, does (.pcieTlpError pf1 .completionTimeout) (fun d => isLive d = true ∧ d.gbl.linkUp = true) (pcieError pf1 3 false)) ∧
  (∀ pf1, does (.pcieTlpError pf1 .longRead) (fun d => isLive d = true ∧ d.gbl.linkUp = true) (pcieError pf1 0 false)) ∧
  (∀ pf1, does (.pcieTlpError pf1 .unexpectedCompletion) (fun d => isLive d = true ∧ d.gbl.linkUp = true) (pcieError pf1 7 false)) ∧
  (∀ pf1, does (.pcieTlpError pf1 .correctable) (fun d => isLive d = true ∧ d.gbl.linkUp = true) (fun d =>
    setFlag 0 4 (gblCnt 2 (setFunc d pf1 { funcOf d pf1 with aer := (8, false) :: (funcOf d pf1).aer })))) ∧
  (∀ pf1, does (.pcieTlpError pf1 .ecc) (fun d => isLive d = true ∧ d.gbl.linkUp = true) (pcieEcc pf1)) ∧
  (∀ pf1, does (.pcieFlr pf1) (fun d => isLive d = true ∧ d.gbl.linkUp = true) (funcFlr pf1)) ∧
  (∀ pf1, does (.pcieD3hotEntry pf1) (fun d => isLive d = true ∧ d.gbl.linkUp = true ∧ (funcOf d pf1).d3hot = false)
    (fun d => setFunc (funcFlr pf1 d) pf1 { funcOf (funcFlr pf1 d) pf1 with d3hot := true })) ∧
  does .pcieLinkDown (fun d => isLive d = true) linkSurprise ∧
  does .pciePerst (fun d => isLive d = true) linkLost ∧
  (∀ speed width mps, does (.pcieLinkUp speed width mps) (fun d => isLive d = true) (fun d => { d with gbl := { d.gbl with
    linkUp := true, speed := speed, width := width, mps := mps
    pf0 := { d.gbl.pf0 with d3hot := false }, pf1 := { d.gbl.pf1 with d3hot := false } } })) ∧
  (∀ pf1 (v : Fin 64), does (.msixVectorUnmask pf1 (some v)) (fun d => isLive d = true ∧ v.val < vectors pf1)
    (fun d => releaseVector pf1 (setFunc d pf1 { funcOf d pf1 with vecMask := clrBit (funcOf d pf1).vecMask v.val }) v.val)) ∧
  (∀ pf1, does (.msixVectorUnmask pf1 none) (fun d => isLive d = true)
    (fun d => (List.range (vectors pf1)).foldl (releaseVector pf1) (setFunc d pf1 { funcOf d pf1 with funcMask := false }))) ∧
  does .lbRst (fun d => isLive d = true) (fun d =>
    setFlag 0 3 (gblCnt 9 (pathReset 2 { d with gbl := { d.gbl with lbHeld := none, lbHalfRd := 0, lbShadow := {}, lbErrN := true } }))) ∧
  does .lbTimeout (fun d => isLive d = true ∧ pathOpen d .lb = true) (fun d => readAs 0 (setFlag 0 2 (gblCnt 8 (lbEnd true d))))

/-- Power, reset and start-up (chapter 20): supplies, reset release, alignment-ready, PFW, DORMANT and its exit, and the PWR commands.
Rests in part on the model's own choices, log entries 1, 11 and 31. -/
def Obligations.PowerCommandsComplete : Prop :=
  does .powerOn (fun d => isLive d = false) (fun d => { d with pwr := { d.pwr with supplies := true } }) ∧
  does .porstN (fun d => isLive d = true) (deviceReset 1) ∧
  does .brownOut (fun d => isLive d = true) (fun d =>
    let e := deviceReset 2 d
    { e with pwr := { e.pwr with supplies := false } }) ∧
  (∀ straps, let rel := fun (d : Dev) =>
      let e := readLog (release straps d)
      loadPairing (logEv 0x1601 e.pwr.cause.toNat e.log.pcc.toNat (strapBits e) e)
    does (.resetRelease straps) (fun d => d.pwr.held = true ∧ d.pwr.supplies = true)
    (fun d => match loaderCause (rel d) with
      | some c => enterLoader c (rel d)
      | none => startFirmware d.pwr.aonLost (startImage (rel d)))) ∧
  does .alignmentReady (fun d => isLive d = true ∧ d.pwr.run = .starting ∧ fwAccepts d = true ∧ firstSwitched d = true) (fun d =>
    let ms := min 65535 (optSince d d.pwr.releasedAt)
    let svn := (runningImage d).svn
    let e := { d with
      pwr := { d.pwr with run := .ready, readyMs := BitVec.ofNat 16 ms }
      clk := { d.clk with xmode := 0xFFFF }
      cmd := { d.cmd with minSvn := if d.cmd.minSvn < svn then svn else d.cmd.minSvn } }
    roleAtReady (logEv 0x1602 ms e.clk.gen.toNat 0 e)) ∧
  does .pfwAssert (fun d => isLive d = true ∧ d.pwr.pfw = false ∧ d.pwr.seqRun = false) (fun d =>
    let e := { d with pwr := { d.pwr with pfw := true, pfwAt := d.log.opt, glitch := false, seqRun := true } }
    let e := capPowerFail (depart 1 (pwrCnt 0 e))
    if pfwCanRun e then pfwSteps true e else e) ∧
  does .pfwRelease (fun d => isLive d = true ∧ d.pwr.pfw = true ∧ d.pwr.seqRun = false)
    (fun d => logEv 0x1604 (optSince d d.pwr.pfwAt) 0 0 { d with pwr := { d.pwr with pfw := false, glitch := true } }) ∧
  does .fwRestartDone (fun d => isLive d = true ∧ d.cmd.fwRestarting = true)
    (fun d => refuseWaiting (pfwResume { d with cmd := { d.cmd with fwRestarting := false } })) ∧
  (∀ sec tick, does .dormantEntry
    (fun d => isLive d = true ∧ d.pwr.dormAt = some (sec, tick) ∧ d.pwr.run = .entering ∧ d.pwr.pfw = false)
    (fun d => enterDormant (bringTo d (tickInst sec tick)))) ∧
  (∀ sec tick, does .dormantExit (fun d => isLive d = true ∧ d.pwr.wokeTick = some (sec, tick) ∧ d.pwr.run = .waking)
    (fun d => leaveDormant (d.pwr.exitCause.getD 0).toNat (bringTo d (tickInst sec tick)))) ∧
  (∀ h, ends (.pwrDormant h) h 0x0130 [] false .accepted
    (fun d => (d.hrd.role = .unpaired ∨ d.hrd.role = .standby) ∧ d.pwr.run = .ready ∧ d.pwr.pfw = false ∧ d.clk.pending = none ∧
      d.clk.retiring = none)
    (fun _ => []) (fun d =>
      let k := firstTickFrom (nowNs d + 1000000)
      { d with pwr := { d.pwr with run := .entering, dormAt := some (BitVec.ofNat 48 (k / 3600), k % 3600), exitCause := none } })) ∧
  (∀ h, ends (.pwrWake h) h 0x0131 [] false .accepted (fun d => dormantSpan d = true) (fun _ => []) (noteExit 0)) ∧
  (∀ h, reports (.pwrStatus h) h 0x0132 [] (fun _ => True) (fun d =>
    leBytes 4 (pwrStat d) ++ leBytes 4 d.pwr.flags.toNat ++ leBytes 1 (strapBits d) ++ pk d.pwr.readyMs ++ pk d.pwr.flushUs ++
      pk d.pwr.saveUs ++ pk d.pwr.trailerUs)) ∧
  does .aonPowerLost (fun _ => True) (fun d => { d with
    pwr := { d.pwr with aonLost := true }, key := { d.key with ks := none }, tmp := { ({} : Tmp) with presPin := d.tmp.presPin } }) ∧
  (∀ vdd, does (.aonSourceChangeover vdd) (fun _ => True) (fun d => { d with pwr := { d.pwr with aonVdd := vdd } }))

/-- A step takes the command at the front of the queue and answers what exec answers on the queue's rest. -/
def Obligations.StepRunsTheFrontCommand : Prop :=
  ∀ (c : Instr) (rest : List Instr) (s : State), s.pending = c :: rest → step s = exec c { s with pending := rest }

/-- On an empty queue the block idles for one cycle of CLK_TOD, which passes only out of reset (the model's choice, log entry 8; the cycle
itself is that of R43). -/
def Obligations.EmptyQueueIdles : Prop :=
  ∀ s : State, s.pending = [] →
    step s = .next { s with dev := todCycle s.dev } ∧ (s.dev.pwr.held = true → step s = .next s)

/-- Every command is answered by a next state, whatever the device's state, and leaves the queue alone: none faults, and none is refused.
Rests in part on the model's own choices, log entry 2. -/
def Obligations.EveryCommandAnswers : Prop :=
  ∀ (c : Instr) (s : State), ∃ d : Dev, exec c s = .next { s with dev := d }

/-- The interrupt lines follow their sources after every step, from any state in which they do (R513, R516, R517). -/
def Obligations.StepKeepsInterruptLines : Prop :=
  ∀ s t : State, LinesFollow s.dev → step s = .next t → LinesFollow t.dev

/-- After any command the interrupt lines follow their sources, whatever they did before it. -/
def Obligations.CommandsSettleInterruptLines : Prop :=
  ∀ (c : Instr) (s t : State), exec c s = .next t → LinesFollow t.dev

/-- The interrupt lines follow their sources at reset. -/
def Obligations.ResetInterruptLines : Prop := LinesFollow State.reset.dev ∧ State.reset.pending = []

/-- A device held in reset takes only what reaches it there: its supplies, the release, the always-on domain and its pins, and tamper. Any other
command changes nothing, and the interrupt outputs keep following (R519, R522).
Rests in part on the model's own choices, log entry 7. -/
def Obligations.HeldDeviceTakesNothingElse : Prop :=
  ∀ (c : Instr) (s : State), s.dev.pwr.held = true → c ≠ .powerOn → c ≠ .brownOut → (∀ x, c ≠ .resetRelease x) →
    (∀ x, c ≠ .tamperDetected x) → c ≠ .presenceRecognised → c ≠ .presenceReleased → c ≠ .aonPowerLost → (∀ x, c ≠ .aonSourceChangeover x) →
    exec c s = .next { s with dev := settle s.dev }

/-- A packet that its channel does not have next, or that may not be accepted now, has no effect (R437, R440; that it has none is the model's
choice, log entry 7). -/
def Obligations.PacketsOutOfTurnHaveNoEffect : Prop :=
  ∀ (c : Instr) h op params hb (s : State), packetOf c = some (h, op, params, hb) → canAccept s.dev h op params = false →
    exec c s = .next { s with dev := settle s.dev }

/-- What acceptance asks of a packet (R437): the channel idle, fewer than four commands executing, no fence in force, and for a packet with FENCE
no command executing at all; the packet is the one that its channel has next, and of the channels with a packet to accept, none has a higher
class, and those of its class come later in the round. That the round begins at the lowest channel, and that a channel whose packet must wait for
a fence takes no turn, is the model's choice (log entries 3 and 30). -/
def Obligations.AcceptanceRule : Prop :=
  ∀ (d : Dev) h op params, canAccept d h op params = true →
    executingOn d h.chan = none ∧ d.cmd.executing.length < 4 ∧ d.cmd.fence = false ∧ isLive d = true ∧ d.cmd.fwRestarting = false ∧
    (bit h.flags.toNat 0 = true → d.cmd.executing = []) ∧
    (∃ x, nextOn d h.chan = some x ∧ packetHdr h.chan x.1 x.2 = h ∧ packetOp x.2 = op ∧ cut x.2 16 params.length = params) ∧
    (h.chan ≠ 24 → ∀ c ∈ readyChans d, classOf h.chan < classOf c ∨ (classOf h.chan = classOf c ∧ roundOf d h.chan ≤ roundOf d c))

/-- A packet that fails a check of Table 16-2 has no effect of its own: it is accepted, and completes at once with that check's status and an
empty reply (R438). The SEQ check and its reply are in `SequenceErrorsRefuse`. -/
def Obligations.FailedChecksRefuse : Prop :=
  ∀ (c : Instr) h op params hb (s : State) st, packetOf c = some (h, op, params, hb) → canAccept s.dev h op params = true →
    abortNamed s.dev h = false → (headerBad h = true ∨ seqBad s.dev h = none) → acceptFault s.dev h op params hb = some st →
    exec c s = .next { s with dev := settle (finish h op params st [] (started h op params s.dev)) }

/-- A queue's packet with a SEQ other than the expected one is not executed: BAD_PARAM, with reason 1 in byte 0 of the reply and the expected
SEQ in bytes 4 to 7 (R441). -/
def Obligations.SequenceErrorsRefuse : Prop :=
  (∀ (c : Instr) h op params hb (s : State) e, packetOf c = some (h, op, params, hb) → canAccept s.dev h op params = true →
    abortNamed s.dev h = false → headerBad h = false → seqBad s.dev h = some e →
    exec c s = .next { s with dev := settle (finish h op params .badParam ([1, 0, 0, 0] ++ leBytes 4 e.toNat) (started h op params s.dev)) }) ∧
  (∀ (pair : Fin 16) packet (s : State), let q := pairOf s.dev pair.val
    let seq := packetSeq packet
    isLive s.dev = true → q.en = true → q.stopped = false → q.sqHead ≠ q.sqTail → q.fetched.length < 992 → s.dev.gbl.linkUp = true →
    (funcOf s.dev (8 ≤ pair.val)).d3hot = false → stalledIn s.dev 4 = false → q.seqFixed = true → seq ≠ q.seqNext →
    exec (.cmdFetch pair packet) s = .next { s with dev := settle (refuseWaiting (seqError pair.val q.seqNext seq
      (setPair s.dev pair.val { q with
        sqHead := (q.sqHead + 1) % sqSize q, seqFixed := true, seqNext := seq + 1
        fetched := q.fetched ++ [{ packet := cut packet 0 64, bad := some q.seqNext }] }))) })

/-- A packet that CMD_ABORT has named before its acceptance completes with ABORTED and no effect (Table 16-4). -/
def Obligations.AbortedBeforeAcceptance : Prop :=
  ∀ (c : Instr) h op params hb (s : State), packetOf c = some (h, op, params, hb) → canAccept s.dev h op params = true →
    abortNamed s.dev h = true →
    exec c s = .next { s with dev := settle (finish h op params .aborted [] (started h op params s.dev)) }

/-- A command with TARGET 1 goes to the Herd peer alone, and with TARGET 2 a GEN_SWITCH or GEN_CANCEL goes to the peer first: neither has an
effect here before the peer's answer (R436, R483, R484). What goes carries the command's parameter block, and a block that cannot be read ends the
command (R434). -/
def Obligations.ForwardedCommandsWaitForThePeer : Prop :=
  ∀ (c : Instr) h op params hb (s : State), packetOf c = some (h, op, params, hb) → canAccept s.dev h op params = true →
    abortNamed s.dev h = false → seqBad s.dev h = none → acceptFault s.dev h op params hb = none → h.chan < 25 →
    (h.target = 1 ∨ (h.target = 2 ∧ (op = 0x0110 ∨ op = 0x0111))) →
    let d := started h op params s.dev
    let sent := fun b => refuseWaiting (forwardCmd h op params b (h.target = 2) d)
    exec c s = .next { s with dev := settle (match blockOf c with
      | none => sent []
      | some (src, len, given) => match blockFault h src len with
        | none => sent (paramBytes h src len given d)
        | some st => finish h op params st [] d) }

/-- The checks of Table 16-2 refuse a header with reserved bits, STATUS or ORDER set, an opcode of Table 16-3 on a non-secure channel, a host
buffer named through a local-bus mailbox, a wrong PLEN, and, of a command that the peer did not send, a TARGET above 2, a target for CMD_ABORT and
the groups 0x09xx and 0x0Axx, and any target while the Herd lane is not up. -/
def Obligations.AcceptanceChecks : Prop :=
  (∀ (d : Dev) h op params hb, (1 < h.flags.toNat ∨ h.status ≠ 0 ∨ h.order ≠ 0) → acceptFault d h op params hb = some .badParam) ∧
  ∀ (d : Dev) h op params hb, h.flags.toNat ≤ 1 → h.status = 0 → h.order = 0 →
    (secureOnly op params = true → secureChan h.chan = false → acceptFault d h op params hb = some .notPermitted) ∧
    (permitted d h op params = true → hb = true → viaLocalBus h = true → acceptFault d h op params hb = some .wrongChannel) ∧
    (permitted d h op params = true → (hb = false ∨ viaLocalBus h = false) →
      ((h.plen.toNat ≠ params.length ∨ h.pad = false) → acceptFault d h op params hb = some .badLength) ∧
      (h.plen.toNat = params.length → h.pad = true → h.chan < 25 →
        (2 < h.target.toNat → acceptFault d h op params hb = some .badParam) ∧
        ((h.target = 1 ∨ h.target = 2) → (op = 0x0102 ∨ op / 256 = 0x09 ∨ op / 256 = 0x0A ∨ d.hrd.lane ≠ .up) →
          acceptFault d h op params hb = some .notPermitted)))

/-- Completion, settling and the start of a command touch bookkeeping alone: the blocks that a command configures or that carry data are as its
effect left them. -/
def Obligations.BookkeepingTouchesNoOtherBlock : Prop :=
  (∀ h op params st reply (d : Dev), dataBlocks (finish h op params st reply d) = dataBlocks d) ∧
  (∀ h op params (d : Dev), dataBlocks (started h op params d) = dataBlocks d) ∧
  (∀ d : Dev, dataBlocks (settle d) = dataBlocks d ∧ (settle d).cmd = d.cmd ∧ (settle d).log = d.log ∧ (settle d).cnt = d.cnt ∧
    (settle d).pub = d.pub ∧ (settle d).cap = d.cap ∧ (settle d).hrd = d.hrd ∧ (settle d).clk = d.clk) ∧
  (∀ code p1 p2 p3 (d : Dev), dataBlocks (logEv code p1 p2 p3 d) = dataBlocks d)

/-- The wheel (R2): tick k begins floor(k × 2,500,000 / 9) ns after the start of its second and ends where tick k + 1 begins; the 3,600 ticks
fill the second, each nanosecond in exactly one of them, and a tick lasts 277,777 or 277,778 ns. -/
def Obligations.TicksDivideTheSecond : Prop :=
  (∀ sec k, tickInst sec k = sec.toNat * 1000000000 + k * 2500000 / 9) ∧
  tickStartNs 0 = 0 ∧ tickStartNs 3600 = 1000000000 ∧
  (∀ k, k < 3600 → tickStartNs (k + 1) - tickStartNs k = 277777 ∨ tickStartNs (k + 1) - tickStartNs k = 277778) ∧
  (∀ ns k, ns < 1000000000 → k < 3600 → (tickOfNs ns = k ↔ tickStartNs k ≤ ns ∧ ns < tickStartNs (k + 1))) ∧
  (∀ ns, ns < 1000000000 → tickOfNs ns < 3600)

/-- Event counters are 48 bits wide and wrap (R12), and a read of the low word of a counter returns its bits 23 to 0 with the advanced SEQ and
latches the high word: read at any later time on that path, it returns the count's bits 47 to 24 as they were with the low word, and the same SEQ,
until the next read of a lowest word there; the shadows of the other paths are not disturbed (R13). -/
def Obligations.CountersWrapAndReadWhole : Prop :=
  (∀ d b p i n, mget 0 (bumpAt d b p i n).cnt (cntKey b p i) = mget 0 d.cnt (cntKey b p i) + BitVec.ofNat 48 n ∧
    ∀ b' p' i', p < 256 → p' < 256 → i < 256 → i' < 256 → (b', p', i') ≠ (b, p, i) →
      mget 0 (bumpAt d b p i n).cnt (cntKey b' p' i') = mget 0 d.cnt (cntKey b' p' i')) ∧
  (∀ (s : State) p (addr : W32) v, let a := addr.toNat / 4 * 4
    pathOpen s.dev p = true → isMapped p a = true → counterAt s.dev p a = some (v, true) →
    let n := (mget 0 (shadowOf s.dev p).seq a + 1).toNat
    ∃ t, exec (.multiwordLowRead p addr) s = .next t ∧ t.dev.gbl.lastRead.toNat = v.toNat % 2 ^ 24 * 256 + n ∧
      (∀ q, q ≠ p → ¬ (isLb p = true ∧ isLb q = true) → shadowOf t.dev q = shadowOf s.dev q) ∧
      ∀ (u : State) (addr' : W32) w, shadowOf u.dev p = shadowOf t.dev p → addr'.toNat / 4 * 4 = a + 4 → pathOpen u.dev p = true →
        isMapped p (a + 4) = true → counterAt u.dev p (a + 4) = some (w, false) →
        ∃ t', exec (.multiwordLowRead p addr') u = .next t' ∧ t'.dev.gbl.lastRead.toNat = n * 2 ^ 24 + v.toNat / 2 ^ 24 ∧
          shadowOf t'.dev p = shadowOf t.dev p)

/-- A phase adjustment (R47): the request is refused above 200 ppm, then while another is in progress, then where the time state forbids it; in
force, each of its N cycles adds TOD_INC and S / N truncated to 2^-40 ns, and the last one the remainder, so that exactly S has been added at its
end. An accepted one moves the counter by at most 1.718 ms. -/
def Obligations.PhaseAdjustmentsApplyExactly : Prop :=
  (∀ h sz n, ends (.timePhaseAdjust h sz n) h 0x0203 (pk sz ++ pk n) false .badParam
    (fun _ => n = 0 ∨ 4 * n.toNat * 65536 < sz.toInt.natAbs * 10000) (fun _ => []) id) ∧
  (∀ h sz n, ends (.timePhaseAdjust h sz n) h 0x0203 (pk sz ++ pk n) false .busy
    (fun d => n ≠ 0 ∧ sz.toInt.natAbs * 10000 ≤ 4 * n.toNat * 65536 ∧ d.tod.adj.isSome) (fun _ => []) id) ∧
  (∀ h sz n, ends (.timePhaseAdjust h sz n) h 0x0203 (pk sz ++ pk n) false .notPermitted
    (fun d => n ≠ 0 ∧ sz.toInt.natAbs * 10000 ≤ 4 * n.toNat * 65536 ∧ d.tod.adj = none ∧ (d.tod.state = .unset ∨ d.tod.state = .holdover))
    (fun _ => []) id) ∧
  (∀ (sz : W64) (n : W32), sz.toInt.natAbs * 10000 ≤ 4 * n.toNat * 65536 → sz.toInt.natAbs ≤ 1717987 * 65536) ∧
  (∀ (t : Tod) (sz : Int) (n k : Nat), 0 < n → n < 2 ^ 32 → sz.natAbs * 10000 ≤ 4 * n * 65536 → t.adj = some { s := sz, n := n, done := 0 } →
    t.ns.toNat < 1000000000 → 2 ^ 40 ≤ t.inc.toNat → fineCount t + n * t.inc.toNat + sz.natAbs * 2 ^ 24 < 2 ^ 48 * 1000000000 * 2 ^ 40 → k ≤ n →
    let u := (fun x => countCycles x 1)^[k] t
    (k < n → (fineCount u : Int) = fineCount t + k * t.inc.toNat + k * Int.tdiv (sz * 2 ^ 24) n ∧ u.adj = some { s := sz, n := n, done := k }) ∧
    (k = n → (fineCount u : Int) = fineCount t + n * t.inc.toNat + sz * 2 ^ 24 ∧ u.adj = none))

/-- GEN_CANCEL (R25): before the switch tick begins it completes OK, the switch is withdrawn and the staged change set is kept, and so is all
else but the units' preparation work and the launch entry that set the switch; at or after it, or with none pending, NOTHING_TO_ABORT and no effect. -/
def Obligations.GenCancelWithdrawsAndKeeps : Prop :=
  (∀ h w (s : State), passes h 0x0111 [] false s.dev → s.dev.clk.pending = some w → nowNs s.dev < tickInst w.sec w.tick →
    let d := started h 0x0111 [] s.dev
    ∃ e, exec (.genCancel h) s = .next { s with dev := settle (finish h 0x0111 [] .ok [] e) } ∧ e.clk = { d.clk with pending := none } ∧
      e.cur = d.cur ∧ e.old = d.old ∧
      e.staged = { d.staged with osc := { d.staged.osc with prep := {} }, isl := { d.staged.isl with prep := {} } } ∧
      e.dir = d.dir ∧ e.ing = d.ing ∧ e.pub = d.pub ∧ e.tod = d.tod ∧
      (∀ j, w.entry ≠ some j → mfind e.lch.entries j = mfind d.lch.entries j) ∧
      (∀ j x, w.entry = some j → mfind d.lch.entries j = some x → mfind e.lch.entries j = some { x with status := .cancelled })) ∧
  (∀ h, ends (.genCancel h) h 0x0111 [] false .nothingToAbort
    (fun d => ∀ w, d.clk.pending = some w → tickInst w.sec w.tick ≤ nowNs d) (fun _ => []) id)

/-- Between the acceptance of a switch and its switch tick, a data-path configuration command returns GENERATION_CONFLICT and has no effect
(R22): the staging commands, whatever their parameters, those with a parameter block once the block has been read. -/
def Obligations.StagingRefusedWhileSwitchIsPending : Prop :=
  ∀ (c : Instr) h op params hb (s : State), packetOf c = some (h, op, params, hb) → passes h op params hb s.dev → s.dev.clk.pending.isSome →
    (op ∈ [0x0401, 0x0402, 0x0403, 0x0410, 0x0411, 0x0412, 0x0414, 0x0501, 0x0502, 0x0503, 0x0504, 0x0512, 0x0513, 0x0517, 0x0601, 0x0602, 0x0603,
        0x0611, 0x0612, 0x0621, 0x0622, 0x0630, 0x0112] ∨
      (∃ src x, c = .pubOstreamFmt h src x ∧ blockFits src h 64) ∨ (∃ src x, c = .pubTemplate h src x ∧ blockFits src h 80) ∨
      (∃ src x, c = .oscConfig h src x ∧ blockFits src h 128) ∨ (∃ src x, c = .islConfig h src x ∧ blockFits src h 64)) →
    exec c s = .next { s with dev := settle (finish h op params .generationConflict [] (started h op params s.dev)) }

/-- After every reset the current generation is 0x0000 with an empty data path, and the first staged generation, 0x0001, is built without the
limits of R20 (R21). -/
def Obligations.GenerationAfterReset : Prop :=
  (∀ d, d = State.reset.dev ∨ (∃ cause e, d = deviceReset cause e) →
    d.clk.gen = 0 ∧ d.cur = {} ∧ d.staged = {} ∧ d.old = none ∧ d.clk.pending = none ∧ d.clk.retiring = none ∧ stagedNum d = 1 ∧
    d.clk.firstBuilt = false ∧ d.clk.chgDir = [] ∧ d.clk.chgOther = []) ∧
  (∀ ks ls f d, d.clk.firstBuilt = false → d.clk.pending = none → stageWith false ks ls f d = okay (stagedBy ks ls f d))

/-- A device reset (R522, R523): held, with its cause; every block and register at its reset value, but MRAM (the event log's records and mark,
the configuration store and the images, the metering saves, the key tree and the life-cycle record) and the always-on domain (PCC, OPT, KS, the
tamper latches and the second count) are kept. Causes 3 to 5 flush the event log first.
Rests in part on the model's own choices, log entry 3. -/
def Obligations.ResetWipesAndKeeps : Prop :=
  ∀ (cause : Fin 8) d, let e := deviceReset cause.val d
    let k := if flushesFirst cause.val d then flushLog true d else d
    e.pwr = { supplies := k.pwr.supplies, aonVdd := k.pwr.aonVdd, aonLost := k.pwr.aonLost, cause := BitVec.ofNat 3 cause.val } ∧
    e.pwr.held = true ∧ e.pwr.cause.toNat = cause.val ∧
    e.clk = {} ∧ e.hrd = {} ∧ e.tod = {} ∧ e.ports = [] ∧ e.pub = {} ∧ e.ing = {} ∧ e.dir = {} ∧ e.aln = {} ∧ e.est = {} ∧ e.osc = {} ∧
    e.isl = {} ∧ e.alm = {} ∧ e.lch = {} ∧ e.cap = {} ∧ e.lmf = {} ∧ e.aux = {} ∧ e.cnt = [] ∧ e.snap = [] ∧ e.cur = {} ∧ e.staged = {} ∧
    e.old = none ∧ e.gbl = { eui := k.gbl.eui } ∧ e.mtr = { saves := k.mtr.saves } ∧
    e.cmd.executing = [] ∧ e.cmd.queues = [] ∧ e.cmd.mailboxes = [] ∧ e.cmd.fwUp = false ∧ e.cmd.order = 0 ∧
    e.cmd.store = k.cmd.store ∧ e.cmd.storeSchema = k.cmd.storeSchema ∧ e.cmd.stored = k.cmd.stored ∧ e.cmd.minSvn = k.cmd.minSvn ∧
    e.key.slots = [] ∧ e.key.ke = [] ∧ e.key.identity = false ∧ e.key.stored = k.key.stored ∧ e.key.ks = k.key.ks ∧ e.key.lc = k.key.lc ∧
    e.key.owner = k.key.owner ∧ e.key.ownerCtr = k.key.ownerCtr ∧
    e.tmp = { k.tmp with active := 0, open_ := 0 } ∧
    e.log.buffer = [] ∧ e.log.mram = k.log.mram ∧ e.log.pcc = k.log.pcc ∧ e.log.opt = k.log.opt ∧
    (cause.val = 3 ∨ cause.val = 4 ∨ cause.val = 5 → k = flushLog true d)

/-- PCC counts every release of device reset, modulo 2^24, from the newest copy in MRAM where the always-on domain has lost its supplies (R464);
the release needs the main supplies (R519). -/
def Obligations.ReleaseCountsPowerCycles : Prop :=
  (∀ x (s : State), s.dev.pwr.held = true → s.dev.pwr.supplies = true →
    ∃ t, exec (.resetRelease x) s = .next t ∧ t.dev.pwr.held = false ∧
      t.dev.log.pcc = (if s.dev.pwr.aonLost then
        (newestCopy ((s.dev.log.pccCopy, s.dev.log.optCopy) ::
          ((s.dev.mtr.saves.map Prod.snd).filter MtrSave.crcOk).map fun r => (r.pcc, r.opt))).1 else s.dev.log.pcc) + 1) ∧
  (∀ x (s : State), s.dev.pwr.held = true → s.dev.pwr.supplies = false → exec (.resetRelease x) s = .next { s with dev := settle s.dev })

/-- A HEAD write on a running ring (R220, R222): between HEAD and TAIL it returns the entries before it; any other value stops the ring, sets ERR
and logs DL_RING_ERROR, and a record partly written counts as discarded. Nothing is written to a stopped ring. -/
def Obligations.HeadWritesOutsideStopTheRing : Prop :=
  (∀ (r : Fin 32) v (s : State), isLive s.dev = true → (ringOf s.dev r.val).run = true →
    let g := ringOf s.dev r.val
    let h := v.toNat % 2 ^ 24
    (h < g.size → (h + g.size - g.head) % g.size ≤ g.depth →
      exec (.rngDlHeadWrite r v) s = .next { s with dev := settle (setRing s.dev r.val { g with
        head := h, notice := false, since := if h = g.head then g.since else opNs s.dev }) }) ∧
    (g.size ≤ h ∨ g.depth < (h + g.size - g.head) % g.size →
      ∃ t, exec (.rngDlHeadWrite r v) s = .next t ∧ (ringOf t.dev r.val).run = false ∧ (ringOf t.dev r.val).err = true ∧
        (ringOf t.dev r.val).head = h ∧ (ringOf t.dev r.val).tail = g.tail ∧ (ringOf t.dev r.val).part = none)) ∧
  (∀ (r : Fin 32) (s : State), (ringOf s.dev r.val).run = false →
    exec (.ringRecordWrite r) s = .next { s with dev := settle s.dev })

/-- A write to a data word or to POST of a FULL inbound mailbox, and a write to a data word of any outbound one, is rejected: the message stays as
it is, REJECT is latched and the write counts, with LB_ERR_N on the local bus and a Completer Abort on PCIe. TAKE of an EMPTY outbound mailbox is
ignored (R449). -/
def Obligations.FullMailboxesRejectWrites : Prop :=
  (∀ p (m i : Fin 16) v (s : State), pathOpen s.dev p = true → mbxReach p m.val = true →
    let x := mboxOf s.dev m.val
    (mbxIn m.val = false ∨ x.full = true) →
    exec (.mbxDataWrite p m i v) s = .next { s with dev := settle (mbxReject p m.val s.dev) } ∧
    (mbxIn m.val = true → exec (.mbxPost p m) s = .next { s with dev := settle (mbxReject p m.val s.dev) })) ∧
  (∀ p m d, let e := mbxReject p m d
    mboxOf e m = { mboxOf d m with reject := true } ∧ (∀ n, n ≠ m → mboxOf e n = mboxOf d n) ∧
    mget 0 e.cnt (cntKey 3 0 3) = mget 0 d.cnt (cntKey 3 0 3) + 1 ∧
    (isLb p = true → e.gbl.lbErrN = false) ∧
    (isLb p = false → (funcOf e (p = .pf1)).aer = (0, false) :: (funcOf d (p = .pf1)).aer)) ∧
  (∀ p (m : Fin 16) (s : State), pathOpen s.dev p = true → mbxReach p m.val = true → mbxIn m.val = false → (mboxOf s.dev m.val).full = false →
    exec (.mbxTake p m) s = .next { s with dev := settle (accessOk p s.dev) })

/-- A read of an offset that no block occupies returns 0 and a write is discarded; either sets GBL_ERR.UNMAPPED and counts. A PCIe write without
every byte enable is discarded and sets GBL_ERR.PARTIAL (R502). -/
def Obligations.UnmappedAndPartialAccesses : Prop :=
  (∀ p (addr : W32) (s : State), pathOpen s.dev p = true → isMapped p (addr.toNat / 4 * 4) = false →
    ∃ t, exec (.rcRegisterRead p addr) s = .next t ∧ t.dev.gbl.lastRead = 0 ∧ bit t.dev.gbl.err.toNat 0 = true ∧
      mget 0 t.dev.cnt (cntKey 0 0 0) = mget 0 s.dev.cnt (cntKey 0 0 0) + 1 ∧ dataBlocks t.dev = dataBlocks s.dev) ∧
  (∀ p (addr : W32) v en (s : State), pathOpen s.dev p = true → isMapped p (addr.toNat / 4 * 4) = false →
    ∃ t, exec (.registerWrite p addr v en) s = .next t ∧ bit t.dev.gbl.err.toNat 0 = true ∧
      mget 0 t.dev.cnt (cntKey 0 0 0) = mget 0 s.dev.cnt (cntKey 0 0 0) + 1 ∧ dataBlocks t.dev = dataBlocks s.dev) ∧
  (∀ p (addr : W32) v (en : BitVec 4) (s : State), pathOpen s.dev p = true → isMapped p (addr.toNat / 4 * 4) = true → isLb p = false → en ≠ 15 →
    ∃ t, exec (.registerWrite p addr v en) s = .next t ∧ bit t.dev.gbl.err.toNat 1 = true ∧ dataBlocks t.dev = dataBlocks s.dev ∧
      t.dev.cmd = s.dev.cmd ∧ t.dev.pub = s.dev.pub ∧ t.dev.cap = s.dev.cap ∧ t.dev.log = s.dev.log ∧ t.dev.hrd = s.dev.hrd)

/-- The flags registers are RW1C (R11): a write of 1 clears the bit, a write of 0 leaves it; a write through PF0 or the non-secure window of the
flags of a block or a port, and one through PF1 or the secure window of KEY_FLAGS, changes those flags and nothing else. -/
def Obligations.FlagsClearByWritingOne : Prop :=
  (∀ (w i : Nat) (f : BitVec w) v, i < w → (rw1c f v).getLsbD i = (f.getLsbD i && !v.testBit i)) ∧
  (∀ p (v : W32) (s : State), (p = .pf0 ∨ p = .lb) → pathOpen s.dev p = true →
    let after := fun (addr : W32) (f : Dev → Dev) => exec (.registerWrite p addr v 15) s = .next { s with dev := settle (accessOk p (f s.dev)) }
    after 0x24 (fun d => { d with gbl := { d.gbl with err := rw1c d.gbl.err v.toNat } }) ∧
    after 0x1050 (fun d => { d with tod := { d.tod with flags := rw1c d.tod.flags v.toNat } }) ∧
    after 0x2004 (fun d => { d with alm := { d.alm with flags := rw1c d.alm.flags v.toNat } }) ∧
    after 0x80004 (fun d => { d with ing := { d.ing with flags := rw1c d.ing.flags v.toNat } }) ∧
    after 0xA0004 (fun d => { d with aln := { d.aln with flags := rw1c d.aln.flags v.toNat } }) ∧
    after 0xC0004 (fun d => { d with pub := { d.pub with flags := rw1c d.pub.flags v.toNat } }) ∧
    after 0xE0004 (fun d => { d with est := { d.est with flags := rw1c d.est.flags v.toNat } }) ∧
    after 0xE1004 (fun d => { d with osc := { d.osc with flags := rw1c d.osc.flags v.toNat } }) ∧
    after 0xE2004 (fun d => { d with isl := { d.isl with flags := rw1c d.isl.flags v.toNat } }) ∧
    after 0x10000C (fun d => { d with lmf := { d.lmf with flags := rw1c d.lmf.flags v.toNat } }) ∧
    after 0x101008 (fun d => { d with aux := { d.aux with flags := rw1c d.aux.flags v.toNat } }) ∧
    after 0x120004 (fun d => { d with mtr := { d.mtr with flags := rw1c d.mtr.flags v.toNat } }) ∧
    after 0x140004 (fun d => { d with lch := { d.lch with flags := rw1c d.lch.flags v.toNat } }) ∧
    after 0x141004 (fun d => { d with cap := { d.cap with flags := rw1c d.cap.flags v.toNat } }) ∧
    after 0x160004 (fun d => { d with log := { d.log with flags := rw1c d.log.flags v.toNat } }) ∧
    after 0x180004 (fun d => { d with hrd := { d.hrd with flags := rw1c d.hrd.flags v.toNat } }) ∧
    after 0x1A1004 (fun d => { d with pwr := { d.pwr with flags := rw1c d.pwr.flags v.toNat } }) ∧
    (∀ n : Fin 8, after (BitVec.ofNat 32 (0x40004 + 0x4000 * n.val))
      (fun d => setPort d n.val { portOf d n.val with flags := rw1c (portOf d n.val).flags v.toNat })) ∧
    (∀ n : Fin 4, after (BitVec.ofNat 32 (0x60004 + 0x2000 * n.val))
      (fun d => setPort d (8 + n.val) { portOf d (8 + n.val) with flags := rw1c (portOf d (8 + n.val)).flags v.toNat }))) ∧
  (∀ p (v : W32) (s : State), (p = .pf1 ∨ p = .lbs) → pathOpen s.dev p = true →
    exec (.registerWrite p 0x1C0004 v 15) s =
      .next { s with dev := settle (accessOk p { s.dev with key := { s.dev.key with flags := rw1c s.dev.key.flags v.toNat } }) })

/-- A tamper source that stays active for its filter time (R421): the vault and KS are cleared and the identity key is lost, the source is latched
with the always-on second count, and TMP_COUNT counts it up to 65,535; before alignment-ready the device halts in TAMPERED (R422). A source that
is not enabled has no effect. -/
def Obligations.TamperZeroizes : Prop :=
  (∀ (x : Byte) (s : State), let k := x.toNat.land (tamperArmed s.dev)
    k ≠ 0 → s.dev.pwr.held = false →
    ∃ t, exec (.tamperDetected x) s = .next t ∧ t.dev.key.slots = [] ∧ t.dev.key.ke = [] ∧ t.dev.key.ks = none ∧ t.dev.key.identity = false ∧
      t.dev.key.vault = .zeroized ∧ t.dev.tmp.latch = (s.dev.tmp.latch ||| BitVec.ofNat 8 k) ∧ t.dev.tmp.last = s.dev.tmp.aonSec ∧
      t.dev.tmp.count.toNat = min 65535 (s.dev.tmp.count.toNat + 1) ∧
      (s.dev.pwr.run = .starting → t.dev.pwr.run = .tampered) ∧ (s.dev.pwr.run ≠ .starting → t.dev.pwr.run = s.dev.pwr.run)) ∧
  (∀ (x : Byte) (s : State), x.toNat.land (tamperArmed s.dev) ≠ 0 → s.dev.pwr.held = true →
    ∃ t, exec (.tamperDetected x) s = .next t ∧ t.dev.key.ks = none ∧
      t.dev.tmp.latch = (s.dev.tmp.latch ||| BitVec.ofNat 8 (x.toNat.land (tamperArmed s.dev))) ∧ t.dev.pwr = s.dev.pwr ∧ t.dev.log = s.dev.log) ∧
  (∀ (x : Byte) (s : State), x.toNat.land (tamperArmed s.dev) = 0 → exec (.tamperDetected x) s = .next { s with dev := settle s.dev })

/-- Without recognised presence, TMP_CLEAR, MTR_CLEAR, LOG_CLEAR and a TMP_CONFIG that disables a source or lengthens a filter return
PRESENCE_REQUIRED and have no effect (R420, R428, R400, R472).
Rests in part on the model's own choices, log entry 28. -/
def Obligations.PresenceGuards : Prop :=
  (∀ h, ends (.tmpClear h) h 0x0911 [] false .presenceRequired (fun d => d.tmp.presence = false) (fun _ => []) id) ∧
  (∀ h mask, ends (.mtrClear h mask) h 0x0727 (pk mask) false .presenceRequired (fun d => d.tmp.presence = false) (fun _ => []) id) ∧
  (∀ h sev, ends (.logClear h sev) h 0x0B04 (pk sev) false .presenceRequired (fun d => d.tmp.presence = false) (fun _ => []) id) ∧
  (∀ h loops internal, ends (.tmpConfig h loops internal) h 0x0910 (cut loops 0 4 ++ pk internal) false .presenceRequired
    (fun d => d.tmp.presence = false ∧ ((cut loops 0 4).any loopBad) = false ∧ internal &&& 0x8F = 0 ∧
      tmpWeakens d (tmpEnables loops internal) (tmpFilters loops) = true) (fun _ => []) id) ∧
  does .presenceRecognised (fun _ => True) (fun d => { d with tmp := { d.tmp with presPin := true, presence := true } }) ∧
  does .presenceReleased (fun _ => True) (fun d => { d with tmp := { d.tmp with presPin := false, presence := false } })

/-- Every record of the event log is 32 bytes in the layout of Table 17-1, with the CRC-32 of bytes 0 to 27 (R463). -/
def Obligations.LogRecordLayout : Prop :=
  (∀ r : LogRec, let b := r.bytes
    b.length = 32 ∧ leAt b 0 2 = r.code.toNat ∧ leAt b 2 1 % 8 = sevNum r.sev ∧ bit (leAt b 2 1) 3 = r.timeValid ∧ bit (leAt b 2 1) 4 = r.pfw ∧
    bit (leAt b 2 1) 5 = r.summary ∧ leAt b 2 1 / 64 = 0 ∧ leAt b 3 1 = r.source.toNat ∧ leAt b 4 3 = r.pcc.toNat ∧ leAt b 7 1 = 0 ∧
    leAt b 8 5 = r.opt.toNat ∧ leAt b 13 3 = r.seq.toNat ∧ leAt b 16 4 = r.p1.toNat ∧ leAt b 20 4 = r.p2.toNat ∧ leAt b 24 4 = r.p3.toNat ∧
    leAt b 28 4 = crc32 (b.take 28)) ∧
  ([Sev.trace, .info, .notice, .warning, .error, .critical].map sevNum = [0, 1, 2, 3, 4, 5]) ∧
  (∀ code p1 p2 p3 (d : Dev), d.log.mramMin = 0 → d.log.buffer.length < 4096 →
    ∃ r, (logEv code p1 p2 p3 d).log.buffer = d.log.buffer ++ [r] ∧ r.code = BitVec.ofNat 16 code ∧ r.source = BitVec.ofNat 8 (code / 256) ∧
      r.timeValid = !decide (d.tod.state = .unset) ∧ r.pfw = d.pwr.pfw ∧ r.summary = false ∧ r.pcc = aonPcc d ∧ r.opt = aonOpt d ∧
      r.seq = d.log.seq ∧ (logEv code p1 p2 p3 d).log.seq = d.log.seq + 1 ∧ r.p1 = BitVec.ofNat 32 p1 ∧ r.p2 = BitVec.ofNat 32 p2 ∧
      r.p3 = BitVec.ofNat 32 p3) ∧
  (∀ code sev p1 p2 p3 (d : Dev), d.log.mramMin = 0 → d.log.buffer.length < 4096 →
    ∃ r, (logSum code p1 p2 p3 d).log.buffer = d.log.buffer ++ [r] ∧ r.summary = true ∧
    ∃ q, (logFull 0xFF code sev p1 p2 p3 false d).log.buffer = d.log.buffer ++ [q] ∧ q.source = 0xFF ∧ q.sev = sev)

/-- A reply of up to 720 bytes goes out in entries of 64 bytes (R435): one for up to 48 bytes, else up to 15; every entry carries the opcode,
SEQ, TARGET, STATUS and ORDER, each but the first has CONT set and its own byte count in PLEN, each but the last MORE, and the 48-byte bodies in
order begin with the reply. -/
def Obligations.RepliesContinueInEntries : Prop :=
  ∀ (op : Nat) (target : Byte) (seq : W32) (st : Nat) (order : W32) (reply : Bytes), op < 65536 → st < 65536 → reply.length ≤ 720 →
    let l := replyEntries op target seq st order reply
    l.length = max 1 ((reply.length + 47) / 48) ∧ l.length ≤ 15 ∧
    (∀ i e, l[i]? = some e →
      e.length = 64 ∧ leAt e 0 2 = op ∧ leAt e 3 1 = target.toNat ∧ leAt e 4 4 = seq.toNat ∧ leAt e 10 2 = st ∧ leAt e 12 4 = order.toNat ∧
      bit (leAt e 2 1) 6 = decide (i ≠ 0) ∧ bit (leAt e 2 1) 7 = decide (i + 1 < l.length) ∧
      (i ≠ 0 → leAt e 8 2 = min 48 (reply.length - 48 * i))) ∧
    ((l.map fun e => e.drop 16).flatten).take reply.length = reply

/-- No bit of a directory entry is dropped (R157, R160): an entry read back from its 32 bytes is the entry, and so is each of a load's entries,
cut from the load's block. -/
def Obligations.DirectoryEntriesSurvive : Prop :=
  (∀ e : DirEntry, e.bytes.length = 32 ∧ dirEntryOf e.bytes = e) ∧
  (∀ l : List DirEntry, ((chunksOf 32 l.length ((l.map DirEntry.bytes).flatten)).map dirEntryOf) = l)
end

