-- ==== Sys2Proof/Laws/Book.lean ====
section
/-!
SUPPORT. What counting, flagging, logging, posting a record and answering a command leave alone: `dataBlocks`, the blocks that commands
configure and that carry data.
-/
namespace Sys2Proof.Laws

open Sys2Proof.Machine Sys2Proof.Safety

@[simp] theorem dataBlocks_bumpAt (d : Dev) (b p i n : Nat) : dataBlocks (bumpAt d b p i n) = dataBlocks d := rfl
@[simp] theorem dataBlocks_bump (d : Dev) (b i : Nat) : dataBlocks (bump d b i) = dataBlocks d := rfl
@[simp] theorem dataBlocks_emit (o : Output) (d : Dev) : dataBlocks (emit o d) = dataBlocks d := rfl
@[simp] theorem dataBlocks_cnt (d : Dev) (x : NMap (BitVec 48)) : dataBlocks { d with cnt := x } = dataBlocks d := rfl
@[simp] theorem dataBlocks_log (d : Dev) (x : Log) : dataBlocks { d with log := x } = dataBlocks d := rfl
@[simp] theorem dataBlocks_cmd (d : Dev) (x : Cmd) : dataBlocks { d with cmd := x } = dataBlocks d := rfl
@[simp] theorem dataBlocks_pub (d : Dev) (x : Pub) : dataBlocks { d with pub := x } = dataBlocks d := rfl
@[simp] theorem dataBlocks_cap (d : Dev) (x : Cap) : dataBlocks { d with cap := x } = dataBlocks d := rfl
@[simp] theorem dataBlocks_hrd (d : Dev) (x : Hrd) : dataBlocks { d with hrd := x } = dataBlocks d := rfl
@[simp] theorem dataBlocks_gbl (d : Dev) (x : Gbl) : dataBlocks { d with gbl := x } = dataBlocks d := rfl
@[simp] theorem dataBlocks_setPair (d : Dev) (n : Nat) (x : QPair) : dataBlocks (setPair d n x) = dataBlocks d := rfl
@[simp] theorem dataBlocks_setMbox (d : Dev) (n : Nat) (x : Mailbox) : dataBlocks (setMbox d n x) = dataBlocks d := rfl
@[simp] theorem dataBlocks_setRing (d : Dev) (n : Nat) (x : Ring) : dataBlocks (setRing d n x) = dataBlocks d := rfl
@[simp] theorem dataBlocks_setSess (d : Dev) (n : Nat) (x : CapSession) : dataBlocks (setSess n x d) = dataBlocks d := rfl
@[simp] theorem dataBlocks_setFunc (d : Dev) (b : Bool) (f : Func) : dataBlocks (setFunc d b f) = dataBlocks d := rfl
@[simp] theorem dataBlocks_withPba (b : Bool) (p : BitVec 64) (d : Dev) : dataBlocks (withPba b p d) = dataBlocks d := rfl
@[simp] theorem dataBlocks_setFlag_pub (i : Nat) (d : Dev) : dataBlocks (setFlag 0x0A i d) = dataBlocks d := rfl
@[simp] theorem dataBlocks_setFlag_cap (i : Nat) (d : Dev) : dataBlocks (setFlag 0x12 i d) = dataBlocks d := rfl
@[simp] theorem dataBlocks_setFlag_log (i : Nat) (d : Dev) : dataBlocks (setFlag 0x13 i d) = dataBlocks d := rfl

/-- Counting towards a second's summary. -/
@[simp] theorem dataBlocks_tally (k i n a : Nat) (d : Dev) : dataBlocks (tally k i n a d) = dataBlocks d := by
  unfold tally
  dsimp only
  split
  · split <;> rfl
  · rfl

/-- A record discarded for a ring. -/
@[simp] theorem dataBlocks_ringDrop (r t : Nat) (d : Dev) : dataBlocks (ringDrop r t d) = dataBlocks d := by simp [ringDrop]

/-- The end of a capture's release. -/
@[simp] theorem dataBlocks_capFree (s : Nat) (d : Dev) : dataBlocks (capFree s d) = dataBlocks d := by
  unfold capFree
  dsimp only
  split <;> simp

/-- A CAPTURE record lost. -/
@[simp] theorem dataBlocks_capLost (x : Bytes) (d : Dev) : dataBlocks (capLost x d) = dataBlocks d := by
  unfold capLost
  dsimp only
  split
  · split <;> simp
  · simp

/-- A CAPTURE record done with. -/
@[simp] theorem dataBlocks_capDone (x : Bytes) (d : Dev) : dataBlocks (capDone x d) = dataBlocks d := by
  unfold capDone
  dsimp only
  split
  · split <;> simp
  · simp

/-- The discard of a record. -/
@[simp] theorem dataBlocks_recDropped (x : HostRec) (d : Dev) : dataBlocks (recDropped x d) = dataBlocks d := by
  unfold recDropped
  split <;> simp

/-- A queue that has grown. -/
@[simp] theorem dataBlocks_queueGrew (q n : Nat) (d : Dev) : dataBlocks (queueGrew q n d) = dataBlocks d := by
  unfold queueGrew
  dsimp only
  split <;> split <;> rfl

/-- A record enqueued for a ring, or discarded. -/
@[simp] theorem dataBlocks_feed (r : Nat) (x : HostRec) (d : Dev) : dataBlocks (feed r x d) = dataBlocks d := by
  unfold feed
  dsimp only
  split
  · split
    · simp
    · rw [dataBlocks_recDropped, dataBlocks_ringDrop]
      split <;> simp
  · split <;> simp

/-- A record posted by its TYPE's route. -/
@[simp] theorem dataBlocks_postRecord (t : Nat) (a : Bytes) (m : List Bytes) (d : Dev) : dataBlocks (postRecord t a m d) = dataBlocks d :=
  dataBlocks_feed _ _ _

end Sys2Proof.Laws
end

