-- ==== Sys2Proof/Laws/Map.lean ====
section
/-!
SUPPORT. Sparse tables: a read after a write gives what was written, a write leaves every other key alone, and every operation keeps the
canonical form (keys strictly rising, no entry at the default).
-/
namespace Sys2Proof.Laws

open Sys2Proof.Machine

variable {α : Type}

theorem mfind_mset_same (m : NMap α) (n : Nat) (x : α) : mfind (mset m n x) n = some x := by
  induction m with
  | nil => simp [mset, mfind]
  | cons e t ih =>
    obtain ⟨k, v⟩ := e
    simp only [mset]
    split
    · simp [mfind]
    · split
      · simp [mfind]
      · rename_i h; simp [mfind, Ne.symm h, ih]

theorem mfind_mset_other (m : NMap α) {n j : Nat} (x : α) (h : j ≠ n) : mfind (mset m n x) j = mfind m j := by
  induction m with
  | nil => simp [mset, mfind, Ne.symm h]
  | cons e t ih =>
    obtain ⟨k, v⟩ := e
    simp only [mset]
    split
    · simp [mfind, Ne.symm h]
    · split
      · rename_i _ hk; subst hk; simp [mfind, Ne.symm h]
      · simp [mfind, ih]

theorem mfind_mdel_same (m : NMap α) (n : Nat) : mfind (mdel m n) n = none := by
  induction m with
  | nil => rfl
  | cons e t ih =>
    obtain ⟨k, v⟩ := e
    simp only [mdel]
    split
    · exact ih
    · simp [mfind, *]

theorem mfind_mdel_other (m : NMap α) {n j : Nat} (h : j ≠ n) : mfind (mdel m n) j = mfind m j := by
  induction m with
  | nil => rfl
  | cons e t ih =>
    obtain ⟨k, v⟩ := e
    simp only [mdel]
    split
    · rename_i hk; subst hk; simp [mfind, ih, Ne.symm h]
    · simp [mfind, ih]

/-- A read after a write gives the value written. -/
@[simp] theorem mget_mput_same [DecidableEq α] (d : α) (m : NMap α) (n : Nat) (x : α) : mget d (mput d m n x) n = x := by
  unfold mget mput
  split
  · rename_i h; simp [mfind_mdel_same, h]
  · simp [mfind_mset_same]

/-- A write leaves every other key alone. -/
theorem mget_mput_other [DecidableEq α] (d : α) (m : NMap α) {n j : Nat} (x : α) (h : j ≠ n) : mget d (mput d m n x) j = mget d m j := by
  unfold mget mput
  split
  · simp [mfind_mdel_other m h]
  · simp [mfind_mset_other m x h]

/-- Reads of an entry set, of one deleted, and of others. -/
@[simp] theorem mget_mset_same (d : α) (m : NMap α) (n : Nat) (x : α) : mget d (mset m n x) n = x := by simp [mget, mfind_mset_same]

/-- Keys below a bound. -/
def keysAbove (n : Nat) (m : NMap α) : Prop := ∀ e ∈ m, n < e.1

theorem mrising_cons {k : Nat} {v : α} {t : NMap α} : mrising ((k, v) :: t) = true ↔ keysAbove k t ∧ mrising t = true := by
  induction t generalizing k v with
  | nil => simp [mrising, keysAbove]
  | cons e t ih =>
    obtain ⟨j, w⟩ := e
    simp only [mrising, Bool.and_eq_true, decide_eq_true_eq]
    constructor
    · rintro ⟨h, r⟩
      refine ⟨?_, r⟩
      intro e he
      rcases List.mem_cons.mp he with rfl | he
      · exact h
      · exact Nat.lt_trans h ((ih.mp r).1 e he)
    · rintro ⟨h, r⟩
      exact ⟨h (j, w) (by simp), r⟩

theorem keysAbove_mdel {m : NMap α} {a : Nat} (n : Nat) (h : keysAbove a m) : keysAbove a (mdel m n) := by
  induction m with
  | nil => exact h
  | cons e t ih =>
    obtain ⟨k, v⟩ := e
    have ht : keysAbove a t := fun e he => h e (by simp [he])
    simp only [mdel]
    split
    · exact ih ht
    · intro e he
      rcases List.mem_cons.mp he with rfl | he
      · exact h (k, v) (by simp)
      · exact ih ht e he

theorem keysAbove_mset {m : NMap α} {a n : Nat} (x : α) (h : keysAbove a m) (hn : a < n) : keysAbove a (mset m n x) := by
  induction m with
  | nil => intro e he; simp [mset] at he; simpa [he] using hn
  | cons e t ih =>
    obtain ⟨k, v⟩ := e
    have ht : keysAbove a t := fun e he => h e (by simp [he])
    have hk : a < k := h (k, v) (by simp)
    simp only [mset]
    split
    · intro e he
      rcases List.mem_cons.mp he with rfl | he
      · exact hn
      · exact h e he
    · split
      · intro e he
        rcases List.mem_cons.mp he with rfl | he
        · exact hn
        · exact ht e he
      · intro e he
        rcases List.mem_cons.mp he with rfl | he
        · exact hk
        · exact ih ht e he

/-- Deleting keeps keys rising. -/
theorem mrising_mdel {m : NMap α} (n : Nat) (h : mrising m = true) : mrising (mdel m n) = true := by
  induction m with
  | nil => exact h
  | cons e t ih =>
    obtain ⟨k, v⟩ := e
    obtain ⟨ha, ht⟩ := mrising_cons.mp h
    simp only [mdel]
    split
    · exact ih ht
    · exact mrising_cons.mpr ⟨keysAbove_mdel n ha, ih ht⟩

/-- Setting keeps keys rising. -/
theorem mrising_mset {m : NMap α} (n : Nat) (x : α) (h : mrising m = true) : mrising (mset m n x) = true := by
  induction m with
  | nil => rfl
  | cons e t ih =>
    obtain ⟨k, v⟩ := e
    obtain ⟨ha, ht⟩ := mrising_cons.mp h
    simp only [mset]
    split
    · rename_i hlt
      refine mrising_cons.mpr ⟨?_, h⟩
      intro e he
      rcases List.mem_cons.mp he with rfl | he
      · exact hlt
      · exact Nat.lt_trans hlt (ha e he)
    · split
      · rename_i _ hk; subst hk; exact mrising_cons.mpr ⟨ha, ht⟩
      · rename_i h1 h2
        exact mrising_cons.mpr ⟨keysAbove_mset x ha (by omega), ih ht⟩

theorem all_mdel (p : Nat × α → Bool) {m : NMap α} (n : Nat) (h : m.all p = true) : (mdel m n).all p = true := by
  induction m with
  | nil => rfl
  | cons e t ih =>
    obtain ⟨k, v⟩ := e
    simp only [List.all_cons, Bool.and_eq_true] at h
    simp only [mdel]
    split
    · exact ih h.2
    · simp [h.1, ih h.2]

theorem all_mset (p : Nat × α → Bool) {m : NMap α} {n : Nat} {x : α} (h : m.all p = true) (hx : p (n, x) = true) :
    (mset m n x).all p = true := by
  induction m with
  | nil => simp [mset, hx]
  | cons e t ih =>
    obtain ⟨k, v⟩ := e
    simp only [List.all_cons, Bool.and_eq_true] at h
    simp only [mset]
    split
    · simp [hx, h.1, h.2]
    · split
      · simp [hx, h.2]
      · simp [h.1, ih h.2]

/-- Every write keeps the canonical form, so that equal tables are equal data. -/
theorem mwf_mput [DecidableEq α] {d : α} {m : NMap α} (n : Nat) (x : α) (h : mwf d m = true) : mwf d (mput d m n x) = true := by
  simp only [mwf, Bool.and_eq_true] at h ⊢
  unfold mput
  split
  · exact ⟨mrising_mdel n h.1, all_mdel _ n h.2⟩
  · rename_i hx; exact ⟨mrising_mset n x h.1, all_mset _ h.2 (by simp [hx])⟩

/-- Changing an entry keeps the canonical form. -/
theorem mwf_mmod [DecidableEq α] {d : α} {m : NMap α} (n : Nat) (f : α → α) (h : mwf d m = true) : mwf d (mmod d m n f) = true :=
  mwf_mput n _ h

end Sys2Proof.Laws
end

