-- ==== Sys2Proof/Laws/Packet.lean ====
section
/-!
SUPPORT. What the shared packet machinery does, said once: a packet that passes Table 16-2 runs its opcode's body on the started device.
-/
namespace Sys2Proof.Laws

open Sys2Proof.Machine Sys2Proof.Safety

/-- The answer to a command that executes on this unit alone ends it. -/
theorem localAnswer_local {h : Hdr} {op : Nat} {params : Bytes} {st : Status} {reply : Bytes} {d : Dev} (ht : isLocal h = true) :
    localAnswer h op params st reply d = finish h op params st reply d := by
  have hn : (d.hrd.forwarded.find? fun f => f.hdr.chan == h.chan && f.here.isNone && !isLocal h) = none := by
    simp [List.find?_eq_none, ht]
  simp only [localAnswer, hn]

/-- A packet that passes the checks of Table 16-2 and is for this unit alone runs its body on the started device. -/
theorem acceptCmd_passes {h : Hdr} {op : Nat} {params : Bytes} {hb : Bool} {block : Dev → BlockRead} {body : Dev → Answer} {d : Dev}
    (hp : passes h op params hb d) :
    acceptCmd h op params hb block body d =
      match (body (started h op params d)).2 with
      | some r => finish h op params r.1 r.2 (body (started h op params d)).1
      | none => refuseWaiting (body (started h op params d)).1 := by
  obtain ⟨hc, ht, hm, hf, ha⟩ := hp
  have hfl : headerBad h = false := by
    by_contra hx
    simp only [Bool.not_eq_false] at hx
    rw [acceptFault, if_pos hx] at ha
    exact absurd ha (by simp)
  simp only [acceptCmd, hc, if_true, hm, hfl, hf, ha, executeCmd, ht, applyAnswer, started]
  simp only [Bool.false_eq_true, if_false]
  split <;> simp_all [localAnswer_local]

/-- A packet command runs its packet through the shared machinery, with the opcode's own block and body. -/
theorem packet_runs (c : Instr) {x : Hdr × Nat × Bytes × Bool} (h : packetOf c = some x) :
    ∃ block body, ∀ s, exec c s = cmdWith x.1 x.2.1 x.2.2.1 x.2.2.2 block body s := by
  cases c <;> first | (injection h with h; subst h; exact ⟨_, _, fun _ => rfl⟩) | (exact absurd h (by simp [packetOf]))

/-- A packet with a block runs: the step's answer once the body's answer is known. -/
theorem cmdWith_ends {h : Hdr} {op : Nat} {params : Bytes} {hb : Bool} {block : Dev → BlockRead} {body : Dev → Answer} {s : State} {st : Status}
    {reply : Bytes} {e : Dev} (hp : passes h op params hb s.dev) (hbody : body (started h op params s.dev) = (e, some (st, reply))) :
    cmdWith h op params hb block body s = .next { s with dev := settle (finish h op params st reply e) } := by
  simp only [cmdWith, run, onDev, acceptCmd_passes hp, hbody]

/-- A packet runs: the step's answer once the body's answer is known. -/
theorem cmd_ends {h : Hdr} {op : Nat} {params : Bytes} {hb : Bool} {body : Dev → Answer} {s : State} {st : Status} {reply : Bytes} {e : Dev}
    (hp : passes h op params hb s.dev) (hbody : body (started h op params s.dev) = (e, some (st, reply))) :
    cmd h op params hb body s = .next { s with dev := settle (finish h op params st reply e) } := cmdWith_ends hp hbody

/-- A packet goes on executing: the step's answer once its effect is known. -/
theorem cmd_begins {h : Hdr} {op : Nat} {params : Bytes} {hb : Bool} {body : Dev → Answer} {s : State} {e : Dev}
    (hp : passes h op params hb s.dev) (hbody : body (started h op params s.dev) = (e, none)) :
    cmd h op params hb body s = .next { s with dev := settle (refuseWaiting e) } := by
  simp only [cmd, cmdWith, run, onDev, acceptCmd_passes hp, hbody]

/-- An opcode's own checks pass when none of their conditions holds. -/
theorem checks_pass {l : List (Bool × Status)} {eff : Dev → Answer} {d : Dev} (hn : l.find? Prod.fst = none) : checks l eff d = eff d := by
  simp [checks, hn]

/-- A staging command whose own condition holds writes the staged generation. -/
theorem stageWith_ok {bad : Bool} {ks ls : List Nat} {f : Gen → Gen} {d : Dev} (hb : bad = false) (hs : canStage ks ls d) :
    stageWith bad ks ls f d = okay (stagedBy ks ls f d) := by
  obtain ⟨hp, hl⟩ := hs
  have hx : (d.clk.firstBuilt && (4194304 < (addKeys ks d.clk.chgDir).length || 262144 < (addKeys ls d.clk.chgOther).length)) = false := by
    cases hf : d.clk.firstBuilt with
    | false => simp
    | true => have := hl hf; simp; omega
  simp [stageWith, checks, stagedShut, hp, hb, stage, hx, stagedBy]

/-- A parameter block that fits is read. -/
theorem withBlock_fits {src : BlockSrc} {h : Hdr} {len : Nat} {given : Bytes} {eff : Bytes → Dev → Answer} {d : Dev}
    (hf : blockFits src h len) : withBlock h src len given eff d = eff (paramBytes h src len given d) d := by
  have hn : blockFault h src len = none := by
    obtain hp | ⟨hl, ⟨hk, ha, hr⟩ | ⟨hk, hw⟩⟩ := hf
    · simp [blockFault, hp]
    all_goals subst hl
    · simp [blockFault, hk, ha, hr]
    · have : ¬ windowSize h < src.addr.toNat + src.len.toNat := by omega
      simp [blockFault, hk, this]
  simp [withBlock, hn]

/-- An event that the live device meets runs. -/
theorem runLive_next {f : Dev → Dev} {s : State} (hd : isLive s.dev = true) : runLive f s = .next { s with dev := settle (f s.dev) } := by
  simp [runLive, run, onDev, whenDo, hd]
/-- An event of the data path runs while CLK_CORE and CLK_MEM run. -/
theorem runCore_next {f : Dev → Dev} {s : State} (hd : coreRuns s.dev = true) : runCore f s = .next { s with dev := settle (f s.dev) } := by
  simp [runCore, run, onDev, whenDo, hd]
/-- An event of the engines runs while their clock runs. -/
theorem runEng_next {f : Dev → Dev} {s : State} (hd : engRuns s.dev = true) : runEng f s = .next { s with dev := settle (f s.dev) } := by
  simp [runEng, run, onDev, whenDo, hd]

end Sys2Proof.Laws
end

