-- ==== Sys2Proof/Laws/Settle.lean ====
section
/-!
SUPPORT. What following the interrupt outputs can do to a device: it writes the summaries and PBA bits of the PCIe functions, the summaries of
the two local-bus windows, INT_N and the outputs sent, and nothing else.
-/
namespace Sys2Proof.Laws

open Sys2Proof.Machine Sys2Proof.Safety

/-- What following the interrupt outputs leaves alone: every block but the host interfaces' own, and of those everything the interrupt conditions
and the lines depend on. -/
structure OnlyLines (d e : Dev) : Prop where
  clk : e.clk = d.clk
  pwr : e.pwr = d.pwr
  tod : e.tod = d.tod
  ports : e.ports = d.ports
  ing : e.ing = d.ing
  dir : e.dir = d.dir
  aln : e.aln = d.aln
  pub : e.pub = d.pub
  est : e.est = d.est
  osc : e.osc = d.osc
  isl : e.isl = d.isl
  alm : e.alm = d.alm
  lch : e.lch = d.lch
  cap : e.cap = d.cap
  lmf : e.lmf = d.lmf
  aux : e.aux = d.aux
  mtr : e.mtr = d.mtr
  key : e.key = d.key
  tmp : e.tmp = d.tmp
  cmd : e.cmd = d.cmd
  log : e.log = d.log
  hrd : e.hrd = d.hrd
  cnt : e.cnt = d.cnt
  snap : e.snap = d.snap
  cur : e.cur = d.cur
  staged : e.staged = d.staged
  old : e.old = d.old
  err : e.gbl.err = d.gbl.err
  lb : e.gbl.lbRunning = d.gbl.lbRunning
  en0 : e.gbl.pf0.intEn = d.gbl.pf0.intEn
  en1 : e.gbl.pf1.intEn = d.gbl.pf1.intEn

theorem OnlyLines.trans {a b c : Dev} (h : OnlyLines a b) (k : OnlyLines b c) : OnlyLines a c where
  clk := k.clk.trans h.clk
  pwr := k.pwr.trans h.pwr
  tod := k.tod.trans h.tod
  ports := k.ports.trans h.ports
  ing := k.ing.trans h.ing
  dir := k.dir.trans h.dir
  aln := k.aln.trans h.aln
  pub := k.pub.trans h.pub
  est := k.est.trans h.est
  osc := k.osc.trans h.osc
  isl := k.isl.trans h.isl
  alm := k.alm.trans h.alm
  lch := k.lch.trans h.lch
  cap := k.cap.trans h.cap
  lmf := k.lmf.trans h.lmf
  aux := k.aux.trans h.aux
  mtr := k.mtr.trans h.mtr
  key := k.key.trans h.key
  tmp := k.tmp.trans h.tmp
  cmd := k.cmd.trans h.cmd
  log := k.log.trans h.log
  hrd := k.hrd.trans h.hrd
  cnt := k.cnt.trans h.cnt
  snap := k.snap.trans h.snap
  cur := k.cur.trans h.cur
  staged := k.staged.trans h.staged
  old := k.old.trans h.old
  err := k.err.trans h.err
  lb := k.lb.trans h.lb
  en0 := k.en0.trans h.en0
  en1 := k.en1.trans h.en1

theorem OnlyLines.refl (d : Dev) : OnlyLines d d := by constructor <;> rfl

/-- A function replaced, its enables kept. -/
theorem setFunc_lines {d : Dev} {b : Bool} {f : Func} (h : f.intEn = (funcOf d b).intEn) : OnlyLines d (setFunc d b f) := by
  cases b
  · exact ⟨rfl, rfl, rfl, rfl, rfl, rfl, rfl, rfl, rfl, rfl, rfl, rfl, rfl, rfl, rfl, rfl, rfl, rfl, rfl, rfl, rfl, rfl, rfl, rfl, rfl, rfl, rfl, rfl, rfl, h, rfl⟩
  · exact ⟨rfl, rfl, rfl, rfl, rfl, rfl, rfl, rfl, rfl, rfl, rfl, rfl, rfl, rfl, rfl, rfl, rfl, rfl, rfl, rfl, rfl, rfl, rfl, rfl, rfl, rfl, rfl, rfl, rfl, rfl, h⟩

/-- A PBA replaced. -/
theorem withPba_lines (b : Bool) (p : BitVec 64) (d : Dev) : OnlyLines d (withPba b p d) := setFunc_lines rfl

/-- Sending a vector: a PBA bit, an output, or nothing. -/
theorem sendMsix_cases (b : Bool) (v : Nat) (d : Dev) :
    (∃ p, sendMsix b v d = withPba b p d) ∨ sendMsix b v d = emit (.msix b v) d ∨ sendMsix b v d = d := by
  unfold sendMsix
  dsimp only
  split
  · exact .inl ⟨_, rfl⟩
  · split
    · exact .inr (.inl rfl)
    · exact .inr (.inr rfl)

/-- Sending a vector leaves the rest alone. -/
theorem sendMsix_lines (b : Bool) (v : Nat) (d : Dev) : OnlyLines d (sendMsix b v d) := by
  obtain ⟨p, h⟩ | h | h := sendMsix_cases b v d <;> rw [h]
  · exact withPba_lines b p d
  · constructor <;> rfl
  · exact OnlyLines.refl d

/-- An interrupt condition reads only what the lines leave alone. -/
theorem intCond_lines {d e : Dev} (h : OnlyLines d e) (p : Path) (b : Nat) : intCond e p b = intCond d p b := by
  unfold intCond
  rw [h.err, h.tod, h.alm, h.cmd, h.pub, h.ing, h.ports, h.aln, h.est, h.osc, h.isl, h.lmf, h.aux, h.mtr, h.lch, h.cap, h.log, h.hrd, h.clk, h.pwr,
    h.key, h.tmp]

/-- A path's interrupt summary likewise, its enable copy kept. -/
theorem summaryOn_lines {d e : Dev} (h : OnlyLines d e) {p : Path} (hp : intEn e p = intEn d p) : summaryOn e p = summaryOn d p := by
  have hs : intStat e p = intStat d p := by simp only [intStat, intCond_lines h]
  simp only [summaryOn, hs, hp]

/-- INT_N driven. -/
theorem withIntN_lines (b : Bool) (d : Dev) : OnlyLines d (withIntN b d) := by constructor <;> rfl
/-- A function's summary kept. -/
theorem withSummary_lines (b on : Bool) (d : Dev) : OnlyLines d (withSummary b on d) := setFunc_lines rfl
/-- The windows' summaries kept. -/
theorem withWindows_lines (a b : Bool) (d : Dev) : OnlyLines d (withWindows a b d) := by constructor <;> rfl

/-- Following one function's summary: the summary is kept, and a vector may be sent. -/
theorem settleFunc_cases (b : Bool) (d : Dev) :
    ∃ e, e = withSummary b (summaryOn d (if b then .pf1 else .pf0)) d ∧ (settleFunc b d = e ∨ settleFunc b d = sendMsix b 0 e) := by
  refine ⟨_, rfl, ?_⟩
  unfold settleFunc
  dsimp only
  generalize summaryOn d _ = on
  split
  · exact .inr rfl
  · exact .inl rfl

/-- Following one function's summary leaves the rest alone. -/
theorem settleFunc_lines (b : Bool) (d : Dev) : OnlyLines d (settleFunc b d) := by
  unfold settleFunc
  dsimp only
  generalize summaryOn d _ = on
  split
  · exact (withSummary_lines b on d).trans (sendMsix_lines b 0 _)
  · exact withSummary_lines b on d

/-- Following INT_N. -/
theorem settleIntN_lines (d : Dev) : OnlyLines d (settleIntN d) := by
  unfold settleIntN
  split
  · exact withIntN_lines true d
  · split
    · exact withIntN_lines _ d
    · exact OnlyLines.refl d

/-- Following all of the interrupt outputs. -/
theorem settle_lines (d : Dev) : OnlyLines d (settle d) := by
  unfold settle
  dsimp only
  have h : OnlyLines d (if d.pwr.held then d else settleFunc true (settleFunc false d)) := by
    split
    · exact OnlyLines.refl d
    · exact (settleFunc_lines false d).trans (settleFunc_lines true _)
  exact (h.trans (withWindows_lines _ _ _)).trans (settleIntN_lines _)

end Sys2Proof.Laws
end

