-- ==== Sys2Proof/Laws/State.lean ====
section
/-!
SUPPORT. Laws of the state: what each named update leaves as it was, field by field, and what the read of the updated place gives.
-/
namespace Sys2Proof.Laws

open Sys2Proof Sys2Proof.Machine

variable (d : Dev)

/-! ### `setPort` writes `ports` alone -/

@[simp] theorem setPort_log (p : Nat) (x : Port) : (setPort d p x).log = d.log := rfl
@[simp] theorem setPort_cmd (p : Nat) (x : Port) : (setPort d p x).cmd = d.cmd := rfl
@[simp] theorem setPort_clk (p : Nat) (x : Port) : (setPort d p x).clk = d.clk := rfl
@[simp] theorem setPort_hrd (p : Nat) (x : Port) : (setPort d p x).hrd = d.hrd := rfl
@[simp] theorem setPort_gbl (p : Nat) (x : Port) : (setPort d p x).gbl = d.gbl := rfl
@[simp] theorem setPort_pwr (p : Nat) (x : Port) : (setPort d p x).pwr = d.pwr := rfl
@[simp] theorem setPort_tod (p : Nat) (x : Port) : (setPort d p x).tod = d.tod := rfl
@[simp] theorem setPort_pub (p : Nat) (x : Port) : (setPort d p x).pub = d.pub := rfl
@[simp] theorem setPort_ing (p : Nat) (x : Port) : (setPort d p x).ing = d.ing := rfl
@[simp] theorem setPort_dir (p : Nat) (x : Port) : (setPort d p x).dir = d.dir := rfl
@[simp] theorem setPort_aln (p : Nat) (x : Port) : (setPort d p x).aln = d.aln := rfl
@[simp] theorem setPort_est (p : Nat) (x : Port) : (setPort d p x).est = d.est := rfl
@[simp] theorem setPort_osc (p : Nat) (x : Port) : (setPort d p x).osc = d.osc := rfl
@[simp] theorem setPort_isl (p : Nat) (x : Port) : (setPort d p x).isl = d.isl := rfl
@[simp] theorem setPort_alm (p : Nat) (x : Port) : (setPort d p x).alm = d.alm := rfl
@[simp] theorem setPort_lch (p : Nat) (x : Port) : (setPort d p x).lch = d.lch := rfl
@[simp] theorem setPort_cap (p : Nat) (x : Port) : (setPort d p x).cap = d.cap := rfl
@[simp] theorem setPort_lmf (p : Nat) (x : Port) : (setPort d p x).lmf = d.lmf := rfl
@[simp] theorem setPort_aux (p : Nat) (x : Port) : (setPort d p x).aux = d.aux := rfl
@[simp] theorem setPort_mtr (p : Nat) (x : Port) : (setPort d p x).mtr = d.mtr := rfl
@[simp] theorem setPort_key (p : Nat) (x : Port) : (setPort d p x).key = d.key := rfl
@[simp] theorem setPort_tmp (p : Nat) (x : Port) : (setPort d p x).tmp = d.tmp := rfl
@[simp] theorem setPort_cur (p : Nat) (x : Port) : (setPort d p x).cur = d.cur := rfl
@[simp] theorem setPort_staged (p : Nat) (x : Port) : (setPort d p x).staged = d.staged := rfl
@[simp] theorem setPort_old (p : Nat) (x : Port) : (setPort d p x).old = d.old := rfl
@[simp] theorem setPort_cnt (p : Nat) (x : Port) : (setPort d p x).cnt = d.cnt := rfl
@[simp] theorem setPort_snap (p : Nat) (x : Port) : (setPort d p x).snap = d.snap := rfl
@[simp] theorem setPort_out (p : Nat) (x : Port) : (setPort d p x).out = d.out := rfl
@[simp] theorem setPort_draws (p : Nat) (x : Port) : (setPort d p x).draws = d.draws := rfl

/-! ### `setPair` writes `cmd` alone -/

@[simp] theorem setPair_log (q : Nat) (x : QPair) : (setPair d q x).log = d.log := rfl
@[simp] theorem setPair_clk (q : Nat) (x : QPair) : (setPair d q x).clk = d.clk := rfl
@[simp] theorem setPair_hrd (q : Nat) (x : QPair) : (setPair d q x).hrd = d.hrd := rfl
@[simp] theorem setPair_gbl (q : Nat) (x : QPair) : (setPair d q x).gbl = d.gbl := rfl
@[simp] theorem setPair_pwr (q : Nat) (x : QPair) : (setPair d q x).pwr = d.pwr := rfl
@[simp] theorem setPair_tod (q : Nat) (x : QPair) : (setPair d q x).tod = d.tod := rfl
@[simp] theorem setPair_ports (q : Nat) (x : QPair) : (setPair d q x).ports = d.ports := rfl
@[simp] theorem setPair_pub (q : Nat) (x : QPair) : (setPair d q x).pub = d.pub := rfl
@[simp] theorem setPair_ing (q : Nat) (x : QPair) : (setPair d q x).ing = d.ing := rfl
@[simp] theorem setPair_dir (q : Nat) (x : QPair) : (setPair d q x).dir = d.dir := rfl
@[simp] theorem setPair_aln (q : Nat) (x : QPair) : (setPair d q x).aln = d.aln := rfl
@[simp] theorem setPair_est (q : Nat) (x : QPair) : (setPair d q x).est = d.est := rfl
@[simp] theorem setPair_osc (q : Nat) (x : QPair) : (setPair d q x).osc = d.osc := rfl
@[simp] theorem setPair_isl (q : Nat) (x : QPair) : (setPair d q x).isl = d.isl := rfl
@[simp] theorem setPair_alm (q : Nat) (x : QPair) : (setPair d q x).alm = d.alm := rfl
@[simp] theorem setPair_lch (q : Nat) (x : QPair) : (setPair d q x).lch = d.lch := rfl
@[simp] theorem setPair_cap (q : Nat) (x : QPair) : (setPair d q x).cap = d.cap := rfl
@[simp] theorem setPair_lmf (q : Nat) (x : QPair) : (setPair d q x).lmf = d.lmf := rfl
@[simp] theorem setPair_aux (q : Nat) (x : QPair) : (setPair d q x).aux = d.aux := rfl
@[simp] theorem setPair_mtr (q : Nat) (x : QPair) : (setPair d q x).mtr = d.mtr := rfl
@[simp] theorem setPair_key (q : Nat) (x : QPair) : (setPair d q x).key = d.key := rfl
@[simp] theorem setPair_tmp (q : Nat) (x : QPair) : (setPair d q x).tmp = d.tmp := rfl
@[simp] theorem setPair_cur (q : Nat) (x : QPair) : (setPair d q x).cur = d.cur := rfl
@[simp] theorem setPair_staged (q : Nat) (x : QPair) : (setPair d q x).staged = d.staged := rfl
@[simp] theorem setPair_old (q : Nat) (x : QPair) : (setPair d q x).old = d.old := rfl
@[simp] theorem setPair_cnt (q : Nat) (x : QPair) : (setPair d q x).cnt = d.cnt := rfl
@[simp] theorem setPair_snap (q : Nat) (x : QPair) : (setPair d q x).snap = d.snap := rfl
@[simp] theorem setPair_out (q : Nat) (x : QPair) : (setPair d q x).out = d.out := rfl
@[simp] theorem setPair_draws (q : Nat) (x : QPair) : (setPair d q x).draws = d.draws := rfl

/-! ### `setMbox` writes `cmd` alone -/

@[simp] theorem setMbox_log (m : Nat) (x : Mailbox) : (setMbox d m x).log = d.log := rfl
@[simp] theorem setMbox_clk (m : Nat) (x : Mailbox) : (setMbox d m x).clk = d.clk := rfl
@[simp] theorem setMbox_hrd (m : Nat) (x : Mailbox) : (setMbox d m x).hrd = d.hrd := rfl
@[simp] theorem setMbox_gbl (m : Nat) (x : Mailbox) : (setMbox d m x).gbl = d.gbl := rfl
@[simp] theorem setMbox_pwr (m : Nat) (x : Mailbox) : (setMbox d m x).pwr = d.pwr := rfl
@[simp] theorem setMbox_tod (m : Nat) (x : Mailbox) : (setMbox d m x).tod = d.tod := rfl
@[simp] theorem setMbox_ports (m : Nat) (x : Mailbox) : (setMbox d m x).ports = d.ports := rfl
@[simp] theorem setMbox_pub (m : Nat) (x : Mailbox) : (setMbox d m x).pub = d.pub := rfl
@[simp] theorem setMbox_ing (m : Nat) (x : Mailbox) : (setMbox d m x).ing = d.ing := rfl
@[simp] theorem setMbox_dir (m : Nat) (x : Mailbox) : (setMbox d m x).dir = d.dir := rfl
@[simp] theorem setMbox_aln (m : Nat) (x : Mailbox) : (setMbox d m x).aln = d.aln := rfl
@[simp] theorem setMbox_est (m : Nat) (x : Mailbox) : (setMbox d m x).est = d.est := rfl
@[simp] theorem setMbox_osc (m : Nat) (x : Mailbox) : (setMbox d m x).osc = d.osc := rfl
@[simp] theorem setMbox_isl (m : Nat) (x : Mailbox) : (setMbox d m x).isl = d.isl := rfl
@[simp] theorem setMbox_alm (m : Nat) (x : Mailbox) : (setMbox d m x).alm = d.alm := rfl
@[simp] theorem setMbox_lch (m : Nat) (x : Mailbox) : (setMbox d m x).lch = d.lch := rfl
@[simp] theorem setMbox_cap (m : Nat) (x : Mailbox) : (setMbox d m x).cap = d.cap := rfl
@[simp] theorem setMbox_lmf (m : Nat) (x : Mailbox) : (setMbox d m x).lmf = d.lmf := rfl
@[simp] theorem setMbox_aux (m : Nat) (x : Mailbox) : (setMbox d m x).aux = d.aux := rfl
@[simp] theorem setMbox_mtr (m : Nat) (x : Mailbox) : (setMbox d m x).mtr = d.mtr := rfl
@[simp] theorem setMbox_key (m : Nat) (x : Mailbox) : (setMbox d m x).key = d.key := rfl
@[simp] theorem setMbox_tmp (m : Nat) (x : Mailbox) : (setMbox d m x).tmp = d.tmp := rfl
@[simp] theorem setMbox_cur (m : Nat) (x : Mailbox) : (setMbox d m x).cur = d.cur := rfl
@[simp] theorem setMbox_staged (m : Nat) (x : Mailbox) : (setMbox d m x).staged = d.staged := rfl
@[simp] theorem setMbox_old (m : Nat) (x : Mailbox) : (setMbox d m x).old = d.old := rfl
@[simp] theorem setMbox_cnt (m : Nat) (x : Mailbox) : (setMbox d m x).cnt = d.cnt := rfl
@[simp] theorem setMbox_snap (m : Nat) (x : Mailbox) : (setMbox d m x).snap = d.snap := rfl
@[simp] theorem setMbox_out (m : Nat) (x : Mailbox) : (setMbox d m x).out = d.out := rfl
@[simp] theorem setMbox_draws (m : Nat) (x : Mailbox) : (setMbox d m x).draws = d.draws := rfl

/-! ### `setRing` writes `pub` alone -/

@[simp] theorem setRing_log (r : Nat) (x : Ring) : (setRing d r x).log = d.log := rfl
@[simp] theorem setRing_cmd (r : Nat) (x : Ring) : (setRing d r x).cmd = d.cmd := rfl
@[simp] theorem setRing_clk (r : Nat) (x : Ring) : (setRing d r x).clk = d.clk := rfl
@[simp] theorem setRing_hrd (r : Nat) (x : Ring) : (setRing d r x).hrd = d.hrd := rfl
@[simp] theorem setRing_gbl (r : Nat) (x : Ring) : (setRing d r x).gbl = d.gbl := rfl
@[simp] theorem setRing_pwr (r : Nat) (x : Ring) : (setRing d r x).pwr = d.pwr := rfl
@[simp] theorem setRing_tod (r : Nat) (x : Ring) : (setRing d r x).tod = d.tod := rfl
@[simp] theorem setRing_ports (r : Nat) (x : Ring) : (setRing d r x).ports = d.ports := rfl
@[simp] theorem setRing_ing (r : Nat) (x : Ring) : (setRing d r x).ing = d.ing := rfl
@[simp] theorem setRing_dir (r : Nat) (x : Ring) : (setRing d r x).dir = d.dir := rfl
@[simp] theorem setRing_aln (r : Nat) (x : Ring) : (setRing d r x).aln = d.aln := rfl
@[simp] theorem setRing_est (r : Nat) (x : Ring) : (setRing d r x).est = d.est := rfl
@[simp] theorem setRing_osc (r : Nat) (x : Ring) : (setRing d r x).osc = d.osc := rfl
@[simp] theorem setRing_isl (r : Nat) (x : Ring) : (setRing d r x).isl = d.isl := rfl
@[simp] theorem setRing_alm (r : Nat) (x : Ring) : (setRing d r x).alm = d.alm := rfl
@[simp] theorem setRing_lch (r : Nat) (x : Ring) : (setRing d r x).lch = d.lch := rfl
@[simp] theorem setRing_cap (r : Nat) (x : Ring) : (setRing d r x).cap = d.cap := rfl
@[simp] theorem setRing_lmf (r : Nat) (x : Ring) : (setRing d r x).lmf = d.lmf := rfl
@[simp] theorem setRing_aux (r : Nat) (x : Ring) : (setRing d r x).aux = d.aux := rfl
@[simp] theorem setRing_mtr (r : Nat) (x : Ring) : (setRing d r x).mtr = d.mtr := rfl
@[simp] theorem setRing_key (r : Nat) (x : Ring) : (setRing d r x).key = d.key := rfl
@[simp] theorem setRing_tmp (r : Nat) (x : Ring) : (setRing d r x).tmp = d.tmp := rfl
@[simp] theorem setRing_cur (r : Nat) (x : Ring) : (setRing d r x).cur = d.cur := rfl
@[simp] theorem setRing_staged (r : Nat) (x : Ring) : (setRing d r x).staged = d.staged := rfl
@[simp] theorem setRing_old (r : Nat) (x : Ring) : (setRing d r x).old = d.old := rfl
@[simp] theorem setRing_cnt (r : Nat) (x : Ring) : (setRing d r x).cnt = d.cnt := rfl
@[simp] theorem setRing_snap (r : Nat) (x : Ring) : (setRing d r x).snap = d.snap := rfl
@[simp] theorem setRing_out (r : Nat) (x : Ring) : (setRing d r x).out = d.out := rfl
@[simp] theorem setRing_draws (r : Nat) (x : Ring) : (setRing d r x).draws = d.draws := rfl

/-! ### `setTpl` writes `pub` alone -/

@[simp] theorem setTpl_log (t : Nat) (x : TplRun) : (setTpl t x d).log = d.log := rfl
@[simp] theorem setTpl_cmd (t : Nat) (x : TplRun) : (setTpl t x d).cmd = d.cmd := rfl
@[simp] theorem setTpl_clk (t : Nat) (x : TplRun) : (setTpl t x d).clk = d.clk := rfl
@[simp] theorem setTpl_hrd (t : Nat) (x : TplRun) : (setTpl t x d).hrd = d.hrd := rfl
@[simp] theorem setTpl_gbl (t : Nat) (x : TplRun) : (setTpl t x d).gbl = d.gbl := rfl
@[simp] theorem setTpl_pwr (t : Nat) (x : TplRun) : (setTpl t x d).pwr = d.pwr := rfl
@[simp] theorem setTpl_tod (t : Nat) (x : TplRun) : (setTpl t x d).tod = d.tod := rfl
@[simp] theorem setTpl_ports (t : Nat) (x : TplRun) : (setTpl t x d).ports = d.ports := rfl
@[simp] theorem setTpl_ing (t : Nat) (x : TplRun) : (setTpl t x d).ing = d.ing := rfl
@[simp] theorem setTpl_dir (t : Nat) (x : TplRun) : (setTpl t x d).dir = d.dir := rfl
@[simp] theorem setTpl_aln (t : Nat) (x : TplRun) : (setTpl t x d).aln = d.aln := rfl
@[simp] theorem setTpl_est (t : Nat) (x : TplRun) : (setTpl t x d).est = d.est := rfl
@[simp] theorem setTpl_osc (t : Nat) (x : TplRun) : (setTpl t x d).osc = d.osc := rfl
@[simp] theorem setTpl_isl (t : Nat) (x : TplRun) : (setTpl t x d).isl = d.isl := rfl
@[simp] theorem setTpl_alm (t : Nat) (x : TplRun) : (setTpl t x d).alm = d.alm := rfl
@[simp] theorem setTpl_lch (t : Nat) (x : TplRun) : (setTpl t x d).lch = d.lch := rfl
@[simp] theorem setTpl_cap (t : Nat) (x : TplRun) : (setTpl t x d).cap = d.cap := rfl
@[simp] theorem setTpl_lmf (t : Nat) (x : TplRun) : (setTpl t x d).lmf = d.lmf := rfl
@[simp] theorem setTpl_aux (t : Nat) (x : TplRun) : (setTpl t x d).aux = d.aux := rfl
@[simp] theorem setTpl_mtr (t : Nat) (x : TplRun) : (setTpl t x d).mtr = d.mtr := rfl
@[simp] theorem setTpl_key (t : Nat) (x : TplRun) : (setTpl t x d).key = d.key := rfl
@[simp] theorem setTpl_tmp (t : Nat) (x : TplRun) : (setTpl t x d).tmp = d.tmp := rfl
@[simp] theorem setTpl_cur (t : Nat) (x : TplRun) : (setTpl t x d).cur = d.cur := rfl
@[simp] theorem setTpl_staged (t : Nat) (x : TplRun) : (setTpl t x d).staged = d.staged := rfl
@[simp] theorem setTpl_old (t : Nat) (x : TplRun) : (setTpl t x d).old = d.old := rfl
@[simp] theorem setTpl_cnt (t : Nat) (x : TplRun) : (setTpl t x d).cnt = d.cnt := rfl
@[simp] theorem setTpl_snap (t : Nat) (x : TplRun) : (setTpl t x d).snap = d.snap := rfl
@[simp] theorem setTpl_out (t : Nat) (x : TplRun) : (setTpl t x d).out = d.out := rfl
@[simp] theorem setTpl_draws (t : Nat) (x : TplRun) : (setTpl t x d).draws = d.draws := rfl

/-! ### `setStream` writes `ing` alone -/

@[simp] theorem setStream_log (k : Nat) (x : StreamRun) : (setStream k x d).log = d.log := rfl
@[simp] theorem setStream_cmd (k : Nat) (x : StreamRun) : (setStream k x d).cmd = d.cmd := rfl
@[simp] theorem setStream_clk (k : Nat) (x : StreamRun) : (setStream k x d).clk = d.clk := rfl
@[simp] theorem setStream_hrd (k : Nat) (x : StreamRun) : (setStream k x d).hrd = d.hrd := rfl
@[simp] theorem setStream_gbl (k : Nat) (x : StreamRun) : (setStream k x d).gbl = d.gbl := rfl
@[simp] theorem setStream_pwr (k : Nat) (x : StreamRun) : (setStream k x d).pwr = d.pwr := rfl
@[simp] theorem setStream_tod (k : Nat) (x : StreamRun) : (setStream k x d).tod = d.tod := rfl
@[simp] theorem setStream_ports (k : Nat) (x : StreamRun) : (setStream k x d).ports = d.ports := rfl
@[simp] theorem setStream_pub (k : Nat) (x : StreamRun) : (setStream k x d).pub = d.pub := rfl
@[simp] theorem setStream_dir (k : Nat) (x : StreamRun) : (setStream k x d).dir = d.dir := rfl
@[simp] theorem setStream_aln (k : Nat) (x : StreamRun) : (setStream k x d).aln = d.aln := rfl
@[simp] theorem setStream_est (k : Nat) (x : StreamRun) : (setStream k x d).est = d.est := rfl
@[simp] theorem setStream_osc (k : Nat) (x : StreamRun) : (setStream k x d).osc = d.osc := rfl
@[simp] theorem setStream_isl (k : Nat) (x : StreamRun) : (setStream k x d).isl = d.isl := rfl
@[simp] theorem setStream_alm (k : Nat) (x : StreamRun) : (setStream k x d).alm = d.alm := rfl
@[simp] theorem setStream_lch (k : Nat) (x : StreamRun) : (setStream k x d).lch = d.lch := rfl
@[simp] theorem setStream_cap (k : Nat) (x : StreamRun) : (setStream k x d).cap = d.cap := rfl
@[simp] theorem setStream_lmf (k : Nat) (x : StreamRun) : (setStream k x d).lmf = d.lmf := rfl
@[simp] theorem setStream_aux (k : Nat) (x : StreamRun) : (setStream k x d).aux = d.aux := rfl
@[simp] theorem setStream_mtr (k : Nat) (x : StreamRun) : (setStream k x d).mtr = d.mtr := rfl
@[simp] theorem setStream_key (k : Nat) (x : StreamRun) : (setStream k x d).key = d.key := rfl
@[simp] theorem setStream_tmp (k : Nat) (x : StreamRun) : (setStream k x d).tmp = d.tmp := rfl
@[simp] theorem setStream_cur (k : Nat) (x : StreamRun) : (setStream k x d).cur = d.cur := rfl
@[simp] theorem setStream_staged (k : Nat) (x : StreamRun) : (setStream k x d).staged = d.staged := rfl
@[simp] theorem setStream_old (k : Nat) (x : StreamRun) : (setStream k x d).old = d.old := rfl
@[simp] theorem setStream_cnt (k : Nat) (x : StreamRun) : (setStream k x d).cnt = d.cnt := rfl
@[simp] theorem setStream_snap (k : Nat) (x : StreamRun) : (setStream k x d).snap = d.snap := rfl
@[simp] theorem setStream_out (k : Nat) (x : StreamRun) : (setStream k x d).out = d.out := rfl
@[simp] theorem setStream_draws (k : Nat) (x : StreamRun) : (setStream k x d).draws = d.draws := rfl

/-! ### `setHostRing` writes `ing` alone -/

@[simp] theorem setHostRing_log (r : Nat) (x : HostRing) : (setHostRing r x d).log = d.log := rfl
@[simp] theorem setHostRing_cmd (r : Nat) (x : HostRing) : (setHostRing r x d).cmd = d.cmd := rfl
@[simp] theorem setHostRing_clk (r : Nat) (x : HostRing) : (setHostRing r x d).clk = d.clk := rfl
@[simp] theorem setHostRing_hrd (r : Nat) (x : HostRing) : (setHostRing r x d).hrd = d.hrd := rfl
@[simp] theorem setHostRing_gbl (r : Nat) (x : HostRing) : (setHostRing r x d).gbl = d.gbl := rfl
@[simp] theorem setHostRing_pwr (r : Nat) (x : HostRing) : (setHostRing r x d).pwr = d.pwr := rfl
@[simp] theorem setHostRing_tod (r : Nat) (x : HostRing) : (setHostRing r x d).tod = d.tod := rfl
@[simp] theorem setHostRing_ports (r : Nat) (x : HostRing) : (setHostRing r x d).ports = d.ports := rfl
@[simp] theorem setHostRing_pub (r : Nat) (x : HostRing) : (setHostRing r x d).pub = d.pub := rfl
@[simp] theorem setHostRing_dir (r : Nat) (x : HostRing) : (setHostRing r x d).dir = d.dir := rfl
@[simp] theorem setHostRing_aln (r : Nat) (x : HostRing) : (setHostRing r x d).aln = d.aln := rfl
@[simp] theorem setHostRing_est (r : Nat) (x : HostRing) : (setHostRing r x d).est = d.est := rfl
@[simp] theorem setHostRing_osc (r : Nat) (x : HostRing) : (setHostRing r x d).osc = d.osc := rfl
@[simp] theorem setHostRing_isl (r : Nat) (x : HostRing) : (setHostRing r x d).isl = d.isl := rfl
@[simp] theorem setHostRing_alm (r : Nat) (x : HostRing) : (setHostRing r x d).alm = d.alm := rfl
@[simp] theorem setHostRing_lch (r : Nat) (x : HostRing) : (setHostRing r x d).lch = d.lch := rfl
@[simp] theorem setHostRing_cap (r : Nat) (x : HostRing) : (setHostRing r x d).cap = d.cap := rfl
@[simp] theorem setHostRing_lmf (r : Nat) (x : HostRing) : (setHostRing r x d).lmf = d.lmf := rfl
@[simp] theorem setHostRing_aux (r : Nat) (x : HostRing) : (setHostRing r x d).aux = d.aux := rfl
@[simp] theorem setHostRing_mtr (r : Nat) (x : HostRing) : (setHostRing r x d).mtr = d.mtr := rfl
@[simp] theorem setHostRing_key (r : Nat) (x : HostRing) : (setHostRing r x d).key = d.key := rfl
@[simp] theorem setHostRing_tmp (r : Nat) (x : HostRing) : (setHostRing r x d).tmp = d.tmp := rfl
@[simp] theorem setHostRing_cur (r : Nat) (x : HostRing) : (setHostRing r x d).cur = d.cur := rfl
@[simp] theorem setHostRing_staged (r : Nat) (x : HostRing) : (setHostRing r x d).staged = d.staged := rfl
@[simp] theorem setHostRing_old (r : Nat) (x : HostRing) : (setHostRing r x d).old = d.old := rfl
@[simp] theorem setHostRing_cnt (r : Nat) (x : HostRing) : (setHostRing r x d).cnt = d.cnt := rfl
@[simp] theorem setHostRing_snap (r : Nat) (x : HostRing) : (setHostRing r x d).snap = d.snap := rfl
@[simp] theorem setHostRing_out (r : Nat) (x : HostRing) : (setHostRing r x d).out = d.out := rfl
@[simp] theorem setHostRing_draws (r : Nat) (x : HostRing) : (setHostRing r x d).draws = d.draws := rfl

/-! ### `setDirWin` writes `dir` alone -/

@[simp] theorem setDirWin_log (p : Path) (x : DirWin) : (setDirWin p x d).log = d.log := by cases p <;> rfl
@[simp] theorem setDirWin_cmd (p : Path) (x : DirWin) : (setDirWin p x d).cmd = d.cmd := by cases p <;> rfl
@[simp] theorem setDirWin_clk (p : Path) (x : DirWin) : (setDirWin p x d).clk = d.clk := by cases p <;> rfl
@[simp] theorem setDirWin_hrd (p : Path) (x : DirWin) : (setDirWin p x d).hrd = d.hrd := by cases p <;> rfl
@[simp] theorem setDirWin_gbl (p : Path) (x : DirWin) : (setDirWin p x d).gbl = d.gbl := by cases p <;> rfl
@[simp] theorem setDirWin_pwr (p : Path) (x : DirWin) : (setDirWin p x d).pwr = d.pwr := by cases p <;> rfl
@[simp] theorem setDirWin_tod (p : Path) (x : DirWin) : (setDirWin p x d).tod = d.tod := by cases p <;> rfl
@[simp] theorem setDirWin_ports (p : Path) (x : DirWin) : (setDirWin p x d).ports = d.ports := by cases p <;> rfl
@[simp] theorem setDirWin_pub (p : Path) (x : DirWin) : (setDirWin p x d).pub = d.pub := by cases p <;> rfl
@[simp] theorem setDirWin_ing (p : Path) (x : DirWin) : (setDirWin p x d).ing = d.ing := by cases p <;> rfl
@[simp] theorem setDirWin_aln (p : Path) (x : DirWin) : (setDirWin p x d).aln = d.aln := by cases p <;> rfl
@[simp] theorem setDirWin_est (p : Path) (x : DirWin) : (setDirWin p x d).est = d.est := by cases p <;> rfl
@[simp] theorem setDirWin_osc (p : Path) (x : DirWin) : (setDirWin p x d).osc = d.osc := by cases p <;> rfl
@[simp] theorem setDirWin_isl (p : Path) (x : DirWin) : (setDirWin p x d).isl = d.isl := by cases p <;> rfl
@[simp] theorem setDirWin_alm (p : Path) (x : DirWin) : (setDirWin p x d).alm = d.alm := by cases p <;> rfl
@[simp] theorem setDirWin_lch (p : Path) (x : DirWin) : (setDirWin p x d).lch = d.lch := by cases p <;> rfl
@[simp] theorem setDirWin_cap (p : Path) (x : DirWin) : (setDirWin p x d).cap = d.cap := by cases p <;> rfl
@[simp] theorem setDirWin_lmf (p : Path) (x : DirWin) : (setDirWin p x d).lmf = d.lmf := by cases p <;> rfl
@[simp] theorem setDirWin_aux (p : Path) (x : DirWin) : (setDirWin p x d).aux = d.aux := by cases p <;> rfl
@[simp] theorem setDirWin_mtr (p : Path) (x : DirWin) : (setDirWin p x d).mtr = d.mtr := by cases p <;> rfl
@[simp] theorem setDirWin_key (p : Path) (x : DirWin) : (setDirWin p x d).key = d.key := by cases p <;> rfl
@[simp] theorem setDirWin_tmp (p : Path) (x : DirWin) : (setDirWin p x d).tmp = d.tmp := by cases p <;> rfl
@[simp] theorem setDirWin_cur (p : Path) (x : DirWin) : (setDirWin p x d).cur = d.cur := by cases p <;> rfl
@[simp] theorem setDirWin_staged (p : Path) (x : DirWin) : (setDirWin p x d).staged = d.staged := by cases p <;> rfl
@[simp] theorem setDirWin_old (p : Path) (x : DirWin) : (setDirWin p x d).old = d.old := by cases p <;> rfl
@[simp] theorem setDirWin_cnt (p : Path) (x : DirWin) : (setDirWin p x d).cnt = d.cnt := by cases p <;> rfl
@[simp] theorem setDirWin_snap (p : Path) (x : DirWin) : (setDirWin p x d).snap = d.snap := by cases p <;> rfl
@[simp] theorem setDirWin_out (p : Path) (x : DirWin) : (setDirWin p x d).out = d.out := by cases p <;> rfl
@[simp] theorem setDirWin_draws (p : Path) (x : DirWin) : (setDirWin p x d).draws = d.draws := by cases p <;> rfl

/-! ### `setOs` writes `aln` alone -/

@[simp] theorem setOs_log (o : Nat) (x : OsRun) : (setOs o x d).log = d.log := rfl
@[simp] theorem setOs_cmd (o : Nat) (x : OsRun) : (setOs o x d).cmd = d.cmd := rfl
@[simp] theorem setOs_clk (o : Nat) (x : OsRun) : (setOs o x d).clk = d.clk := rfl
@[simp] theorem setOs_hrd (o : Nat) (x : OsRun) : (setOs o x d).hrd = d.hrd := rfl
@[simp] theorem setOs_gbl (o : Nat) (x : OsRun) : (setOs o x d).gbl = d.gbl := rfl
@[simp] theorem setOs_pwr (o : Nat) (x : OsRun) : (setOs o x d).pwr = d.pwr := rfl
@[simp] theorem setOs_tod (o : Nat) (x : OsRun) : (setOs o x d).tod = d.tod := rfl
@[simp] theorem setOs_ports (o : Nat) (x : OsRun) : (setOs o x d).ports = d.ports := rfl
@[simp] theorem setOs_pub (o : Nat) (x : OsRun) : (setOs o x d).pub = d.pub := rfl
@[simp] theorem setOs_ing (o : Nat) (x : OsRun) : (setOs o x d).ing = d.ing := rfl
@[simp] theorem setOs_dir (o : Nat) (x : OsRun) : (setOs o x d).dir = d.dir := rfl
@[simp] theorem setOs_est (o : Nat) (x : OsRun) : (setOs o x d).est = d.est := rfl
@[simp] theorem setOs_osc (o : Nat) (x : OsRun) : (setOs o x d).osc = d.osc := rfl
@[simp] theorem setOs_isl (o : Nat) (x : OsRun) : (setOs o x d).isl = d.isl := rfl
@[simp] theorem setOs_alm (o : Nat) (x : OsRun) : (setOs o x d).alm = d.alm := rfl
@[simp] theorem setOs_lch (o : Nat) (x : OsRun) : (setOs o x d).lch = d.lch := rfl
@[simp] theorem setOs_cap (o : Nat) (x : OsRun) : (setOs o x d).cap = d.cap := rfl
@[simp] theorem setOs_lmf (o : Nat) (x : OsRun) : (setOs o x d).lmf = d.lmf := rfl
@[simp] theorem setOs_aux (o : Nat) (x : OsRun) : (setOs o x d).aux = d.aux := rfl
@[simp] theorem setOs_mtr (o : Nat) (x : OsRun) : (setOs o x d).mtr = d.mtr := rfl
@[simp] theorem setOs_key (o : Nat) (x : OsRun) : (setOs o x d).key = d.key := rfl
@[simp] theorem setOs_tmp (o : Nat) (x : OsRun) : (setOs o x d).tmp = d.tmp := rfl
@[simp] theorem setOs_cur (o : Nat) (x : OsRun) : (setOs o x d).cur = d.cur := rfl
@[simp] theorem setOs_staged (o : Nat) (x : OsRun) : (setOs o x d).staged = d.staged := rfl
@[simp] theorem setOs_old (o : Nat) (x : OsRun) : (setOs o x d).old = d.old := rfl
@[simp] theorem setOs_cnt (o : Nat) (x : OsRun) : (setOs o x d).cnt = d.cnt := rfl
@[simp] theorem setOs_snap (o : Nat) (x : OsRun) : (setOs o x d).snap = d.snap := rfl
@[simp] theorem setOs_out (o : Nat) (x : OsRun) : (setOs o x d).out = d.out := rfl
@[simp] theorem setOs_draws (o : Nat) (x : OsRun) : (setOs o x d).draws = d.draws := rfl

/-! ### `setMembRun` writes `aln` alone -/

@[simp] theorem setMembRun_log (m : Nat) (x : MembRun) : (setMembRun m x d).log = d.log := rfl
@[simp] theorem setMembRun_cmd (m : Nat) (x : MembRun) : (setMembRun m x d).cmd = d.cmd := rfl
@[simp] theorem setMembRun_clk (m : Nat) (x : MembRun) : (setMembRun m x d).clk = d.clk := rfl
@[simp] theorem setMembRun_hrd (m : Nat) (x : MembRun) : (setMembRun m x d).hrd = d.hrd := rfl
@[simp] theorem setMembRun_gbl (m : Nat) (x : MembRun) : (setMembRun m x d).gbl = d.gbl := rfl
@[simp] theorem setMembRun_pwr (m : Nat) (x : MembRun) : (setMembRun m x d).pwr = d.pwr := rfl
@[simp] theorem setMembRun_tod (m : Nat) (x : MembRun) : (setMembRun m x d).tod = d.tod := rfl
@[simp] theorem setMembRun_ports (m : Nat) (x : MembRun) : (setMembRun m x d).ports = d.ports := rfl
@[simp] theorem setMembRun_pub (m : Nat) (x : MembRun) : (setMembRun m x d).pub = d.pub := rfl
@[simp] theorem setMembRun_ing (m : Nat) (x : MembRun) : (setMembRun m x d).ing = d.ing := rfl
@[simp] theorem setMembRun_dir (m : Nat) (x : MembRun) : (setMembRun m x d).dir = d.dir := rfl
@[simp] theorem setMembRun_est (m : Nat) (x : MembRun) : (setMembRun m x d).est = d.est := rfl
@[simp] theorem setMembRun_osc (m : Nat) (x : MembRun) : (setMembRun m x d).osc = d.osc := rfl
@[simp] theorem setMembRun_isl (m : Nat) (x : MembRun) : (setMembRun m x d).isl = d.isl := rfl
@[simp] theorem setMembRun_alm (m : Nat) (x : MembRun) : (setMembRun m x d).alm = d.alm := rfl
@[simp] theorem setMembRun_lch (m : Nat) (x : MembRun) : (setMembRun m x d).lch = d.lch := rfl
@[simp] theorem setMembRun_cap (m : Nat) (x : MembRun) : (setMembRun m x d).cap = d.cap := rfl
@[simp] theorem setMembRun_lmf (m : Nat) (x : MembRun) : (setMembRun m x d).lmf = d.lmf := rfl
@[simp] theorem setMembRun_aux (m : Nat) (x : MembRun) : (setMembRun m x d).aux = d.aux := rfl
@[simp] theorem setMembRun_mtr (m : Nat) (x : MembRun) : (setMembRun m x d).mtr = d.mtr := rfl
@[simp] theorem setMembRun_key (m : Nat) (x : MembRun) : (setMembRun m x d).key = d.key := rfl
@[simp] theorem setMembRun_tmp (m : Nat) (x : MembRun) : (setMembRun m x d).tmp = d.tmp := rfl
@[simp] theorem setMembRun_cur (m : Nat) (x : MembRun) : (setMembRun m x d).cur = d.cur := rfl
@[simp] theorem setMembRun_staged (m : Nat) (x : MembRun) : (setMembRun m x d).staged = d.staged := rfl
@[simp] theorem setMembRun_old (m : Nat) (x : MembRun) : (setMembRun m x d).old = d.old := rfl
@[simp] theorem setMembRun_cnt (m : Nat) (x : MembRun) : (setMembRun m x d).cnt = d.cnt := rfl
@[simp] theorem setMembRun_snap (m : Nat) (x : MembRun) : (setMembRun m x d).snap = d.snap := rfl
@[simp] theorem setMembRun_out (m : Nat) (x : MembRun) : (setMembRun m x d).out = d.out := rfl
@[simp] theorem setMembRun_draws (m : Nat) (x : MembRun) : (setMembRun m x d).draws = d.draws := rfl

/-! ### `setStreamAln` writes `aln` alone -/

@[simp] theorem setStreamAln_log (k : Nat) (x : StreamAln) : (setStreamAln k x d).log = d.log := rfl
@[simp] theorem setStreamAln_cmd (k : Nat) (x : StreamAln) : (setStreamAln k x d).cmd = d.cmd := rfl
@[simp] theorem setStreamAln_clk (k : Nat) (x : StreamAln) : (setStreamAln k x d).clk = d.clk := rfl
@[simp] theorem setStreamAln_hrd (k : Nat) (x : StreamAln) : (setStreamAln k x d).hrd = d.hrd := rfl
@[simp] theorem setStreamAln_gbl (k : Nat) (x : StreamAln) : (setStreamAln k x d).gbl = d.gbl := rfl
@[simp] theorem setStreamAln_pwr (k : Nat) (x : StreamAln) : (setStreamAln k x d).pwr = d.pwr := rfl
@[simp] theorem setStreamAln_tod (k : Nat) (x : StreamAln) : (setStreamAln k x d).tod = d.tod := rfl
@[simp] theorem setStreamAln_ports (k : Nat) (x : StreamAln) : (setStreamAln k x d).ports = d.ports := rfl
@[simp] theorem setStreamAln_pub (k : Nat) (x : StreamAln) : (setStreamAln k x d).pub = d.pub := rfl
@[simp] theorem setStreamAln_ing (k : Nat) (x : StreamAln) : (setStreamAln k x d).ing = d.ing := rfl
@[simp] theorem setStreamAln_dir (k : Nat) (x : StreamAln) : (setStreamAln k x d).dir = d.dir := rfl
@[simp] theorem setStreamAln_est (k : Nat) (x : StreamAln) : (setStreamAln k x d).est = d.est := rfl
@[simp] theorem setStreamAln_osc (k : Nat) (x : StreamAln) : (setStreamAln k x d).osc = d.osc := rfl
@[simp] theorem setStreamAln_isl (k : Nat) (x : StreamAln) : (setStreamAln k x d).isl = d.isl := rfl
@[simp] theorem setStreamAln_alm (k : Nat) (x : StreamAln) : (setStreamAln k x d).alm = d.alm := rfl
@[simp] theorem setStreamAln_lch (k : Nat) (x : StreamAln) : (setStreamAln k x d).lch = d.lch := rfl
@[simp] theorem setStreamAln_cap (k : Nat) (x : StreamAln) : (setStreamAln k x d).cap = d.cap := rfl
@[simp] theorem setStreamAln_lmf (k : Nat) (x : StreamAln) : (setStreamAln k x d).lmf = d.lmf := rfl
@[simp] theorem setStreamAln_aux (k : Nat) (x : StreamAln) : (setStreamAln k x d).aux = d.aux := rfl
@[simp] theorem setStreamAln_mtr (k : Nat) (x : StreamAln) : (setStreamAln k x d).mtr = d.mtr := rfl
@[simp] theorem setStreamAln_key (k : Nat) (x : StreamAln) : (setStreamAln k x d).key = d.key := rfl
@[simp] theorem setStreamAln_tmp (k : Nat) (x : StreamAln) : (setStreamAln k x d).tmp = d.tmp := rfl
@[simp] theorem setStreamAln_cur (k : Nat) (x : StreamAln) : (setStreamAln k x d).cur = d.cur := rfl
@[simp] theorem setStreamAln_staged (k : Nat) (x : StreamAln) : (setStreamAln k x d).staged = d.staged := rfl
@[simp] theorem setStreamAln_old (k : Nat) (x : StreamAln) : (setStreamAln k x d).old = d.old := rfl
@[simp] theorem setStreamAln_cnt (k : Nat) (x : StreamAln) : (setStreamAln k x d).cnt = d.cnt := rfl
@[simp] theorem setStreamAln_snap (k : Nat) (x : StreamAln) : (setStreamAln k x d).snap = d.snap := rfl
@[simp] theorem setStreamAln_out (k : Nat) (x : StreamAln) : (setStreamAln k x d).out = d.out := rfl
@[simp] theorem setStreamAln_draws (k : Nat) (x : StreamAln) : (setStreamAln k x d).draws = d.draws := rfl

/-! ### `setSource` writes `alm` alone -/

@[simp] theorem setSource_log (n : Nat) (x : SrcState) : (setSource n x d).log = d.log := rfl
@[simp] theorem setSource_cmd (n : Nat) (x : SrcState) : (setSource n x d).cmd = d.cmd := rfl
@[simp] theorem setSource_clk (n : Nat) (x : SrcState) : (setSource n x d).clk = d.clk := rfl
@[simp] theorem setSource_hrd (n : Nat) (x : SrcState) : (setSource n x d).hrd = d.hrd := rfl
@[simp] theorem setSource_gbl (n : Nat) (x : SrcState) : (setSource n x d).gbl = d.gbl := rfl
@[simp] theorem setSource_pwr (n : Nat) (x : SrcState) : (setSource n x d).pwr = d.pwr := rfl
@[simp] theorem setSource_tod (n : Nat) (x : SrcState) : (setSource n x d).tod = d.tod := rfl
@[simp] theorem setSource_ports (n : Nat) (x : SrcState) : (setSource n x d).ports = d.ports := rfl
@[simp] theorem setSource_pub (n : Nat) (x : SrcState) : (setSource n x d).pub = d.pub := rfl
@[simp] theorem setSource_ing (n : Nat) (x : SrcState) : (setSource n x d).ing = d.ing := rfl
@[simp] theorem setSource_dir (n : Nat) (x : SrcState) : (setSource n x d).dir = d.dir := rfl
@[simp] theorem setSource_aln (n : Nat) (x : SrcState) : (setSource n x d).aln = d.aln := rfl
@[simp] theorem setSource_est (n : Nat) (x : SrcState) : (setSource n x d).est = d.est := rfl
@[simp] theorem setSource_osc (n : Nat) (x : SrcState) : (setSource n x d).osc = d.osc := rfl
@[simp] theorem setSource_isl (n : Nat) (x : SrcState) : (setSource n x d).isl = d.isl := rfl
@[simp] theorem setSource_lch (n : Nat) (x : SrcState) : (setSource n x d).lch = d.lch := rfl
@[simp] theorem setSource_cap (n : Nat) (x : SrcState) : (setSource n x d).cap = d.cap := rfl
@[simp] theorem setSource_lmf (n : Nat) (x : SrcState) : (setSource n x d).lmf = d.lmf := rfl
@[simp] theorem setSource_aux (n : Nat) (x : SrcState) : (setSource n x d).aux = d.aux := rfl
@[simp] theorem setSource_mtr (n : Nat) (x : SrcState) : (setSource n x d).mtr = d.mtr := rfl
@[simp] theorem setSource_key (n : Nat) (x : SrcState) : (setSource n x d).key = d.key := rfl
@[simp] theorem setSource_tmp (n : Nat) (x : SrcState) : (setSource n x d).tmp = d.tmp := rfl
@[simp] theorem setSource_cur (n : Nat) (x : SrcState) : (setSource n x d).cur = d.cur := rfl
@[simp] theorem setSource_staged (n : Nat) (x : SrcState) : (setSource n x d).staged = d.staged := rfl
@[simp] theorem setSource_old (n : Nat) (x : SrcState) : (setSource n x d).old = d.old := rfl
@[simp] theorem setSource_cnt (n : Nat) (x : SrcState) : (setSource n x d).cnt = d.cnt := rfl
@[simp] theorem setSource_snap (n : Nat) (x : SrcState) : (setSource n x d).snap = d.snap := rfl
@[simp] theorem setSource_out (n : Nat) (x : SrcState) : (setSource n x d).out = d.out := rfl
@[simp] theorem setSource_draws (n : Nat) (x : SrcState) : (setSource n x d).draws = d.draws := rfl

/-! ### `setPin` writes `alm` alone -/

@[simp] theorem setPin_log (p : Nat) (x : AlmPin) : (setPin p x d).log = d.log := rfl
@[simp] theorem setPin_cmd (p : Nat) (x : AlmPin) : (setPin p x d).cmd = d.cmd := rfl
@[simp] theorem setPin_clk (p : Nat) (x : AlmPin) : (setPin p x d).clk = d.clk := rfl
@[simp] theorem setPin_hrd (p : Nat) (x : AlmPin) : (setPin p x d).hrd = d.hrd := rfl
@[simp] theorem setPin_gbl (p : Nat) (x : AlmPin) : (setPin p x d).gbl = d.gbl := rfl
@[simp] theorem setPin_pwr (p : Nat) (x : AlmPin) : (setPin p x d).pwr = d.pwr := rfl
@[simp] theorem setPin_tod (p : Nat) (x : AlmPin) : (setPin p x d).tod = d.tod := rfl
@[simp] theorem setPin_ports (p : Nat) (x : AlmPin) : (setPin p x d).ports = d.ports := rfl
@[simp] theorem setPin_pub (p : Nat) (x : AlmPin) : (setPin p x d).pub = d.pub := rfl
@[simp] theorem setPin_ing (p : Nat) (x : AlmPin) : (setPin p x d).ing = d.ing := rfl
@[simp] theorem setPin_dir (p : Nat) (x : AlmPin) : (setPin p x d).dir = d.dir := rfl
@[simp] theorem setPin_aln (p : Nat) (x : AlmPin) : (setPin p x d).aln = d.aln := rfl
@[simp] theorem setPin_est (p : Nat) (x : AlmPin) : (setPin p x d).est = d.est := rfl
@[simp] theorem setPin_osc (p : Nat) (x : AlmPin) : (setPin p x d).osc = d.osc := rfl
@[simp] theorem setPin_isl (p : Nat) (x : AlmPin) : (setPin p x d).isl = d.isl := rfl
@[simp] theorem setPin_lch (p : Nat) (x : AlmPin) : (setPin p x d).lch = d.lch := rfl
@[simp] theorem setPin_cap (p : Nat) (x : AlmPin) : (setPin p x d).cap = d.cap := rfl
@[simp] theorem setPin_lmf (p : Nat) (x : AlmPin) : (setPin p x d).lmf = d.lmf := rfl
@[simp] theorem setPin_aux (p : Nat) (x : AlmPin) : (setPin p x d).aux = d.aux := rfl
@[simp] theorem setPin_mtr (p : Nat) (x : AlmPin) : (setPin p x d).mtr = d.mtr := rfl
@[simp] theorem setPin_key (p : Nat) (x : AlmPin) : (setPin p x d).key = d.key := rfl
@[simp] theorem setPin_tmp (p : Nat) (x : AlmPin) : (setPin p x d).tmp = d.tmp := rfl
@[simp] theorem setPin_cur (p : Nat) (x : AlmPin) : (setPin p x d).cur = d.cur := rfl
@[simp] theorem setPin_staged (p : Nat) (x : AlmPin) : (setPin p x d).staged = d.staged := rfl
@[simp] theorem setPin_old (p : Nat) (x : AlmPin) : (setPin p x d).old = d.old := rfl
@[simp] theorem setPin_cnt (p : Nat) (x : AlmPin) : (setPin p x d).cnt = d.cnt := rfl
@[simp] theorem setPin_snap (p : Nat) (x : AlmPin) : (setPin p x d).snap = d.snap := rfl
@[simp] theorem setPin_out (p : Nat) (x : AlmPin) : (setPin p x d).out = d.out := rfl
@[simp] theorem setPin_draws (p : Nat) (x : AlmPin) : (setPin p x d).draws = d.draws := rfl

/-! ### `setGoose` writes `alm` alone -/

@[simp] theorem setGoose_log (t : Nat) (x : Goose) : (setGoose t x d).log = d.log := rfl
@[simp] theorem setGoose_cmd (t : Nat) (x : Goose) : (setGoose t x d).cmd = d.cmd := rfl
@[simp] theorem setGoose_clk (t : Nat) (x : Goose) : (setGoose t x d).clk = d.clk := rfl
@[simp] theorem setGoose_hrd (t : Nat) (x : Goose) : (setGoose t x d).hrd = d.hrd := rfl
@[simp] theorem setGoose_gbl (t : Nat) (x : Goose) : (setGoose t x d).gbl = d.gbl := rfl
@[simp] theorem setGoose_pwr (t : Nat) (x : Goose) : (setGoose t x d).pwr = d.pwr := rfl
@[simp] theorem setGoose_tod (t : Nat) (x : Goose) : (setGoose t x d).tod = d.tod := rfl
@[simp] theorem setGoose_ports (t : Nat) (x : Goose) : (setGoose t x d).ports = d.ports := rfl
@[simp] theorem setGoose_pub (t : Nat) (x : Goose) : (setGoose t x d).pub = d.pub := rfl
@[simp] theorem setGoose_ing (t : Nat) (x : Goose) : (setGoose t x d).ing = d.ing := rfl
@[simp] theorem setGoose_dir (t : Nat) (x : Goose) : (setGoose t x d).dir = d.dir := rfl
@[simp] theorem setGoose_aln (t : Nat) (x : Goose) : (setGoose t x d).aln = d.aln := rfl
@[simp] theorem setGoose_est (t : Nat) (x : Goose) : (setGoose t x d).est = d.est := rfl
@[simp] theorem setGoose_osc (t : Nat) (x : Goose) : (setGoose t x d).osc = d.osc := rfl
@[simp] theorem setGoose_isl (t : Nat) (x : Goose) : (setGoose t x d).isl = d.isl := rfl
@[simp] theorem setGoose_lch (t : Nat) (x : Goose) : (setGoose t x d).lch = d.lch := rfl
@[simp] theorem setGoose_cap (t : Nat) (x : Goose) : (setGoose t x d).cap = d.cap := rfl
@[simp] theorem setGoose_lmf (t : Nat) (x : Goose) : (setGoose t x d).lmf = d.lmf := rfl
@[simp] theorem setGoose_aux (t : Nat) (x : Goose) : (setGoose t x d).aux = d.aux := rfl
@[simp] theorem setGoose_mtr (t : Nat) (x : Goose) : (setGoose t x d).mtr = d.mtr := rfl
@[simp] theorem setGoose_key (t : Nat) (x : Goose) : (setGoose t x d).key = d.key := rfl
@[simp] theorem setGoose_tmp (t : Nat) (x : Goose) : (setGoose t x d).tmp = d.tmp := rfl
@[simp] theorem setGoose_cur (t : Nat) (x : Goose) : (setGoose t x d).cur = d.cur := rfl
@[simp] theorem setGoose_staged (t : Nat) (x : Goose) : (setGoose t x d).staged = d.staged := rfl
@[simp] theorem setGoose_old (t : Nat) (x : Goose) : (setGoose t x d).old = d.old := rfl
@[simp] theorem setGoose_cnt (t : Nat) (x : Goose) : (setGoose t x d).cnt = d.cnt := rfl
@[simp] theorem setGoose_snap (t : Nat) (x : Goose) : (setGoose t x d).snap = d.snap := rfl
@[simp] theorem setGoose_out (t : Nat) (x : Goose) : (setGoose t x d).out = d.out := rfl
@[simp] theorem setGoose_draws (t : Nat) (x : Goose) : (setGoose t x d).draws = d.draws := rfl

/-! ### `setLimit` writes `alm` alone -/

@[simp] theorem setLimit_log (c : Nat) (x : LimitState) : (setLimit c x d).log = d.log := rfl
@[simp] theorem setLimit_cmd (c : Nat) (x : LimitState) : (setLimit c x d).cmd = d.cmd := rfl
@[simp] theorem setLimit_clk (c : Nat) (x : LimitState) : (setLimit c x d).clk = d.clk := rfl
@[simp] theorem setLimit_hrd (c : Nat) (x : LimitState) : (setLimit c x d).hrd = d.hrd := rfl
@[simp] theorem setLimit_gbl (c : Nat) (x : LimitState) : (setLimit c x d).gbl = d.gbl := rfl
@[simp] theorem setLimit_pwr (c : Nat) (x : LimitState) : (setLimit c x d).pwr = d.pwr := rfl
@[simp] theorem setLimit_tod (c : Nat) (x : LimitState) : (setLimit c x d).tod = d.tod := rfl
@[simp] theorem setLimit_ports (c : Nat) (x : LimitState) : (setLimit c x d).ports = d.ports := rfl
@[simp] theorem setLimit_pub (c : Nat) (x : LimitState) : (setLimit c x d).pub = d.pub := rfl
@[simp] theorem setLimit_ing (c : Nat) (x : LimitState) : (setLimit c x d).ing = d.ing := rfl
@[simp] theorem setLimit_dir (c : Nat) (x : LimitState) : (setLimit c x d).dir = d.dir := rfl
@[simp] theorem setLimit_aln (c : Nat) (x : LimitState) : (setLimit c x d).aln = d.aln := rfl
@[simp] theorem setLimit_est (c : Nat) (x : LimitState) : (setLimit c x d).est = d.est := rfl
@[simp] theorem setLimit_osc (c : Nat) (x : LimitState) : (setLimit c x d).osc = d.osc := rfl
@[simp] theorem setLimit_isl (c : Nat) (x : LimitState) : (setLimit c x d).isl = d.isl := rfl
@[simp] theorem setLimit_lch (c : Nat) (x : LimitState) : (setLimit c x d).lch = d.lch := rfl
@[simp] theorem setLimit_cap (c : Nat) (x : LimitState) : (setLimit c x d).cap = d.cap := rfl
@[simp] theorem setLimit_lmf (c : Nat) (x : LimitState) : (setLimit c x d).lmf = d.lmf := rfl
@[simp] theorem setLimit_aux (c : Nat) (x : LimitState) : (setLimit c x d).aux = d.aux := rfl
@[simp] theorem setLimit_mtr (c : Nat) (x : LimitState) : (setLimit c x d).mtr = d.mtr := rfl
@[simp] theorem setLimit_key (c : Nat) (x : LimitState) : (setLimit c x d).key = d.key := rfl
@[simp] theorem setLimit_tmp (c : Nat) (x : LimitState) : (setLimit c x d).tmp = d.tmp := rfl
@[simp] theorem setLimit_cur (c : Nat) (x : LimitState) : (setLimit c x d).cur = d.cur := rfl
@[simp] theorem setLimit_staged (c : Nat) (x : LimitState) : (setLimit c x d).staged = d.staged := rfl
@[simp] theorem setLimit_old (c : Nat) (x : LimitState) : (setLimit c x d).old = d.old := rfl
@[simp] theorem setLimit_cnt (c : Nat) (x : LimitState) : (setLimit c x d).cnt = d.cnt := rfl
@[simp] theorem setLimit_snap (c : Nat) (x : LimitState) : (setLimit c x d).snap = d.snap := rfl
@[simp] theorem setLimit_out (c : Nat) (x : LimitState) : (setLimit c x d).out = d.out := rfl
@[simp] theorem setLimit_draws (c : Nat) (x : LimitState) : (setLimit c x d).draws = d.draws := rfl

/-! ### `setEstRun` writes `est` alone -/

@[simp] theorem setEstRun_log (b : Bool) (x : EstRun) : (setEstRun b x d).log = d.log := by cases b <;> rfl
@[simp] theorem setEstRun_cmd (b : Bool) (x : EstRun) : (setEstRun b x d).cmd = d.cmd := by cases b <;> rfl
@[simp] theorem setEstRun_clk (b : Bool) (x : EstRun) : (setEstRun b x d).clk = d.clk := by cases b <;> rfl
@[simp] theorem setEstRun_hrd (b : Bool) (x : EstRun) : (setEstRun b x d).hrd = d.hrd := by cases b <;> rfl
@[simp] theorem setEstRun_gbl (b : Bool) (x : EstRun) : (setEstRun b x d).gbl = d.gbl := by cases b <;> rfl
@[simp] theorem setEstRun_pwr (b : Bool) (x : EstRun) : (setEstRun b x d).pwr = d.pwr := by cases b <;> rfl
@[simp] theorem setEstRun_tod (b : Bool) (x : EstRun) : (setEstRun b x d).tod = d.tod := by cases b <;> rfl
@[simp] theorem setEstRun_ports (b : Bool) (x : EstRun) : (setEstRun b x d).ports = d.ports := by cases b <;> rfl
@[simp] theorem setEstRun_pub (b : Bool) (x : EstRun) : (setEstRun b x d).pub = d.pub := by cases b <;> rfl
@[simp] theorem setEstRun_ing (b : Bool) (x : EstRun) : (setEstRun b x d).ing = d.ing := by cases b <;> rfl
@[simp] theorem setEstRun_dir (b : Bool) (x : EstRun) : (setEstRun b x d).dir = d.dir := by cases b <;> rfl
@[simp] theorem setEstRun_aln (b : Bool) (x : EstRun) : (setEstRun b x d).aln = d.aln := by cases b <;> rfl
@[simp] theorem setEstRun_osc (b : Bool) (x : EstRun) : (setEstRun b x d).osc = d.osc := by cases b <;> rfl
@[simp] theorem setEstRun_isl (b : Bool) (x : EstRun) : (setEstRun b x d).isl = d.isl := by cases b <;> rfl
@[simp] theorem setEstRun_alm (b : Bool) (x : EstRun) : (setEstRun b x d).alm = d.alm := by cases b <;> rfl
@[simp] theorem setEstRun_lch (b : Bool) (x : EstRun) : (setEstRun b x d).lch = d.lch := by cases b <;> rfl
@[simp] theorem setEstRun_cap (b : Bool) (x : EstRun) : (setEstRun b x d).cap = d.cap := by cases b <;> rfl
@[simp] theorem setEstRun_lmf (b : Bool) (x : EstRun) : (setEstRun b x d).lmf = d.lmf := by cases b <;> rfl
@[simp] theorem setEstRun_aux (b : Bool) (x : EstRun) : (setEstRun b x d).aux = d.aux := by cases b <;> rfl
@[simp] theorem setEstRun_mtr (b : Bool) (x : EstRun) : (setEstRun b x d).mtr = d.mtr := by cases b <;> rfl
@[simp] theorem setEstRun_key (b : Bool) (x : EstRun) : (setEstRun b x d).key = d.key := by cases b <;> rfl
@[simp] theorem setEstRun_tmp (b : Bool) (x : EstRun) : (setEstRun b x d).tmp = d.tmp := by cases b <;> rfl
@[simp] theorem setEstRun_cur (b : Bool) (x : EstRun) : (setEstRun b x d).cur = d.cur := by cases b <;> rfl
@[simp] theorem setEstRun_staged (b : Bool) (x : EstRun) : (setEstRun b x d).staged = d.staged := by cases b <;> rfl
@[simp] theorem setEstRun_old (b : Bool) (x : EstRun) : (setEstRun b x d).old = d.old := by cases b <;> rfl
@[simp] theorem setEstRun_cnt (b : Bool) (x : EstRun) : (setEstRun b x d).cnt = d.cnt := by cases b <;> rfl
@[simp] theorem setEstRun_snap (b : Bool) (x : EstRun) : (setEstRun b x d).snap = d.snap := by cases b <;> rfl
@[simp] theorem setEstRun_out (b : Bool) (x : EstRun) : (setEstRun b x d).out = d.out := by cases b <;> rfl
@[simp] theorem setEstRun_draws (b : Bool) (x : EstRun) : (setEstRun b x d).draws = d.draws := by cases b <;> rfl

/-! ### `setEntry` writes `lch` alone -/

@[simp] theorem setEntry_log (i : Nat) (x : LchEntry) : (setEntry i x d).log = d.log := rfl
@[simp] theorem setEntry_cmd (i : Nat) (x : LchEntry) : (setEntry i x d).cmd = d.cmd := rfl
@[simp] theorem setEntry_clk (i : Nat) (x : LchEntry) : (setEntry i x d).clk = d.clk := rfl
@[simp] theorem setEntry_hrd (i : Nat) (x : LchEntry) : (setEntry i x d).hrd = d.hrd := rfl
@[simp] theorem setEntry_gbl (i : Nat) (x : LchEntry) : (setEntry i x d).gbl = d.gbl := rfl
@[simp] theorem setEntry_pwr (i : Nat) (x : LchEntry) : (setEntry i x d).pwr = d.pwr := rfl
@[simp] theorem setEntry_tod (i : Nat) (x : LchEntry) : (setEntry i x d).tod = d.tod := rfl
@[simp] theorem setEntry_ports (i : Nat) (x : LchEntry) : (setEntry i x d).ports = d.ports := rfl
@[simp] theorem setEntry_pub (i : Nat) (x : LchEntry) : (setEntry i x d).pub = d.pub := rfl
@[simp] theorem setEntry_ing (i : Nat) (x : LchEntry) : (setEntry i x d).ing = d.ing := rfl
@[simp] theorem setEntry_dir (i : Nat) (x : LchEntry) : (setEntry i x d).dir = d.dir := rfl
@[simp] theorem setEntry_aln (i : Nat) (x : LchEntry) : (setEntry i x d).aln = d.aln := rfl
@[simp] theorem setEntry_est (i : Nat) (x : LchEntry) : (setEntry i x d).est = d.est := rfl
@[simp] theorem setEntry_osc (i : Nat) (x : LchEntry) : (setEntry i x d).osc = d.osc := rfl
@[simp] theorem setEntry_isl (i : Nat) (x : LchEntry) : (setEntry i x d).isl = d.isl := rfl
@[simp] theorem setEntry_alm (i : Nat) (x : LchEntry) : (setEntry i x d).alm = d.alm := rfl
@[simp] theorem setEntry_cap (i : Nat) (x : LchEntry) : (setEntry i x d).cap = d.cap := rfl
@[simp] theorem setEntry_lmf (i : Nat) (x : LchEntry) : (setEntry i x d).lmf = d.lmf := rfl
@[simp] theorem setEntry_aux (i : Nat) (x : LchEntry) : (setEntry i x d).aux = d.aux := rfl
@[simp] theorem setEntry_mtr (i : Nat) (x : LchEntry) : (setEntry i x d).mtr = d.mtr := rfl
@[simp] theorem setEntry_key (i : Nat) (x : LchEntry) : (setEntry i x d).key = d.key := rfl
@[simp] theorem setEntry_tmp (i : Nat) (x : LchEntry) : (setEntry i x d).tmp = d.tmp := rfl
@[simp] theorem setEntry_cur (i : Nat) (x : LchEntry) : (setEntry i x d).cur = d.cur := rfl
@[simp] theorem setEntry_staged (i : Nat) (x : LchEntry) : (setEntry i x d).staged = d.staged := rfl
@[simp] theorem setEntry_old (i : Nat) (x : LchEntry) : (setEntry i x d).old = d.old := rfl
@[simp] theorem setEntry_cnt (i : Nat) (x : LchEntry) : (setEntry i x d).cnt = d.cnt := rfl
@[simp] theorem setEntry_snap (i : Nat) (x : LchEntry) : (setEntry i x d).snap = d.snap := rfl
@[simp] theorem setEntry_out (i : Nat) (x : LchEntry) : (setEntry i x d).out = d.out := rfl
@[simp] theorem setEntry_draws (i : Nat) (x : LchEntry) : (setEntry i x d).draws = d.draws := rfl

/-! ### `setEvent` writes `lch` alone -/

@[simp] theorem setEvent_log (n : Nat) (x : EventPin) : (setEvent n x d).log = d.log := rfl
@[simp] theorem setEvent_cmd (n : Nat) (x : EventPin) : (setEvent n x d).cmd = d.cmd := rfl
@[simp] theorem setEvent_clk (n : Nat) (x : EventPin) : (setEvent n x d).clk = d.clk := rfl
@[simp] theorem setEvent_hrd (n : Nat) (x : EventPin) : (setEvent n x d).hrd = d.hrd := rfl
@[simp] theorem setEvent_gbl (n : Nat) (x : EventPin) : (setEvent n x d).gbl = d.gbl := rfl
@[simp] theorem setEvent_pwr (n : Nat) (x : EventPin) : (setEvent n x d).pwr = d.pwr := rfl
@[simp] theorem setEvent_tod (n : Nat) (x : EventPin) : (setEvent n x d).tod = d.tod := rfl
@[simp] theorem setEvent_ports (n : Nat) (x : EventPin) : (setEvent n x d).ports = d.ports := rfl
@[simp] theorem setEvent_pub (n : Nat) (x : EventPin) : (setEvent n x d).pub = d.pub := rfl
@[simp] theorem setEvent_ing (n : Nat) (x : EventPin) : (setEvent n x d).ing = d.ing := rfl
@[simp] theorem setEvent_dir (n : Nat) (x : EventPin) : (setEvent n x d).dir = d.dir := rfl
@[simp] theorem setEvent_aln (n : Nat) (x : EventPin) : (setEvent n x d).aln = d.aln := rfl
@[simp] theorem setEvent_est (n : Nat) (x : EventPin) : (setEvent n x d).est = d.est := rfl
@[simp] theorem setEvent_osc (n : Nat) (x : EventPin) : (setEvent n x d).osc = d.osc := rfl
@[simp] theorem setEvent_isl (n : Nat) (x : EventPin) : (setEvent n x d).isl = d.isl := rfl
@[simp] theorem setEvent_alm (n : Nat) (x : EventPin) : (setEvent n x d).alm = d.alm := rfl
@[simp] theorem setEvent_cap (n : Nat) (x : EventPin) : (setEvent n x d).cap = d.cap := rfl
@[simp] theorem setEvent_lmf (n : Nat) (x : EventPin) : (setEvent n x d).lmf = d.lmf := rfl
@[simp] theorem setEvent_aux (n : Nat) (x : EventPin) : (setEvent n x d).aux = d.aux := rfl
@[simp] theorem setEvent_mtr (n : Nat) (x : EventPin) : (setEvent n x d).mtr = d.mtr := rfl
@[simp] theorem setEvent_key (n : Nat) (x : EventPin) : (setEvent n x d).key = d.key := rfl
@[simp] theorem setEvent_tmp (n : Nat) (x : EventPin) : (setEvent n x d).tmp = d.tmp := rfl
@[simp] theorem setEvent_cur (n : Nat) (x : EventPin) : (setEvent n x d).cur = d.cur := rfl
@[simp] theorem setEvent_staged (n : Nat) (x : EventPin) : (setEvent n x d).staged = d.staged := rfl
@[simp] theorem setEvent_old (n : Nat) (x : EventPin) : (setEvent n x d).old = d.old := rfl
@[simp] theorem setEvent_cnt (n : Nat) (x : EventPin) : (setEvent n x d).cnt = d.cnt := rfl
@[simp] theorem setEvent_snap (n : Nat) (x : EventPin) : (setEvent n x d).snap = d.snap := rfl
@[simp] theorem setEvent_out (n : Nat) (x : EventPin) : (setEvent n x d).out = d.out := rfl
@[simp] theorem setEvent_draws (n : Nat) (x : EventPin) : (setEvent n x d).draws = d.draws := rfl

/-! ### `setSess` writes `cap` alone -/

@[simp] theorem setSess_log (s : Nat) (x : CapSession) : (setSess s x d).log = d.log := rfl
@[simp] theorem setSess_cmd (s : Nat) (x : CapSession) : (setSess s x d).cmd = d.cmd := rfl
@[simp] theorem setSess_clk (s : Nat) (x : CapSession) : (setSess s x d).clk = d.clk := rfl
@[simp] theorem setSess_hrd (s : Nat) (x : CapSession) : (setSess s x d).hrd = d.hrd := rfl
@[simp] theorem setSess_gbl (s : Nat) (x : CapSession) : (setSess s x d).gbl = d.gbl := rfl
@[simp] theorem setSess_pwr (s : Nat) (x : CapSession) : (setSess s x d).pwr = d.pwr := rfl
@[simp] theorem setSess_tod (s : Nat) (x : CapSession) : (setSess s x d).tod = d.tod := rfl
@[simp] theorem setSess_ports (s : Nat) (x : CapSession) : (setSess s x d).ports = d.ports := rfl
@[simp] theorem setSess_pub (s : Nat) (x : CapSession) : (setSess s x d).pub = d.pub := rfl
@[simp] theorem setSess_ing (s : Nat) (x : CapSession) : (setSess s x d).ing = d.ing := rfl
@[simp] theorem setSess_dir (s : Nat) (x : CapSession) : (setSess s x d).dir = d.dir := rfl
@[simp] theorem setSess_aln (s : Nat) (x : CapSession) : (setSess s x d).aln = d.aln := rfl
@[simp] theorem setSess_est (s : Nat) (x : CapSession) : (setSess s x d).est = d.est := rfl
@[simp] theorem setSess_osc (s : Nat) (x : CapSession) : (setSess s x d).osc = d.osc := rfl
@[simp] theorem setSess_isl (s : Nat) (x : CapSession) : (setSess s x d).isl = d.isl := rfl
@[simp] theorem setSess_alm (s : Nat) (x : CapSession) : (setSess s x d).alm = d.alm := rfl
@[simp] theorem setSess_lch (s : Nat) (x : CapSession) : (setSess s x d).lch = d.lch := rfl
@[simp] theorem setSess_lmf (s : Nat) (x : CapSession) : (setSess s x d).lmf = d.lmf := rfl
@[simp] theorem setSess_aux (s : Nat) (x : CapSession) : (setSess s x d).aux = d.aux := rfl
@[simp] theorem setSess_mtr (s : Nat) (x : CapSession) : (setSess s x d).mtr = d.mtr := rfl
@[simp] theorem setSess_key (s : Nat) (x : CapSession) : (setSess s x d).key = d.key := rfl
@[simp] theorem setSess_tmp (s : Nat) (x : CapSession) : (setSess s x d).tmp = d.tmp := rfl
@[simp] theorem setSess_cur (s : Nat) (x : CapSession) : (setSess s x d).cur = d.cur := rfl
@[simp] theorem setSess_staged (s : Nat) (x : CapSession) : (setSess s x d).staged = d.staged := rfl
@[simp] theorem setSess_old (s : Nat) (x : CapSession) : (setSess s x d).old = d.old := rfl
@[simp] theorem setSess_cnt (s : Nat) (x : CapSession) : (setSess s x d).cnt = d.cnt := rfl
@[simp] theorem setSess_snap (s : Nat) (x : CapSession) : (setSess s x d).snap = d.snap := rfl
@[simp] theorem setSess_out (s : Nat) (x : CapSession) : (setSess s x d).out = d.out := rfl
@[simp] theorem setSess_draws (s : Nat) (x : CapSession) : (setSess s x d).draws = d.draws := rfl

/-! ### `setChan` writes `lmf` alone -/

@[simp] theorem setChan_log (k : Nat) (x : LmfChan) : (setChan k x d).log = d.log := rfl
@[simp] theorem setChan_cmd (k : Nat) (x : LmfChan) : (setChan k x d).cmd = d.cmd := rfl
@[simp] theorem setChan_clk (k : Nat) (x : LmfChan) : (setChan k x d).clk = d.clk := rfl
@[simp] theorem setChan_hrd (k : Nat) (x : LmfChan) : (setChan k x d).hrd = d.hrd := rfl
@[simp] theorem setChan_gbl (k : Nat) (x : LmfChan) : (setChan k x d).gbl = d.gbl := rfl
@[simp] theorem setChan_pwr (k : Nat) (x : LmfChan) : (setChan k x d).pwr = d.pwr := rfl
@[simp] theorem setChan_tod (k : Nat) (x : LmfChan) : (setChan k x d).tod = d.tod := rfl
@[simp] theorem setChan_ports (k : Nat) (x : LmfChan) : (setChan k x d).ports = d.ports := rfl
@[simp] theorem setChan_pub (k : Nat) (x : LmfChan) : (setChan k x d).pub = d.pub := rfl
@[simp] theorem setChan_ing (k : Nat) (x : LmfChan) : (setChan k x d).ing = d.ing := rfl
@[simp] theorem setChan_dir (k : Nat) (x : LmfChan) : (setChan k x d).dir = d.dir := rfl
@[simp] theorem setChan_aln (k : Nat) (x : LmfChan) : (setChan k x d).aln = d.aln := rfl
@[simp] theorem setChan_est (k : Nat) (x : LmfChan) : (setChan k x d).est = d.est := rfl
@[simp] theorem setChan_osc (k : Nat) (x : LmfChan) : (setChan k x d).osc = d.osc := rfl
@[simp] theorem setChan_isl (k : Nat) (x : LmfChan) : (setChan k x d).isl = d.isl := rfl
@[simp] theorem setChan_alm (k : Nat) (x : LmfChan) : (setChan k x d).alm = d.alm := rfl
@[simp] theorem setChan_lch (k : Nat) (x : LmfChan) : (setChan k x d).lch = d.lch := rfl
@[simp] theorem setChan_cap (k : Nat) (x : LmfChan) : (setChan k x d).cap = d.cap := rfl
@[simp] theorem setChan_aux (k : Nat) (x : LmfChan) : (setChan k x d).aux = d.aux := rfl
@[simp] theorem setChan_mtr (k : Nat) (x : LmfChan) : (setChan k x d).mtr = d.mtr := rfl
@[simp] theorem setChan_key (k : Nat) (x : LmfChan) : (setChan k x d).key = d.key := rfl
@[simp] theorem setChan_tmp (k : Nat) (x : LmfChan) : (setChan k x d).tmp = d.tmp := rfl
@[simp] theorem setChan_cur (k : Nat) (x : LmfChan) : (setChan k x d).cur = d.cur := rfl
@[simp] theorem setChan_staged (k : Nat) (x : LmfChan) : (setChan k x d).staged = d.staged := rfl
@[simp] theorem setChan_old (k : Nat) (x : LmfChan) : (setChan k x d).old = d.old := rfl
@[simp] theorem setChan_cnt (k : Nat) (x : LmfChan) : (setChan k x d).cnt = d.cnt := rfl
@[simp] theorem setChan_snap (k : Nat) (x : LmfChan) : (setChan k x d).snap = d.snap := rfl
@[simp] theorem setChan_out (k : Nat) (x : LmfChan) : (setChan k x d).out = d.out := rfl
@[simp] theorem setChan_draws (k : Nat) (x : LmfChan) : (setChan k x d).draws = d.draws := rfl

/-! ### `auxSetLane` writes `aux` alone -/

@[simp] theorem auxSetLane_log (l : Nat) (x : AuxLane) : (auxSetLane l x d).log = d.log := rfl
@[simp] theorem auxSetLane_cmd (l : Nat) (x : AuxLane) : (auxSetLane l x d).cmd = d.cmd := rfl
@[simp] theorem auxSetLane_clk (l : Nat) (x : AuxLane) : (auxSetLane l x d).clk = d.clk := rfl
@[simp] theorem auxSetLane_hrd (l : Nat) (x : AuxLane) : (auxSetLane l x d).hrd = d.hrd := rfl
@[simp] theorem auxSetLane_gbl (l : Nat) (x : AuxLane) : (auxSetLane l x d).gbl = d.gbl := rfl
@[simp] theorem auxSetLane_pwr (l : Nat) (x : AuxLane) : (auxSetLane l x d).pwr = d.pwr := rfl
@[simp] theorem auxSetLane_tod (l : Nat) (x : AuxLane) : (auxSetLane l x d).tod = d.tod := rfl
@[simp] theorem auxSetLane_ports (l : Nat) (x : AuxLane) : (auxSetLane l x d).ports = d.ports := rfl
@[simp] theorem auxSetLane_pub (l : Nat) (x : AuxLane) : (auxSetLane l x d).pub = d.pub := rfl
@[simp] theorem auxSetLane_ing (l : Nat) (x : AuxLane) : (auxSetLane l x d).ing = d.ing := rfl
@[simp] theorem auxSetLane_dir (l : Nat) (x : AuxLane) : (auxSetLane l x d).dir = d.dir := rfl
@[simp] theorem auxSetLane_aln (l : Nat) (x : AuxLane) : (auxSetLane l x d).aln = d.aln := rfl
@[simp] theorem auxSetLane_est (l : Nat) (x : AuxLane) : (auxSetLane l x d).est = d.est := rfl
@[simp] theorem auxSetLane_osc (l : Nat) (x : AuxLane) : (auxSetLane l x d).osc = d.osc := rfl
@[simp] theorem auxSetLane_isl (l : Nat) (x : AuxLane) : (auxSetLane l x d).isl = d.isl := rfl
@[simp] theorem auxSetLane_alm (l : Nat) (x : AuxLane) : (auxSetLane l x d).alm = d.alm := rfl
@[simp] theorem auxSetLane_lch (l : Nat) (x : AuxLane) : (auxSetLane l x d).lch = d.lch := rfl
@[simp] theorem auxSetLane_cap (l : Nat) (x : AuxLane) : (auxSetLane l x d).cap = d.cap := rfl
@[simp] theorem auxSetLane_lmf (l : Nat) (x : AuxLane) : (auxSetLane l x d).lmf = d.lmf := rfl
@[simp] theorem auxSetLane_mtr (l : Nat) (x : AuxLane) : (auxSetLane l x d).mtr = d.mtr := rfl
@[simp] theorem auxSetLane_key (l : Nat) (x : AuxLane) : (auxSetLane l x d).key = d.key := rfl
@[simp] theorem auxSetLane_tmp (l : Nat) (x : AuxLane) : (auxSetLane l x d).tmp = d.tmp := rfl
@[simp] theorem auxSetLane_cur (l : Nat) (x : AuxLane) : (auxSetLane l x d).cur = d.cur := rfl
@[simp] theorem auxSetLane_staged (l : Nat) (x : AuxLane) : (auxSetLane l x d).staged = d.staged := rfl
@[simp] theorem auxSetLane_old (l : Nat) (x : AuxLane) : (auxSetLane l x d).old = d.old := rfl
@[simp] theorem auxSetLane_cnt (l : Nat) (x : AuxLane) : (auxSetLane l x d).cnt = d.cnt := rfl
@[simp] theorem auxSetLane_snap (l : Nat) (x : AuxLane) : (auxSetLane l x d).snap = d.snap := rfl
@[simp] theorem auxSetLane_out (l : Nat) (x : AuxLane) : (auxSetLane l x d).out = d.out := rfl
@[simp] theorem auxSetLane_draws (l : Nat) (x : AuxLane) : (auxSetLane l x d).draws = d.draws := rfl

/-! ### `setAuxBuf` writes `aux` alone -/

@[simp] theorem setAuxBuf_log (b : Nat) (x : AuxBuf) : (setAuxBuf b x d).log = d.log := rfl
@[simp] theorem setAuxBuf_cmd (b : Nat) (x : AuxBuf) : (setAuxBuf b x d).cmd = d.cmd := rfl
@[simp] theorem setAuxBuf_clk (b : Nat) (x : AuxBuf) : (setAuxBuf b x d).clk = d.clk := rfl
@[simp] theorem setAuxBuf_hrd (b : Nat) (x : AuxBuf) : (setAuxBuf b x d).hrd = d.hrd := rfl
@[simp] theorem setAuxBuf_gbl (b : Nat) (x : AuxBuf) : (setAuxBuf b x d).gbl = d.gbl := rfl
@[simp] theorem setAuxBuf_pwr (b : Nat) (x : AuxBuf) : (setAuxBuf b x d).pwr = d.pwr := rfl
@[simp] theorem setAuxBuf_tod (b : Nat) (x : AuxBuf) : (setAuxBuf b x d).tod = d.tod := rfl
@[simp] theorem setAuxBuf_ports (b : Nat) (x : AuxBuf) : (setAuxBuf b x d).ports = d.ports := rfl
@[simp] theorem setAuxBuf_pub (b : Nat) (x : AuxBuf) : (setAuxBuf b x d).pub = d.pub := rfl
@[simp] theorem setAuxBuf_ing (b : Nat) (x : AuxBuf) : (setAuxBuf b x d).ing = d.ing := rfl
@[simp] theorem setAuxBuf_dir (b : Nat) (x : AuxBuf) : (setAuxBuf b x d).dir = d.dir := rfl
@[simp] theorem setAuxBuf_aln (b : Nat) (x : AuxBuf) : (setAuxBuf b x d).aln = d.aln := rfl
@[simp] theorem setAuxBuf_est (b : Nat) (x : AuxBuf) : (setAuxBuf b x d).est = d.est := rfl
@[simp] theorem setAuxBuf_osc (b : Nat) (x : AuxBuf) : (setAuxBuf b x d).osc = d.osc := rfl
@[simp] theorem setAuxBuf_isl (b : Nat) (x : AuxBuf) : (setAuxBuf b x d).isl = d.isl := rfl
@[simp] theorem setAuxBuf_alm (b : Nat) (x : AuxBuf) : (setAuxBuf b x d).alm = d.alm := rfl
@[simp] theorem setAuxBuf_lch (b : Nat) (x : AuxBuf) : (setAuxBuf b x d).lch = d.lch := rfl
@[simp] theorem setAuxBuf_cap (b : Nat) (x : AuxBuf) : (setAuxBuf b x d).cap = d.cap := rfl
@[simp] theorem setAuxBuf_lmf (b : Nat) (x : AuxBuf) : (setAuxBuf b x d).lmf = d.lmf := rfl
@[simp] theorem setAuxBuf_mtr (b : Nat) (x : AuxBuf) : (setAuxBuf b x d).mtr = d.mtr := rfl
@[simp] theorem setAuxBuf_key (b : Nat) (x : AuxBuf) : (setAuxBuf b x d).key = d.key := rfl
@[simp] theorem setAuxBuf_tmp (b : Nat) (x : AuxBuf) : (setAuxBuf b x d).tmp = d.tmp := rfl
@[simp] theorem setAuxBuf_cur (b : Nat) (x : AuxBuf) : (setAuxBuf b x d).cur = d.cur := rfl
@[simp] theorem setAuxBuf_staged (b : Nat) (x : AuxBuf) : (setAuxBuf b x d).staged = d.staged := rfl
@[simp] theorem setAuxBuf_old (b : Nat) (x : AuxBuf) : (setAuxBuf b x d).old = d.old := rfl
@[simp] theorem setAuxBuf_cnt (b : Nat) (x : AuxBuf) : (setAuxBuf b x d).cnt = d.cnt := rfl
@[simp] theorem setAuxBuf_snap (b : Nat) (x : AuxBuf) : (setAuxBuf b x d).snap = d.snap := rfl
@[simp] theorem setAuxBuf_out (b : Nat) (x : AuxBuf) : (setAuxBuf b x d).out = d.out := rfl
@[simp] theorem setAuxBuf_draws (b : Nat) (x : AuxBuf) : (setAuxBuf b x d).draws = d.draws := rfl

/-! ### `setCirc` writes `mtr` alone -/

@[simp] theorem setCirc_log (c : Nat) (x : MtrCircuit) : (setCirc c x d).log = d.log := rfl
@[simp] theorem setCirc_cmd (c : Nat) (x : MtrCircuit) : (setCirc c x d).cmd = d.cmd := rfl
@[simp] theorem setCirc_clk (c : Nat) (x : MtrCircuit) : (setCirc c x d).clk = d.clk := rfl
@[simp] theorem setCirc_hrd (c : Nat) (x : MtrCircuit) : (setCirc c x d).hrd = d.hrd := rfl
@[simp] theorem setCirc_gbl (c : Nat) (x : MtrCircuit) : (setCirc c x d).gbl = d.gbl := rfl
@[simp] theorem setCirc_pwr (c : Nat) (x : MtrCircuit) : (setCirc c x d).pwr = d.pwr := rfl
@[simp] theorem setCirc_tod (c : Nat) (x : MtrCircuit) : (setCirc c x d).tod = d.tod := rfl
@[simp] theorem setCirc_ports (c : Nat) (x : MtrCircuit) : (setCirc c x d).ports = d.ports := rfl
@[simp] theorem setCirc_pub (c : Nat) (x : MtrCircuit) : (setCirc c x d).pub = d.pub := rfl
@[simp] theorem setCirc_ing (c : Nat) (x : MtrCircuit) : (setCirc c x d).ing = d.ing := rfl
@[simp] theorem setCirc_dir (c : Nat) (x : MtrCircuit) : (setCirc c x d).dir = d.dir := rfl
@[simp] theorem setCirc_aln (c : Nat) (x : MtrCircuit) : (setCirc c x d).aln = d.aln := rfl
@[simp] theorem setCirc_est (c : Nat) (x : MtrCircuit) : (setCirc c x d).est = d.est := rfl
@[simp] theorem setCirc_osc (c : Nat) (x : MtrCircuit) : (setCirc c x d).osc = d.osc := rfl
@[simp] theorem setCirc_isl (c : Nat) (x : MtrCircuit) : (setCirc c x d).isl = d.isl := rfl
@[simp] theorem setCirc_alm (c : Nat) (x : MtrCircuit) : (setCirc c x d).alm = d.alm := rfl
@[simp] theorem setCirc_lch (c : Nat) (x : MtrCircuit) : (setCirc c x d).lch = d.lch := rfl
@[simp] theorem setCirc_cap (c : Nat) (x : MtrCircuit) : (setCirc c x d).cap = d.cap := rfl
@[simp] theorem setCirc_lmf (c : Nat) (x : MtrCircuit) : (setCirc c x d).lmf = d.lmf := rfl
@[simp] theorem setCirc_aux (c : Nat) (x : MtrCircuit) : (setCirc c x d).aux = d.aux := rfl
@[simp] theorem setCirc_key (c : Nat) (x : MtrCircuit) : (setCirc c x d).key = d.key := rfl
@[simp] theorem setCirc_tmp (c : Nat) (x : MtrCircuit) : (setCirc c x d).tmp = d.tmp := rfl
@[simp] theorem setCirc_cur (c : Nat) (x : MtrCircuit) : (setCirc c x d).cur = d.cur := rfl
@[simp] theorem setCirc_staged (c : Nat) (x : MtrCircuit) : (setCirc c x d).staged = d.staged := rfl
@[simp] theorem setCirc_old (c : Nat) (x : MtrCircuit) : (setCirc c x d).old = d.old := rfl
@[simp] theorem setCirc_cnt (c : Nat) (x : MtrCircuit) : (setCirc c x d).cnt = d.cnt := rfl
@[simp] theorem setCirc_snap (c : Nat) (x : MtrCircuit) : (setCirc c x d).snap = d.snap := rfl
@[simp] theorem setCirc_out (c : Nat) (x : MtrCircuit) : (setCirc c x d).out = d.out := rfl
@[simp] theorem setCirc_draws (c : Nat) (x : MtrCircuit) : (setCirc c x d).draws = d.draws := rfl

/-! ### `setPulse` writes `mtr` alone -/

@[simp] theorem setPulse_log (p : Nat) (x : MtrPulse) : (setPulse p x d).log = d.log := rfl
@[simp] theorem setPulse_cmd (p : Nat) (x : MtrPulse) : (setPulse p x d).cmd = d.cmd := rfl
@[simp] theorem setPulse_clk (p : Nat) (x : MtrPulse) : (setPulse p x d).clk = d.clk := rfl
@[simp] theorem setPulse_hrd (p : Nat) (x : MtrPulse) : (setPulse p x d).hrd = d.hrd := rfl
@[simp] theorem setPulse_gbl (p : Nat) (x : MtrPulse) : (setPulse p x d).gbl = d.gbl := rfl
@[simp] theorem setPulse_pwr (p : Nat) (x : MtrPulse) : (setPulse p x d).pwr = d.pwr := rfl
@[simp] theorem setPulse_tod (p : Nat) (x : MtrPulse) : (setPulse p x d).tod = d.tod := rfl
@[simp] theorem setPulse_ports (p : Nat) (x : MtrPulse) : (setPulse p x d).ports = d.ports := rfl
@[simp] theorem setPulse_pub (p : Nat) (x : MtrPulse) : (setPulse p x d).pub = d.pub := rfl
@[simp] theorem setPulse_ing (p : Nat) (x : MtrPulse) : (setPulse p x d).ing = d.ing := rfl
@[simp] theorem setPulse_dir (p : Nat) (x : MtrPulse) : (setPulse p x d).dir = d.dir := rfl
@[simp] theorem setPulse_aln (p : Nat) (x : MtrPulse) : (setPulse p x d).aln = d.aln := rfl
@[simp] theorem setPulse_est (p : Nat) (x : MtrPulse) : (setPulse p x d).est = d.est := rfl
@[simp] theorem setPulse_osc (p : Nat) (x : MtrPulse) : (setPulse p x d).osc = d.osc := rfl
@[simp] theorem setPulse_isl (p : Nat) (x : MtrPulse) : (setPulse p x d).isl = d.isl := rfl
@[simp] theorem setPulse_alm (p : Nat) (x : MtrPulse) : (setPulse p x d).alm = d.alm := rfl
@[simp] theorem setPulse_lch (p : Nat) (x : MtrPulse) : (setPulse p x d).lch = d.lch := rfl
@[simp] theorem setPulse_cap (p : Nat) (x : MtrPulse) : (setPulse p x d).cap = d.cap := rfl
@[simp] theorem setPulse_lmf (p : Nat) (x : MtrPulse) : (setPulse p x d).lmf = d.lmf := rfl
@[simp] theorem setPulse_aux (p : Nat) (x : MtrPulse) : (setPulse p x d).aux = d.aux := rfl
@[simp] theorem setPulse_key (p : Nat) (x : MtrPulse) : (setPulse p x d).key = d.key := rfl
@[simp] theorem setPulse_tmp (p : Nat) (x : MtrPulse) : (setPulse p x d).tmp = d.tmp := rfl
@[simp] theorem setPulse_cur (p : Nat) (x : MtrPulse) : (setPulse p x d).cur = d.cur := rfl
@[simp] theorem setPulse_staged (p : Nat) (x : MtrPulse) : (setPulse p x d).staged = d.staged := rfl
@[simp] theorem setPulse_old (p : Nat) (x : MtrPulse) : (setPulse p x d).old = d.old := rfl
@[simp] theorem setPulse_cnt (p : Nat) (x : MtrPulse) : (setPulse p x d).cnt = d.cnt := rfl
@[simp] theorem setPulse_snap (p : Nat) (x : MtrPulse) : (setPulse p x d).snap = d.snap := rfl
@[simp] theorem setPulse_out (p : Nat) (x : MtrPulse) : (setPulse p x d).out = d.out := rfl
@[simp] theorem setPulse_draws (p : Nat) (x : MtrPulse) : (setPulse p x d).draws = d.draws := rfl

/-! ### `setPtp` writes `tod` alone -/

@[simp] theorem setPtp_log (p : Nat) (x : PtpPort) : (setPtp p x d).log = d.log := rfl
@[simp] theorem setPtp_cmd (p : Nat) (x : PtpPort) : (setPtp p x d).cmd = d.cmd := rfl
@[simp] theorem setPtp_clk (p : Nat) (x : PtpPort) : (setPtp p x d).clk = d.clk := rfl
@[simp] theorem setPtp_hrd (p : Nat) (x : PtpPort) : (setPtp p x d).hrd = d.hrd := rfl
@[simp] theorem setPtp_gbl (p : Nat) (x : PtpPort) : (setPtp p x d).gbl = d.gbl := rfl
@[simp] theorem setPtp_pwr (p : Nat) (x : PtpPort) : (setPtp p x d).pwr = d.pwr := rfl
@[simp] theorem setPtp_ports (p : Nat) (x : PtpPort) : (setPtp p x d).ports = d.ports := rfl
@[simp] theorem setPtp_pub (p : Nat) (x : PtpPort) : (setPtp p x d).pub = d.pub := rfl
@[simp] theorem setPtp_ing (p : Nat) (x : PtpPort) : (setPtp p x d).ing = d.ing := rfl
@[simp] theorem setPtp_dir (p : Nat) (x : PtpPort) : (setPtp p x d).dir = d.dir := rfl
@[simp] theorem setPtp_aln (p : Nat) (x : PtpPort) : (setPtp p x d).aln = d.aln := rfl
@[simp] theorem setPtp_est (p : Nat) (x : PtpPort) : (setPtp p x d).est = d.est := rfl
@[simp] theorem setPtp_osc (p : Nat) (x : PtpPort) : (setPtp p x d).osc = d.osc := rfl
@[simp] theorem setPtp_isl (p : Nat) (x : PtpPort) : (setPtp p x d).isl = d.isl := rfl
@[simp] theorem setPtp_alm (p : Nat) (x : PtpPort) : (setPtp p x d).alm = d.alm := rfl
@[simp] theorem setPtp_lch (p : Nat) (x : PtpPort) : (setPtp p x d).lch = d.lch := rfl
@[simp] theorem setPtp_cap (p : Nat) (x : PtpPort) : (setPtp p x d).cap = d.cap := rfl
@[simp] theorem setPtp_lmf (p : Nat) (x : PtpPort) : (setPtp p x d).lmf = d.lmf := rfl
@[simp] theorem setPtp_aux (p : Nat) (x : PtpPort) : (setPtp p x d).aux = d.aux := rfl
@[simp] theorem setPtp_mtr (p : Nat) (x : PtpPort) : (setPtp p x d).mtr = d.mtr := rfl
@[simp] theorem setPtp_key (p : Nat) (x : PtpPort) : (setPtp p x d).key = d.key := rfl
@[simp] theorem setPtp_tmp (p : Nat) (x : PtpPort) : (setPtp p x d).tmp = d.tmp := rfl
@[simp] theorem setPtp_cur (p : Nat) (x : PtpPort) : (setPtp p x d).cur = d.cur := rfl
@[simp] theorem setPtp_staged (p : Nat) (x : PtpPort) : (setPtp p x d).staged = d.staged := rfl
@[simp] theorem setPtp_old (p : Nat) (x : PtpPort) : (setPtp p x d).old = d.old := rfl
@[simp] theorem setPtp_cnt (p : Nat) (x : PtpPort) : (setPtp p x d).cnt = d.cnt := rfl
@[simp] theorem setPtp_snap (p : Nat) (x : PtpPort) : (setPtp p x d).snap = d.snap := rfl
@[simp] theorem setPtp_out (p : Nat) (x : PtpPort) : (setPtp p x d).out = d.out := rfl
@[simp] theorem setPtp_draws (p : Nat) (x : PtpPort) : (setPtp p x d).draws = d.draws := rfl

/-! ### `setSnap` writes `tod` alone -/

@[simp] theorem setSnap_log (n : Nat) (x : Snap) : (setSnap n x d).log = d.log := by unfold setSnap; split <;> rfl
@[simp] theorem setSnap_cmd (n : Nat) (x : Snap) : (setSnap n x d).cmd = d.cmd := by unfold setSnap; split <;> rfl
@[simp] theorem setSnap_clk (n : Nat) (x : Snap) : (setSnap n x d).clk = d.clk := by unfold setSnap; split <;> rfl
@[simp] theorem setSnap_hrd (n : Nat) (x : Snap) : (setSnap n x d).hrd = d.hrd := by unfold setSnap; split <;> rfl
@[simp] theorem setSnap_gbl (n : Nat) (x : Snap) : (setSnap n x d).gbl = d.gbl := by unfold setSnap; split <;> rfl
@[simp] theorem setSnap_pwr (n : Nat) (x : Snap) : (setSnap n x d).pwr = d.pwr := by unfold setSnap; split <;> rfl
@[simp] theorem setSnap_ports (n : Nat) (x : Snap) : (setSnap n x d).ports = d.ports := by unfold setSnap; split <;> rfl
@[simp] theorem setSnap_pub (n : Nat) (x : Snap) : (setSnap n x d).pub = d.pub := by unfold setSnap; split <;> rfl
@[simp] theorem setSnap_ing (n : Nat) (x : Snap) : (setSnap n x d).ing = d.ing := by unfold setSnap; split <;> rfl
@[simp] theorem setSnap_dir (n : Nat) (x : Snap) : (setSnap n x d).dir = d.dir := by unfold setSnap; split <;> rfl
@[simp] theorem setSnap_aln (n : Nat) (x : Snap) : (setSnap n x d).aln = d.aln := by unfold setSnap; split <;> rfl
@[simp] theorem setSnap_est (n : Nat) (x : Snap) : (setSnap n x d).est = d.est := by unfold setSnap; split <;> rfl
@[simp] theorem setSnap_osc (n : Nat) (x : Snap) : (setSnap n x d).osc = d.osc := by unfold setSnap; split <;> rfl
@[simp] theorem setSnap_isl (n : Nat) (x : Snap) : (setSnap n x d).isl = d.isl := by unfold setSnap; split <;> rfl
@[simp] theorem setSnap_alm (n : Nat) (x : Snap) : (setSnap n x d).alm = d.alm := by unfold setSnap; split <;> rfl
@[simp] theorem setSnap_lch (n : Nat) (x : Snap) : (setSnap n x d).lch = d.lch := by unfold setSnap; split <;> rfl
@[simp] theorem setSnap_cap (n : Nat) (x : Snap) : (setSnap n x d).cap = d.cap := by unfold setSnap; split <;> rfl
@[simp] theorem setSnap_lmf (n : Nat) (x : Snap) : (setSnap n x d).lmf = d.lmf := by unfold setSnap; split <;> rfl
@[simp] theorem setSnap_aux (n : Nat) (x : Snap) : (setSnap n x d).aux = d.aux := by unfold setSnap; split <;> rfl
@[simp] theorem setSnap_mtr (n : Nat) (x : Snap) : (setSnap n x d).mtr = d.mtr := by unfold setSnap; split <;> rfl
@[simp] theorem setSnap_key (n : Nat) (x : Snap) : (setSnap n x d).key = d.key := by unfold setSnap; split <;> rfl
@[simp] theorem setSnap_tmp (n : Nat) (x : Snap) : (setSnap n x d).tmp = d.tmp := by unfold setSnap; split <;> rfl
@[simp] theorem setSnap_cur (n : Nat) (x : Snap) : (setSnap n x d).cur = d.cur := by unfold setSnap; split <;> rfl
@[simp] theorem setSnap_staged (n : Nat) (x : Snap) : (setSnap n x d).staged = d.staged := by unfold setSnap; split <;> rfl
@[simp] theorem setSnap_old (n : Nat) (x : Snap) : (setSnap n x d).old = d.old := by unfold setSnap; split <;> rfl
@[simp] theorem setSnap_cnt (n : Nat) (x : Snap) : (setSnap n x d).cnt = d.cnt := by unfold setSnap; split <;> rfl
@[simp] theorem setSnap_snap (n : Nat) (x : Snap) : (setSnap n x d).snap = d.snap := by unfold setSnap; split <;> rfl
@[simp] theorem setSnap_out (n : Nat) (x : Snap) : (setSnap n x d).out = d.out := by unfold setSnap; split <;> rfl
@[simp] theorem setSnap_draws (n : Nat) (x : Snap) : (setSnap n x d).draws = d.draws := by unfold setSnap; split <;> rfl

/-! ### `setLock` writes `clk` alone -/

@[simp] theorem setLock_log (n : Nat) (b : Bool) : (setLock n b d).log = d.log := rfl
@[simp] theorem setLock_cmd (n : Nat) (b : Bool) : (setLock n b d).cmd = d.cmd := rfl
@[simp] theorem setLock_hrd (n : Nat) (b : Bool) : (setLock n b d).hrd = d.hrd := rfl
@[simp] theorem setLock_gbl (n : Nat) (b : Bool) : (setLock n b d).gbl = d.gbl := rfl
@[simp] theorem setLock_pwr (n : Nat) (b : Bool) : (setLock n b d).pwr = d.pwr := rfl
@[simp] theorem setLock_tod (n : Nat) (b : Bool) : (setLock n b d).tod = d.tod := rfl
@[simp] theorem setLock_ports (n : Nat) (b : Bool) : (setLock n b d).ports = d.ports := rfl
@[simp] theorem setLock_pub (n : Nat) (b : Bool) : (setLock n b d).pub = d.pub := rfl
@[simp] theorem setLock_ing (n : Nat) (b : Bool) : (setLock n b d).ing = d.ing := rfl
@[simp] theorem setLock_dir (n : Nat) (b : Bool) : (setLock n b d).dir = d.dir := rfl
@[simp] theorem setLock_aln (n : Nat) (b : Bool) : (setLock n b d).aln = d.aln := rfl
@[simp] theorem setLock_est (n : Nat) (b : Bool) : (setLock n b d).est = d.est := rfl
@[simp] theorem setLock_osc (n : Nat) (b : Bool) : (setLock n b d).osc = d.osc := rfl
@[simp] theorem setLock_isl (n : Nat) (b : Bool) : (setLock n b d).isl = d.isl := rfl
@[simp] theorem setLock_alm (n : Nat) (b : Bool) : (setLock n b d).alm = d.alm := rfl
@[simp] theorem setLock_lch (n : Nat) (b : Bool) : (setLock n b d).lch = d.lch := rfl
@[simp] theorem setLock_cap (n : Nat) (b : Bool) : (setLock n b d).cap = d.cap := rfl
@[simp] theorem setLock_lmf (n : Nat) (b : Bool) : (setLock n b d).lmf = d.lmf := rfl
@[simp] theorem setLock_aux (n : Nat) (b : Bool) : (setLock n b d).aux = d.aux := rfl
@[simp] theorem setLock_mtr (n : Nat) (b : Bool) : (setLock n b d).mtr = d.mtr := rfl
@[simp] theorem setLock_key (n : Nat) (b : Bool) : (setLock n b d).key = d.key := rfl
@[simp] theorem setLock_tmp (n : Nat) (b : Bool) : (setLock n b d).tmp = d.tmp := rfl
@[simp] theorem setLock_cur (n : Nat) (b : Bool) : (setLock n b d).cur = d.cur := rfl
@[simp] theorem setLock_staged (n : Nat) (b : Bool) : (setLock n b d).staged = d.staged := rfl
@[simp] theorem setLock_old (n : Nat) (b : Bool) : (setLock n b d).old = d.old := rfl
@[simp] theorem setLock_cnt (n : Nat) (b : Bool) : (setLock n b d).cnt = d.cnt := rfl
@[simp] theorem setLock_snap (n : Nat) (b : Bool) : (setLock n b d).snap = d.snap := rfl
@[simp] theorem setLock_out (n : Nat) (b : Bool) : (setLock n b d).out = d.out := rfl
@[simp] theorem setLock_draws (n : Nat) (b : Bool) : (setLock n b d).draws = d.draws := rfl

/-! ### `setFunc` writes `gbl` alone -/

@[simp] theorem setFunc_log (b : Bool) (x : Func) : (setFunc d b x).log = d.log := by cases b <;> rfl
@[simp] theorem setFunc_cmd (b : Bool) (x : Func) : (setFunc d b x).cmd = d.cmd := by cases b <;> rfl
@[simp] theorem setFunc_clk (b : Bool) (x : Func) : (setFunc d b x).clk = d.clk := by cases b <;> rfl
@[simp] theorem setFunc_hrd (b : Bool) (x : Func) : (setFunc d b x).hrd = d.hrd := by cases b <;> rfl
@[simp] theorem setFunc_pwr (b : Bool) (x : Func) : (setFunc d b x).pwr = d.pwr := by cases b <;> rfl
@[simp] theorem setFunc_tod (b : Bool) (x : Func) : (setFunc d b x).tod = d.tod := by cases b <;> rfl
@[simp] theorem setFunc_ports (b : Bool) (x : Func) : (setFunc d b x).ports = d.ports := by cases b <;> rfl
@[simp] theorem setFunc_pub (b : Bool) (x : Func) : (setFunc d b x).pub = d.pub := by cases b <;> rfl
@[simp] theorem setFunc_ing (b : Bool) (x : Func) : (setFunc d b x).ing = d.ing := by cases b <;> rfl
@[simp] theorem setFunc_dir (b : Bool) (x : Func) : (setFunc d b x).dir = d.dir := by cases b <;> rfl
@[simp] theorem setFunc_aln (b : Bool) (x : Func) : (setFunc d b x).aln = d.aln := by cases b <;> rfl
@[simp] theorem setFunc_est (b : Bool) (x : Func) : (setFunc d b x).est = d.est := by cases b <;> rfl
@[simp] theorem setFunc_osc (b : Bool) (x : Func) : (setFunc d b x).osc = d.osc := by cases b <;> rfl
@[simp] theorem setFunc_isl (b : Bool) (x : Func) : (setFunc d b x).isl = d.isl := by cases b <;> rfl
@[simp] theorem setFunc_alm (b : Bool) (x : Func) : (setFunc d b x).alm = d.alm := by cases b <;> rfl
@[simp] theorem setFunc_lch (b : Bool) (x : Func) : (setFunc d b x).lch = d.lch := by cases b <;> rfl
@[simp] theorem setFunc_cap (b : Bool) (x : Func) : (setFunc d b x).cap = d.cap := by cases b <;> rfl
@[simp] theorem setFunc_lmf (b : Bool) (x : Func) : (setFunc d b x).lmf = d.lmf := by cases b <;> rfl
@[simp] theorem setFunc_aux (b : Bool) (x : Func) : (setFunc d b x).aux = d.aux := by cases b <;> rfl
@[simp] theorem setFunc_mtr (b : Bool) (x : Func) : (setFunc d b x).mtr = d.mtr := by cases b <;> rfl
@[simp] theorem setFunc_key (b : Bool) (x : Func) : (setFunc d b x).key = d.key := by cases b <;> rfl
@[simp] theorem setFunc_tmp (b : Bool) (x : Func) : (setFunc d b x).tmp = d.tmp := by cases b <;> rfl
@[simp] theorem setFunc_cur (b : Bool) (x : Func) : (setFunc d b x).cur = d.cur := by cases b <;> rfl
@[simp] theorem setFunc_staged (b : Bool) (x : Func) : (setFunc d b x).staged = d.staged := by cases b <;> rfl
@[simp] theorem setFunc_old (b : Bool) (x : Func) : (setFunc d b x).old = d.old := by cases b <;> rfl
@[simp] theorem setFunc_cnt (b : Bool) (x : Func) : (setFunc d b x).cnt = d.cnt := by cases b <;> rfl
@[simp] theorem setFunc_snap (b : Bool) (x : Func) : (setFunc d b x).snap = d.snap := by cases b <;> rfl
@[simp] theorem setFunc_out (b : Bool) (x : Func) : (setFunc d b x).out = d.out := by cases b <;> rfl
@[simp] theorem setFunc_draws (b : Bool) (x : Func) : (setFunc d b x).draws = d.draws := by cases b <;> rfl

/-! ### `setIntEn` writes `gbl` alone -/

@[simp] theorem setIntEn_log (p : Path) (v : BitVec 26) : (setIntEn p v d).log = d.log := by cases p <;> rfl
@[simp] theorem setIntEn_cmd (p : Path) (v : BitVec 26) : (setIntEn p v d).cmd = d.cmd := by cases p <;> rfl
@[simp] theorem setIntEn_clk (p : Path) (v : BitVec 26) : (setIntEn p v d).clk = d.clk := by cases p <;> rfl
@[simp] theorem setIntEn_hrd (p : Path) (v : BitVec 26) : (setIntEn p v d).hrd = d.hrd := by cases p <;> rfl
@[simp] theorem setIntEn_pwr (p : Path) (v : BitVec 26) : (setIntEn p v d).pwr = d.pwr := by cases p <;> rfl
@[simp] theorem setIntEn_tod (p : Path) (v : BitVec 26) : (setIntEn p v d).tod = d.tod := by cases p <;> rfl
@[simp] theorem setIntEn_ports (p : Path) (v : BitVec 26) : (setIntEn p v d).ports = d.ports := by cases p <;> rfl
@[simp] theorem setIntEn_pub (p : Path) (v : BitVec 26) : (setIntEn p v d).pub = d.pub := by cases p <;> rfl
@[simp] theorem setIntEn_ing (p : Path) (v : BitVec 26) : (setIntEn p v d).ing = d.ing := by cases p <;> rfl
@[simp] theorem setIntEn_dir (p : Path) (v : BitVec 26) : (setIntEn p v d).dir = d.dir := by cases p <;> rfl
@[simp] theorem setIntEn_aln (p : Path) (v : BitVec 26) : (setIntEn p v d).aln = d.aln := by cases p <;> rfl
@[simp] theorem setIntEn_est (p : Path) (v : BitVec 26) : (setIntEn p v d).est = d.est := by cases p <;> rfl
@[simp] theorem setIntEn_osc (p : Path) (v : BitVec 26) : (setIntEn p v d).osc = d.osc := by cases p <;> rfl
@[simp] theorem setIntEn_isl (p : Path) (v : BitVec 26) : (setIntEn p v d).isl = d.isl := by cases p <;> rfl
@[simp] theorem setIntEn_alm (p : Path) (v : BitVec 26) : (setIntEn p v d).alm = d.alm := by cases p <;> rfl
@[simp] theorem setIntEn_lch (p : Path) (v : BitVec 26) : (setIntEn p v d).lch = d.lch := by cases p <;> rfl
@[simp] theorem setIntEn_cap (p : Path) (v : BitVec 26) : (setIntEn p v d).cap = d.cap := by cases p <;> rfl
@[simp] theorem setIntEn_lmf (p : Path) (v : BitVec 26) : (setIntEn p v d).lmf = d.lmf := by cases p <;> rfl
@[simp] theorem setIntEn_aux (p : Path) (v : BitVec 26) : (setIntEn p v d).aux = d.aux := by cases p <;> rfl
@[simp] theorem setIntEn_mtr (p : Path) (v : BitVec 26) : (setIntEn p v d).mtr = d.mtr := by cases p <;> rfl
@[simp] theorem setIntEn_key (p : Path) (v : BitVec 26) : (setIntEn p v d).key = d.key := by cases p <;> rfl
@[simp] theorem setIntEn_tmp (p : Path) (v : BitVec 26) : (setIntEn p v d).tmp = d.tmp := by cases p <;> rfl
@[simp] theorem setIntEn_cur (p : Path) (v : BitVec 26) : (setIntEn p v d).cur = d.cur := by cases p <;> rfl
@[simp] theorem setIntEn_staged (p : Path) (v : BitVec 26) : (setIntEn p v d).staged = d.staged := by cases p <;> rfl
@[simp] theorem setIntEn_old (p : Path) (v : BitVec 26) : (setIntEn p v d).old = d.old := by cases p <;> rfl
@[simp] theorem setIntEn_cnt (p : Path) (v : BitVec 26) : (setIntEn p v d).cnt = d.cnt := by cases p <;> rfl
@[simp] theorem setIntEn_snap (p : Path) (v : BitVec 26) : (setIntEn p v d).snap = d.snap := by cases p <;> rfl
@[simp] theorem setIntEn_out (p : Path) (v : BitVec 26) : (setIntEn p v d).out = d.out := by cases p <;> rfl
@[simp] theorem setIntEn_draws (p : Path) (v : BitVec 26) : (setIntEn p v d).draws = d.draws := by cases p <;> rfl

/-! ### `withIntN` writes `gbl` alone -/

@[simp] theorem withIntN_log (b : Bool) : (withIntN b d).log = d.log := rfl
@[simp] theorem withIntN_cmd (b : Bool) : (withIntN b d).cmd = d.cmd := rfl
@[simp] theorem withIntN_clk (b : Bool) : (withIntN b d).clk = d.clk := rfl
@[simp] theorem withIntN_hrd (b : Bool) : (withIntN b d).hrd = d.hrd := rfl
@[simp] theorem withIntN_pwr (b : Bool) : (withIntN b d).pwr = d.pwr := rfl
@[simp] theorem withIntN_tod (b : Bool) : (withIntN b d).tod = d.tod := rfl
@[simp] theorem withIntN_ports (b : Bool) : (withIntN b d).ports = d.ports := rfl
@[simp] theorem withIntN_pub (b : Bool) : (withIntN b d).pub = d.pub := rfl
@[simp] theorem withIntN_ing (b : Bool) : (withIntN b d).ing = d.ing := rfl
@[simp] theorem withIntN_dir (b : Bool) : (withIntN b d).dir = d.dir := rfl
@[simp] theorem withIntN_aln (b : Bool) : (withIntN b d).aln = d.aln := rfl
@[simp] theorem withIntN_est (b : Bool) : (withIntN b d).est = d.est := rfl
@[simp] theorem withIntN_osc (b : Bool) : (withIntN b d).osc = d.osc := rfl
@[simp] theorem withIntN_isl (b : Bool) : (withIntN b d).isl = d.isl := rfl
@[simp] theorem withIntN_alm (b : Bool) : (withIntN b d).alm = d.alm := rfl
@[simp] theorem withIntN_lch (b : Bool) : (withIntN b d).lch = d.lch := rfl
@[simp] theorem withIntN_cap (b : Bool) : (withIntN b d).cap = d.cap := rfl
@[simp] theorem withIntN_lmf (b : Bool) : (withIntN b d).lmf = d.lmf := rfl
@[simp] theorem withIntN_aux (b : Bool) : (withIntN b d).aux = d.aux := rfl
@[simp] theorem withIntN_mtr (b : Bool) : (withIntN b d).mtr = d.mtr := rfl
@[simp] theorem withIntN_key (b : Bool) : (withIntN b d).key = d.key := rfl
@[simp] theorem withIntN_tmp (b : Bool) : (withIntN b d).tmp = d.tmp := rfl
@[simp] theorem withIntN_cur (b : Bool) : (withIntN b d).cur = d.cur := rfl
@[simp] theorem withIntN_staged (b : Bool) : (withIntN b d).staged = d.staged := rfl
@[simp] theorem withIntN_old (b : Bool) : (withIntN b d).old = d.old := rfl
@[simp] theorem withIntN_cnt (b : Bool) : (withIntN b d).cnt = d.cnt := rfl
@[simp] theorem withIntN_snap (b : Bool) : (withIntN b d).snap = d.snap := rfl
@[simp] theorem withIntN_out (b : Bool) : (withIntN b d).out = d.out := rfl
@[simp] theorem withIntN_draws (b : Bool) : (withIntN b d).draws = d.draws := rfl

/-! ### `withSummary` writes `gbl` alone -/

@[simp] theorem withSummary_log (b on : Bool) : (withSummary b on d).log = d.log := by cases b <;> rfl
@[simp] theorem withSummary_cmd (b on : Bool) : (withSummary b on d).cmd = d.cmd := by cases b <;> rfl
@[simp] theorem withSummary_clk (b on : Bool) : (withSummary b on d).clk = d.clk := by cases b <;> rfl
@[simp] theorem withSummary_hrd (b on : Bool) : (withSummary b on d).hrd = d.hrd := by cases b <;> rfl
@[simp] theorem withSummary_pwr (b on : Bool) : (withSummary b on d).pwr = d.pwr := by cases b <;> rfl
@[simp] theorem withSummary_tod (b on : Bool) : (withSummary b on d).tod = d.tod := by cases b <;> rfl
@[simp] theorem withSummary_ports (b on : Bool) : (withSummary b on d).ports = d.ports := by cases b <;> rfl
@[simp] theorem withSummary_pub (b on : Bool) : (withSummary b on d).pub = d.pub := by cases b <;> rfl
@[simp] theorem withSummary_ing (b on : Bool) : (withSummary b on d).ing = d.ing := by cases b <;> rfl
@[simp] theorem withSummary_dir (b on : Bool) : (withSummary b on d).dir = d.dir := by cases b <;> rfl
@[simp] theorem withSummary_aln (b on : Bool) : (withSummary b on d).aln = d.aln := by cases b <;> rfl
@[simp] theorem withSummary_est (b on : Bool) : (withSummary b on d).est = d.est := by cases b <;> rfl
@[simp] theorem withSummary_osc (b on : Bool) : (withSummary b on d).osc = d.osc := by cases b <;> rfl
@[simp] theorem withSummary_isl (b on : Bool) : (withSummary b on d).isl = d.isl := by cases b <;> rfl
@[simp] theorem withSummary_alm (b on : Bool) : (withSummary b on d).alm = d.alm := by cases b <;> rfl
@[simp] theorem withSummary_lch (b on : Bool) : (withSummary b on d).lch = d.lch := by cases b <;> rfl
@[simp] theorem withSummary_cap (b on : Bool) : (withSummary b on d).cap = d.cap := by cases b <;> rfl
@[simp] theorem withSummary_lmf (b on : Bool) : (withSummary b on d).lmf = d.lmf := by cases b <;> rfl
@[simp] theorem withSummary_aux (b on : Bool) : (withSummary b on d).aux = d.aux := by cases b <;> rfl
@[simp] theorem withSummary_mtr (b on : Bool) : (withSummary b on d).mtr = d.mtr := by cases b <;> rfl
@[simp] theorem withSummary_key (b on : Bool) : (withSummary b on d).key = d.key := by cases b <;> rfl
@[simp] theorem withSummary_tmp (b on : Bool) : (withSummary b on d).tmp = d.tmp := by cases b <;> rfl
@[simp] theorem withSummary_cur (b on : Bool) : (withSummary b on d).cur = d.cur := by cases b <;> rfl
@[simp] theorem withSummary_staged (b on : Bool) : (withSummary b on d).staged = d.staged := by cases b <;> rfl
@[simp] theorem withSummary_old (b on : Bool) : (withSummary b on d).old = d.old := by cases b <;> rfl
@[simp] theorem withSummary_cnt (b on : Bool) : (withSummary b on d).cnt = d.cnt := by cases b <;> rfl
@[simp] theorem withSummary_snap (b on : Bool) : (withSummary b on d).snap = d.snap := by cases b <;> rfl
@[simp] theorem withSummary_out (b on : Bool) : (withSummary b on d).out = d.out := by cases b <;> rfl
@[simp] theorem withSummary_draws (b on : Bool) : (withSummary b on d).draws = d.draws := by cases b <;> rfl

/-! ### `withWindows` writes `gbl` alone -/

@[simp] theorem withWindows_log (a b : Bool) : (withWindows a b d).log = d.log := rfl
@[simp] theorem withWindows_cmd (a b : Bool) : (withWindows a b d).cmd = d.cmd := rfl
@[simp] theorem withWindows_clk (a b : Bool) : (withWindows a b d).clk = d.clk := rfl
@[simp] theorem withWindows_hrd (a b : Bool) : (withWindows a b d).hrd = d.hrd := rfl
@[simp] theorem withWindows_pwr (a b : Bool) : (withWindows a b d).pwr = d.pwr := rfl
@[simp] theorem withWindows_tod (a b : Bool) : (withWindows a b d).tod = d.tod := rfl
@[simp] theorem withWindows_ports (a b : Bool) : (withWindows a b d).ports = d.ports := rfl
@[simp] theorem withWindows_pub (a b : Bool) : (withWindows a b d).pub = d.pub := rfl
@[simp] theorem withWindows_ing (a b : Bool) : (withWindows a b d).ing = d.ing := rfl
@[simp] theorem withWindows_dir (a b : Bool) : (withWindows a b d).dir = d.dir := rfl
@[simp] theorem withWindows_aln (a b : Bool) : (withWindows a b d).aln = d.aln := rfl
@[simp] theorem withWindows_est (a b : Bool) : (withWindows a b d).est = d.est := rfl
@[simp] theorem withWindows_osc (a b : Bool) : (withWindows a b d).osc = d.osc := rfl
@[simp] theorem withWindows_isl (a b : Bool) : (withWindows a b d).isl = d.isl := rfl
@[simp] theorem withWindows_alm (a b : Bool) : (withWindows a b d).alm = d.alm := rfl
@[simp] theorem withWindows_lch (a b : Bool) : (withWindows a b d).lch = d.lch := rfl
@[simp] theorem withWindows_cap (a b : Bool) : (withWindows a b d).cap = d.cap := rfl
@[simp] theorem withWindows_lmf (a b : Bool) : (withWindows a b d).lmf = d.lmf := rfl
@[simp] theorem withWindows_aux (a b : Bool) : (withWindows a b d).aux = d.aux := rfl
@[simp] theorem withWindows_mtr (a b : Bool) : (withWindows a b d).mtr = d.mtr := rfl
@[simp] theorem withWindows_key (a b : Bool) : (withWindows a b d).key = d.key := rfl
@[simp] theorem withWindows_tmp (a b : Bool) : (withWindows a b d).tmp = d.tmp := rfl
@[simp] theorem withWindows_cur (a b : Bool) : (withWindows a b d).cur = d.cur := rfl
@[simp] theorem withWindows_staged (a b : Bool) : (withWindows a b d).staged = d.staged := rfl
@[simp] theorem withWindows_old (a b : Bool) : (withWindows a b d).old = d.old := rfl
@[simp] theorem withWindows_cnt (a b : Bool) : (withWindows a b d).cnt = d.cnt := rfl
@[simp] theorem withWindows_snap (a b : Bool) : (withWindows a b d).snap = d.snap := rfl
@[simp] theorem withWindows_out (a b : Bool) : (withWindows a b d).out = d.out := rfl
@[simp] theorem withWindows_draws (a b : Bool) : (withWindows a b d).draws = d.draws := rfl

/-! ### `withPba` writes `gbl` alone -/

@[simp] theorem withPba_log (b : Bool) (p : BitVec 64) : (withPba b p d).log = d.log := by cases b <;> rfl
@[simp] theorem withPba_cmd (b : Bool) (p : BitVec 64) : (withPba b p d).cmd = d.cmd := by cases b <;> rfl
@[simp] theorem withPba_clk (b : Bool) (p : BitVec 64) : (withPba b p d).clk = d.clk := by cases b <;> rfl
@[simp] theorem withPba_hrd (b : Bool) (p : BitVec 64) : (withPba b p d).hrd = d.hrd := by cases b <;> rfl
@[simp] theorem withPba_pwr (b : Bool) (p : BitVec 64) : (withPba b p d).pwr = d.pwr := by cases b <;> rfl
@[simp] theorem withPba_tod (b : Bool) (p : BitVec 64) : (withPba b p d).tod = d.tod := by cases b <;> rfl
@[simp] theorem withPba_ports (b : Bool) (p : BitVec 64) : (withPba b p d).ports = d.ports := by cases b <;> rfl
@[simp] theorem withPba_pub (b : Bool) (p : BitVec 64) : (withPba b p d).pub = d.pub := by cases b <;> rfl
@[simp] theorem withPba_ing (b : Bool) (p : BitVec 64) : (withPba b p d).ing = d.ing := by cases b <;> rfl
@[simp] theorem withPba_dir (b : Bool) (p : BitVec 64) : (withPba b p d).dir = d.dir := by cases b <;> rfl
@[simp] theorem withPba_aln (b : Bool) (p : BitVec 64) : (withPba b p d).aln = d.aln := by cases b <;> rfl
@[simp] theorem withPba_est (b : Bool) (p : BitVec 64) : (withPba b p d).est = d.est := by cases b <;> rfl
@[simp] theorem withPba_osc (b : Bool) (p : BitVec 64) : (withPba b p d).osc = d.osc := by cases b <;> rfl
@[simp] theorem withPba_isl (b : Bool) (p : BitVec 64) : (withPba b p d).isl = d.isl := by cases b <;> rfl
@[simp] theorem withPba_alm (b : Bool) (p : BitVec 64) : (withPba b p d).alm = d.alm := by cases b <;> rfl
@[simp] theorem withPba_lch (b : Bool) (p : BitVec 64) : (withPba b p d).lch = d.lch := by cases b <;> rfl
@[simp] theorem withPba_cap (b : Bool) (p : BitVec 64) : (withPba b p d).cap = d.cap := by cases b <;> rfl
@[simp] theorem withPba_lmf (b : Bool) (p : BitVec 64) : (withPba b p d).lmf = d.lmf := by cases b <;> rfl
@[simp] theorem withPba_aux (b : Bool) (p : BitVec 64) : (withPba b p d).aux = d.aux := by cases b <;> rfl
@[simp] theorem withPba_mtr (b : Bool) (p : BitVec 64) : (withPba b p d).mtr = d.mtr := by cases b <;> rfl
@[simp] theorem withPba_key (b : Bool) (p : BitVec 64) : (withPba b p d).key = d.key := by cases b <;> rfl
@[simp] theorem withPba_tmp (b : Bool) (p : BitVec 64) : (withPba b p d).tmp = d.tmp := by cases b <;> rfl
@[simp] theorem withPba_cur (b : Bool) (p : BitVec 64) : (withPba b p d).cur = d.cur := by cases b <;> rfl
@[simp] theorem withPba_staged (b : Bool) (p : BitVec 64) : (withPba b p d).staged = d.staged := by cases b <;> rfl
@[simp] theorem withPba_old (b : Bool) (p : BitVec 64) : (withPba b p d).old = d.old := by cases b <;> rfl
@[simp] theorem withPba_cnt (b : Bool) (p : BitVec 64) : (withPba b p d).cnt = d.cnt := by cases b <;> rfl
@[simp] theorem withPba_snap (b : Bool) (p : BitVec 64) : (withPba b p d).snap = d.snap := by cases b <;> rfl
@[simp] theorem withPba_out (b : Bool) (p : BitVec 64) : (withPba b p d).out = d.out := by cases b <;> rfl
@[simp] theorem withPba_draws (b : Bool) (p : BitVec 64) : (withPba b p d).draws = d.draws := by cases b <;> rfl

/-! ### `setShadow` writes `gbl` alone -/

@[simp] theorem setShadow_log (p : Path) (x : Shadow) : (setShadow p x d).log = d.log := by cases p <;> rfl
@[simp] theorem setShadow_cmd (p : Path) (x : Shadow) : (setShadow p x d).cmd = d.cmd := by cases p <;> rfl
@[simp] theorem setShadow_clk (p : Path) (x : Shadow) : (setShadow p x d).clk = d.clk := by cases p <;> rfl
@[simp] theorem setShadow_hrd (p : Path) (x : Shadow) : (setShadow p x d).hrd = d.hrd := by cases p <;> rfl
@[simp] theorem setShadow_pwr (p : Path) (x : Shadow) : (setShadow p x d).pwr = d.pwr := by cases p <;> rfl
@[simp] theorem setShadow_tod (p : Path) (x : Shadow) : (setShadow p x d).tod = d.tod := by cases p <;> rfl
@[simp] theorem setShadow_ports (p : Path) (x : Shadow) : (setShadow p x d).ports = d.ports := by cases p <;> rfl
@[simp] theorem setShadow_pub (p : Path) (x : Shadow) : (setShadow p x d).pub = d.pub := by cases p <;> rfl
@[simp] theorem setShadow_ing (p : Path) (x : Shadow) : (setShadow p x d).ing = d.ing := by cases p <;> rfl
@[simp] theorem setShadow_dir (p : Path) (x : Shadow) : (setShadow p x d).dir = d.dir := by cases p <;> rfl
@[simp] theorem setShadow_aln (p : Path) (x : Shadow) : (setShadow p x d).aln = d.aln := by cases p <;> rfl
@[simp] theorem setShadow_est (p : Path) (x : Shadow) : (setShadow p x d).est = d.est := by cases p <;> rfl
@[simp] theorem setShadow_osc (p : Path) (x : Shadow) : (setShadow p x d).osc = d.osc := by cases p <;> rfl
@[simp] theorem setShadow_isl (p : Path) (x : Shadow) : (setShadow p x d).isl = d.isl := by cases p <;> rfl
@[simp] theorem setShadow_alm (p : Path) (x : Shadow) : (setShadow p x d).alm = d.alm := by cases p <;> rfl
@[simp] theorem setShadow_lch (p : Path) (x : Shadow) : (setShadow p x d).lch = d.lch := by cases p <;> rfl
@[simp] theorem setShadow_cap (p : Path) (x : Shadow) : (setShadow p x d).cap = d.cap := by cases p <;> rfl
@[simp] theorem setShadow_lmf (p : Path) (x : Shadow) : (setShadow p x d).lmf = d.lmf := by cases p <;> rfl
@[simp] theorem setShadow_aux (p : Path) (x : Shadow) : (setShadow p x d).aux = d.aux := by cases p <;> rfl
@[simp] theorem setShadow_mtr (p : Path) (x : Shadow) : (setShadow p x d).mtr = d.mtr := by cases p <;> rfl
@[simp] theorem setShadow_key (p : Path) (x : Shadow) : (setShadow p x d).key = d.key := by cases p <;> rfl
@[simp] theorem setShadow_tmp (p : Path) (x : Shadow) : (setShadow p x d).tmp = d.tmp := by cases p <;> rfl
@[simp] theorem setShadow_cur (p : Path) (x : Shadow) : (setShadow p x d).cur = d.cur := by cases p <;> rfl
@[simp] theorem setShadow_staged (p : Path) (x : Shadow) : (setShadow p x d).staged = d.staged := by cases p <;> rfl
@[simp] theorem setShadow_old (p : Path) (x : Shadow) : (setShadow p x d).old = d.old := by cases p <;> rfl
@[simp] theorem setShadow_cnt (p : Path) (x : Shadow) : (setShadow p x d).cnt = d.cnt := by cases p <;> rfl
@[simp] theorem setShadow_snap (p : Path) (x : Shadow) : (setShadow p x d).snap = d.snap := by cases p <;> rfl
@[simp] theorem setShadow_out (p : Path) (x : Shadow) : (setShadow p x d).out = d.out := by cases p <;> rfl
@[simp] theorem setShadow_draws (p : Path) (x : Shadow) : (setShadow p x d).draws = d.draws := by cases p <;> rfl

/-! ### `readAs` writes `gbl` alone -/

@[simp] theorem readAs_log (v : Nat) : (readAs v d).log = d.log := rfl
@[simp] theorem readAs_cmd (v : Nat) : (readAs v d).cmd = d.cmd := rfl
@[simp] theorem readAs_clk (v : Nat) : (readAs v d).clk = d.clk := rfl
@[simp] theorem readAs_hrd (v : Nat) : (readAs v d).hrd = d.hrd := rfl
@[simp] theorem readAs_pwr (v : Nat) : (readAs v d).pwr = d.pwr := rfl
@[simp] theorem readAs_tod (v : Nat) : (readAs v d).tod = d.tod := rfl
@[simp] theorem readAs_ports (v : Nat) : (readAs v d).ports = d.ports := rfl
@[simp] theorem readAs_pub (v : Nat) : (readAs v d).pub = d.pub := rfl
@[simp] theorem readAs_ing (v : Nat) : (readAs v d).ing = d.ing := rfl
@[simp] theorem readAs_dir (v : Nat) : (readAs v d).dir = d.dir := rfl
@[simp] theorem readAs_aln (v : Nat) : (readAs v d).aln = d.aln := rfl
@[simp] theorem readAs_est (v : Nat) : (readAs v d).est = d.est := rfl
@[simp] theorem readAs_osc (v : Nat) : (readAs v d).osc = d.osc := rfl
@[simp] theorem readAs_isl (v : Nat) : (readAs v d).isl = d.isl := rfl
@[simp] theorem readAs_alm (v : Nat) : (readAs v d).alm = d.alm := rfl
@[simp] theorem readAs_lch (v : Nat) : (readAs v d).lch = d.lch := rfl
@[simp] theorem readAs_cap (v : Nat) : (readAs v d).cap = d.cap := rfl
@[simp] theorem readAs_lmf (v : Nat) : (readAs v d).lmf = d.lmf := rfl
@[simp] theorem readAs_aux (v : Nat) : (readAs v d).aux = d.aux := rfl
@[simp] theorem readAs_mtr (v : Nat) : (readAs v d).mtr = d.mtr := rfl
@[simp] theorem readAs_key (v : Nat) : (readAs v d).key = d.key := rfl
@[simp] theorem readAs_tmp (v : Nat) : (readAs v d).tmp = d.tmp := rfl
@[simp] theorem readAs_cur (v : Nat) : (readAs v d).cur = d.cur := rfl
@[simp] theorem readAs_staged (v : Nat) : (readAs v d).staged = d.staged := rfl
@[simp] theorem readAs_old (v : Nat) : (readAs v d).old = d.old := rfl
@[simp] theorem readAs_cnt (v : Nat) : (readAs v d).cnt = d.cnt := rfl
@[simp] theorem readAs_snap (v : Nat) : (readAs v d).snap = d.snap := rfl
@[simp] theorem readAs_out (v : Nat) : (readAs v d).out = d.out := rfl
@[simp] theorem readAs_draws (v : Nat) : (readAs v d).draws = d.draws := rfl

/-! ### `bumpAt` writes `cnt` alone -/

@[simp] theorem bumpAt_log (b p i n : Nat) : (bumpAt d b p i n).log = d.log := rfl
@[simp] theorem bumpAt_cmd (b p i n : Nat) : (bumpAt d b p i n).cmd = d.cmd := rfl
@[simp] theorem bumpAt_clk (b p i n : Nat) : (bumpAt d b p i n).clk = d.clk := rfl
@[simp] theorem bumpAt_hrd (b p i n : Nat) : (bumpAt d b p i n).hrd = d.hrd := rfl
@[simp] theorem bumpAt_gbl (b p i n : Nat) : (bumpAt d b p i n).gbl = d.gbl := rfl
@[simp] theorem bumpAt_pwr (b p i n : Nat) : (bumpAt d b p i n).pwr = d.pwr := rfl
@[simp] theorem bumpAt_tod (b p i n : Nat) : (bumpAt d b p i n).tod = d.tod := rfl
@[simp] theorem bumpAt_ports (b p i n : Nat) : (bumpAt d b p i n).ports = d.ports := rfl
@[simp] theorem bumpAt_pub (b p i n : Nat) : (bumpAt d b p i n).pub = d.pub := rfl
@[simp] theorem bumpAt_ing (b p i n : Nat) : (bumpAt d b p i n).ing = d.ing := rfl
@[simp] theorem bumpAt_dir (b p i n : Nat) : (bumpAt d b p i n).dir = d.dir := rfl
@[simp] theorem bumpAt_aln (b p i n : Nat) : (bumpAt d b p i n).aln = d.aln := rfl
@[simp] theorem bumpAt_est (b p i n : Nat) : (bumpAt d b p i n).est = d.est := rfl
@[simp] theorem bumpAt_osc (b p i n : Nat) : (bumpAt d b p i n).osc = d.osc := rfl
@[simp] theorem bumpAt_isl (b p i n : Nat) : (bumpAt d b p i n).isl = d.isl := rfl
@[simp] theorem bumpAt_alm (b p i n : Nat) : (bumpAt d b p i n).alm = d.alm := rfl
@[simp] theorem bumpAt_lch (b p i n : Nat) : (bumpAt d b p i n).lch = d.lch := rfl
@[simp] theorem bumpAt_cap (b p i n : Nat) : (bumpAt d b p i n).cap = d.cap := rfl
@[simp] theorem bumpAt_lmf (b p i n : Nat) : (bumpAt d b p i n).lmf = d.lmf := rfl
@[simp] theorem bumpAt_aux (b p i n : Nat) : (bumpAt d b p i n).aux = d.aux := rfl
@[simp] theorem bumpAt_mtr (b p i n : Nat) : (bumpAt d b p i n).mtr = d.mtr := rfl
@[simp] theorem bumpAt_key (b p i n : Nat) : (bumpAt d b p i n).key = d.key := rfl
@[simp] theorem bumpAt_tmp (b p i n : Nat) : (bumpAt d b p i n).tmp = d.tmp := rfl
@[simp] theorem bumpAt_cur (b p i n : Nat) : (bumpAt d b p i n).cur = d.cur := rfl
@[simp] theorem bumpAt_staged (b p i n : Nat) : (bumpAt d b p i n).staged = d.staged := rfl
@[simp] theorem bumpAt_old (b p i n : Nat) : (bumpAt d b p i n).old = d.old := rfl
@[simp] theorem bumpAt_snap (b p i n : Nat) : (bumpAt d b p i n).snap = d.snap := rfl
@[simp] theorem bumpAt_out (b p i n : Nat) : (bumpAt d b p i n).out = d.out := rfl
@[simp] theorem bumpAt_draws (b p i n : Nat) : (bumpAt d b p i n).draws = d.draws := rfl

/-! ### `bump` writes `cnt` alone -/

@[simp] theorem bump_log (b i : Nat) : (bump d b i).log = d.log := rfl
@[simp] theorem bump_cmd (b i : Nat) : (bump d b i).cmd = d.cmd := rfl
@[simp] theorem bump_clk (b i : Nat) : (bump d b i).clk = d.clk := rfl
@[simp] theorem bump_hrd (b i : Nat) : (bump d b i).hrd = d.hrd := rfl
@[simp] theorem bump_gbl (b i : Nat) : (bump d b i).gbl = d.gbl := rfl
@[simp] theorem bump_pwr (b i : Nat) : (bump d b i).pwr = d.pwr := rfl
@[simp] theorem bump_tod (b i : Nat) : (bump d b i).tod = d.tod := rfl
@[simp] theorem bump_ports (b i : Nat) : (bump d b i).ports = d.ports := rfl
@[simp] theorem bump_pub (b i : Nat) : (bump d b i).pub = d.pub := rfl
@[simp] theorem bump_ing (b i : Nat) : (bump d b i).ing = d.ing := rfl
@[simp] theorem bump_dir (b i : Nat) : (bump d b i).dir = d.dir := rfl
@[simp] theorem bump_aln (b i : Nat) : (bump d b i).aln = d.aln := rfl
@[simp] theorem bump_est (b i : Nat) : (bump d b i).est = d.est := rfl
@[simp] theorem bump_osc (b i : Nat) : (bump d b i).osc = d.osc := rfl
@[simp] theorem bump_isl (b i : Nat) : (bump d b i).isl = d.isl := rfl
@[simp] theorem bump_alm (b i : Nat) : (bump d b i).alm = d.alm := rfl
@[simp] theorem bump_lch (b i : Nat) : (bump d b i).lch = d.lch := rfl
@[simp] theorem bump_cap (b i : Nat) : (bump d b i).cap = d.cap := rfl
@[simp] theorem bump_lmf (b i : Nat) : (bump d b i).lmf = d.lmf := rfl
@[simp] theorem bump_aux (b i : Nat) : (bump d b i).aux = d.aux := rfl
@[simp] theorem bump_mtr (b i : Nat) : (bump d b i).mtr = d.mtr := rfl
@[simp] theorem bump_key (b i : Nat) : (bump d b i).key = d.key := rfl
@[simp] theorem bump_tmp (b i : Nat) : (bump d b i).tmp = d.tmp := rfl
@[simp] theorem bump_cur (b i : Nat) : (bump d b i).cur = d.cur := rfl
@[simp] theorem bump_staged (b i : Nat) : (bump d b i).staged = d.staged := rfl
@[simp] theorem bump_old (b i : Nat) : (bump d b i).old = d.old := rfl
@[simp] theorem bump_snap (b i : Nat) : (bump d b i).snap = d.snap := rfl
@[simp] theorem bump_out (b i : Nat) : (bump d b i).out = d.out := rfl
@[simp] theorem bump_draws (b i : Nat) : (bump d b i).draws = d.draws := rfl

/-! ### `emit` writes `out` alone -/

@[simp] theorem emit_log (o : Output) : (emit o d).log = d.log := rfl
@[simp] theorem emit_cmd (o : Output) : (emit o d).cmd = d.cmd := rfl
@[simp] theorem emit_clk (o : Output) : (emit o d).clk = d.clk := rfl
@[simp] theorem emit_hrd (o : Output) : (emit o d).hrd = d.hrd := rfl
@[simp] theorem emit_gbl (o : Output) : (emit o d).gbl = d.gbl := rfl
@[simp] theorem emit_pwr (o : Output) : (emit o d).pwr = d.pwr := rfl
@[simp] theorem emit_tod (o : Output) : (emit o d).tod = d.tod := rfl
@[simp] theorem emit_ports (o : Output) : (emit o d).ports = d.ports := rfl
@[simp] theorem emit_pub (o : Output) : (emit o d).pub = d.pub := rfl
@[simp] theorem emit_ing (o : Output) : (emit o d).ing = d.ing := rfl
@[simp] theorem emit_dir (o : Output) : (emit o d).dir = d.dir := rfl
@[simp] theorem emit_aln (o : Output) : (emit o d).aln = d.aln := rfl
@[simp] theorem emit_est (o : Output) : (emit o d).est = d.est := rfl
@[simp] theorem emit_osc (o : Output) : (emit o d).osc = d.osc := rfl
@[simp] theorem emit_isl (o : Output) : (emit o d).isl = d.isl := rfl
@[simp] theorem emit_alm (o : Output) : (emit o d).alm = d.alm := rfl
@[simp] theorem emit_lch (o : Output) : (emit o d).lch = d.lch := rfl
@[simp] theorem emit_cap (o : Output) : (emit o d).cap = d.cap := rfl
@[simp] theorem emit_lmf (o : Output) : (emit o d).lmf = d.lmf := rfl
@[simp] theorem emit_aux (o : Output) : (emit o d).aux = d.aux := rfl
@[simp] theorem emit_mtr (o : Output) : (emit o d).mtr = d.mtr := rfl
@[simp] theorem emit_key (o : Output) : (emit o d).key = d.key := rfl
@[simp] theorem emit_tmp (o : Output) : (emit o d).tmp = d.tmp := rfl
@[simp] theorem emit_cur (o : Output) : (emit o d).cur = d.cur := rfl
@[simp] theorem emit_staged (o : Output) : (emit o d).staged = d.staged := rfl
@[simp] theorem emit_old (o : Output) : (emit o d).old = d.old := rfl
@[simp] theorem emit_cnt (o : Output) : (emit o d).cnt = d.cnt := rfl
@[simp] theorem emit_snap (o : Output) : (emit o d).snap = d.snap := rfl
@[simp] theorem emit_draws (o : Output) : (emit o d).draws = d.draws := rfl

/-! ### Reads of the updated place -/

@[simp] theorem portOf_setPort (n : Nat) (x : Port) : portOf (setPort d n x) n = x := mget_mput_same _ _ _ _
theorem portOf_setPort_other {n j : Nat} (x : Port) (h : j ≠ n) : portOf (setPort d n x) j = portOf d j := mget_mput_other _ _ _ h

@[simp] theorem pairOf_setPair (n : Nat) (x : QPair) : pairOf (setPair d n x) n = x := mget_mput_same _ _ _ _
theorem pairOf_setPair_other {n j : Nat} (x : QPair) (h : j ≠ n) : pairOf (setPair d n x) j = pairOf d j := mget_mput_other _ _ _ h

@[simp] theorem mboxOf_setMbox (n : Nat) (x : Mailbox) : mboxOf (setMbox d n x) n = x := mget_mput_same _ _ _ _
theorem mboxOf_setMbox_other {n j : Nat} (x : Mailbox) (h : j ≠ n) : mboxOf (setMbox d n x) j = mboxOf d j := mget_mput_other _ _ _ h

@[simp] theorem ringOf_setRing (n : Nat) (x : Ring) : ringOf (setRing d n x) n = x := mget_mput_same _ _ _ _
theorem ringOf_setRing_other {n j : Nat} (x : Ring) (h : j ≠ n) : ringOf (setRing d n x) j = ringOf d j := mget_mput_other _ _ _ h

@[simp] theorem streamOf_setStream (n : Nat) (x : StreamRun) : streamOf (setStream n x d) n = x := mget_mput_same _ _ _ _
theorem streamOf_setStream_other {n j : Nat} (x : StreamRun) (h : j ≠ n) : streamOf (setStream n x d) j = streamOf d j := mget_mput_other _ _ _ h

@[simp] theorem osRun_setOs (n : Nat) (x : OsRun) : osRun (setOs n x d) n = x := mget_mput_same _ _ _ _
theorem osRun_setOs_other {n j : Nat} (x : OsRun) (h : j ≠ n) : osRun (setOs n x d) j = osRun d j := mget_mput_other _ _ _ h

@[simp] theorem membRun_setMembRun (n : Nat) (x : MembRun) : membRun (setMembRun n x d) n = x := mget_mput_same _ _ _ _
theorem membRun_setMembRun_other {n j : Nat} (x : MembRun) (h : j ≠ n) : membRun (setMembRun n x d) j = membRun d j := mget_mput_other _ _ _ h

@[simp] theorem streamAln_setStreamAln (n : Nat) (x : StreamAln) : streamAln (setStreamAln n x d) n = x := mget_mput_same _ _ _ _
theorem streamAln_setStreamAln_other {n j : Nat} (x : StreamAln) (h : j ≠ n) : streamAln (setStreamAln n x d) j = streamAln d j := mget_mput_other _ _ _ h

@[simp] theorem sourceOf_setSource (n : Nat) (x : SrcState) : sourceOf (setSource n x d) n = x := mget_mput_same _ _ _ _
theorem sourceOf_setSource_other {n j : Nat} (x : SrcState) (h : j ≠ n) : sourceOf (setSource n x d) j = sourceOf d j := mget_mput_other _ _ _ h

@[simp] theorem pinOf_setPin (n : Nat) (x : AlmPin) : pinOf (setPin n x d) n = x := mget_mput_same _ _ _ _
theorem pinOf_setPin_other {n j : Nat} (x : AlmPin) (h : j ≠ n) : pinOf (setPin n x d) j = pinOf d j := mget_mput_other _ _ _ h

@[simp] theorem eventPin_setEvent (n : Nat) (x : EventPin) : eventPin (setEvent n x d) n = x := mget_mput_same _ _ _ _
theorem eventPin_setEvent_other {n j : Nat} (x : EventPin) (h : j ≠ n) : eventPin (setEvent n x d) j = eventPin d j := mget_mput_other _ _ _ h

@[simp] theorem sessOf_setSess (n : Nat) (x : CapSession) : sessOf (setSess n x d) n = x := mget_mput_same _ _ _ _
theorem sessOf_setSess_other {n j : Nat} (x : CapSession) (h : j ≠ n) : sessOf (setSess n x d) j = sessOf d j := mget_mput_other _ _ _ h

@[simp] theorem chanOf_setChan (n : Nat) (x : LmfChan) : chanOf (setChan n x d) n = x := mget_mput_same _ _ _ _
theorem chanOf_setChan_other {n j : Nat} (x : LmfChan) (h : j ≠ n) : chanOf (setChan n x d) j = chanOf d j := mget_mput_other _ _ _ h

@[simp] theorem auxLaneOf_auxSetLane (n : Nat) (x : AuxLane) : auxLaneOf (auxSetLane n x d) n = x := mget_mput_same _ _ _ _
theorem auxLaneOf_auxSetLane_other {n j : Nat} (x : AuxLane) (h : j ≠ n) : auxLaneOf (auxSetLane n x d) j = auxLaneOf d j := mget_mput_other _ _ _ h

@[simp] theorem circOf_setCirc (n : Nat) (x : MtrCircuit) : circOf (setCirc n x d) n = x := mget_mput_same _ _ _ _
theorem circOf_setCirc_other {n j : Nat} (x : MtrCircuit) (h : j ≠ n) : circOf (setCirc n x d) j = circOf d j := mget_mput_other _ _ _ h

@[simp] theorem pulseOf_setPulse (n : Nat) (x : MtrPulse) : pulseOf (setPulse n x d) n = x := mget_mput_same _ _ _ _
theorem pulseOf_setPulse_other {n j : Nat} (x : MtrPulse) (h : j ≠ n) : pulseOf (setPulse n x d) j = pulseOf d j := mget_mput_other _ _ _ h

@[simp] theorem hostRing_setHostRing (n : Nat) (x : HostRing) : hostRing (setHostRing n x d) n = x := mget_mput_same _ _ _ _
theorem hostRing_setHostRing_other {n j : Nat} (x : HostRing) (h : j ≠ n) : hostRing (setHostRing n x d) j = hostRing d j := mget_mput_other _ _ _ h

end Sys2Proof.Laws
end

