-- ==== Sys2Proof/Laws/Time.lean ====
section
/-!
SUPPORT. Laws of time running on: `bringTo` and `waitUntil` move the counter, the operating time and the tamper unit's clock, and leave
every other block as it was.
-/
namespace Sys2Proof.Laws

open Sys2Proof.Machine

/-- What time running on to an instant does, said once: either nothing, or new time of day, operating time and always-on time. -/
theorem bringTo_cases (d : Dev) (ns : Nat) :
    bringTo d ns = d ∨ ∃ log tmp tod, bringTo d ns = { d with log := log, tmp := tmp, tod := tod } := by
  unfold bringTo
  split
  · exact .inr ⟨_, _, _, rfl⟩
  · exact .inl rfl

@[simp] theorem bringTo_cmd (d : Dev) (ns : Nat) : (bringTo d ns).cmd = d.cmd := by
  rcases bringTo_cases d ns with h | ⟨_, _, _, h⟩ <;> rw [h]
@[simp] theorem bringTo_clk (d : Dev) (ns : Nat) : (bringTo d ns).clk = d.clk := by
  rcases bringTo_cases d ns with h | ⟨_, _, _, h⟩ <;> rw [h]
@[simp] theorem bringTo_hrd (d : Dev) (ns : Nat) : (bringTo d ns).hrd = d.hrd := by
  rcases bringTo_cases d ns with h | ⟨_, _, _, h⟩ <;> rw [h]
@[simp] theorem bringTo_gbl (d : Dev) (ns : Nat) : (bringTo d ns).gbl = d.gbl := by
  rcases bringTo_cases d ns with h | ⟨_, _, _, h⟩ <;> rw [h]
@[simp] theorem bringTo_pwr (d : Dev) (ns : Nat) : (bringTo d ns).pwr = d.pwr := by
  rcases bringTo_cases d ns with h | ⟨_, _, _, h⟩ <;> rw [h]
@[simp] theorem bringTo_ports (d : Dev) (ns : Nat) : (bringTo d ns).ports = d.ports := by
  rcases bringTo_cases d ns with h | ⟨_, _, _, h⟩ <;> rw [h]
@[simp] theorem bringTo_pub (d : Dev) (ns : Nat) : (bringTo d ns).pub = d.pub := by
  rcases bringTo_cases d ns with h | ⟨_, _, _, h⟩ <;> rw [h]
@[simp] theorem bringTo_ing (d : Dev) (ns : Nat) : (bringTo d ns).ing = d.ing := by
  rcases bringTo_cases d ns with h | ⟨_, _, _, h⟩ <;> rw [h]
@[simp] theorem bringTo_dir (d : Dev) (ns : Nat) : (bringTo d ns).dir = d.dir := by
  rcases bringTo_cases d ns with h | ⟨_, _, _, h⟩ <;> rw [h]
@[simp] theorem bringTo_aln (d : Dev) (ns : Nat) : (bringTo d ns).aln = d.aln := by
  rcases bringTo_cases d ns with h | ⟨_, _, _, h⟩ <;> rw [h]
@[simp] theorem bringTo_est (d : Dev) (ns : Nat) : (bringTo d ns).est = d.est := by
  rcases bringTo_cases d ns with h | ⟨_, _, _, h⟩ <;> rw [h]
@[simp] theorem bringTo_osc (d : Dev) (ns : Nat) : (bringTo d ns).osc = d.osc := by
  rcases bringTo_cases d ns with h | ⟨_, _, _, h⟩ <;> rw [h]
@[simp] theorem bringTo_isl (d : Dev) (ns : Nat) : (bringTo d ns).isl = d.isl := by
  rcases bringTo_cases d ns with h | ⟨_, _, _, h⟩ <;> rw [h]
@[simp] theorem bringTo_alm (d : Dev) (ns : Nat) : (bringTo d ns).alm = d.alm := by
  rcases bringTo_cases d ns with h | ⟨_, _, _, h⟩ <;> rw [h]
@[simp] theorem bringTo_lch (d : Dev) (ns : Nat) : (bringTo d ns).lch = d.lch := by
  rcases bringTo_cases d ns with h | ⟨_, _, _, h⟩ <;> rw [h]
@[simp] theorem bringTo_cap (d : Dev) (ns : Nat) : (bringTo d ns).cap = d.cap := by
  rcases bringTo_cases d ns with h | ⟨_, _, _, h⟩ <;> rw [h]
@[simp] theorem bringTo_lmf (d : Dev) (ns : Nat) : (bringTo d ns).lmf = d.lmf := by
  rcases bringTo_cases d ns with h | ⟨_, _, _, h⟩ <;> rw [h]
@[simp] theorem bringTo_aux (d : Dev) (ns : Nat) : (bringTo d ns).aux = d.aux := by
  rcases bringTo_cases d ns with h | ⟨_, _, _, h⟩ <;> rw [h]
@[simp] theorem bringTo_mtr (d : Dev) (ns : Nat) : (bringTo d ns).mtr = d.mtr := by
  rcases bringTo_cases d ns with h | ⟨_, _, _, h⟩ <;> rw [h]
@[simp] theorem bringTo_key (d : Dev) (ns : Nat) : (bringTo d ns).key = d.key := by
  rcases bringTo_cases d ns with h | ⟨_, _, _, h⟩ <;> rw [h]
@[simp] theorem bringTo_cur (d : Dev) (ns : Nat) : (bringTo d ns).cur = d.cur := by
  rcases bringTo_cases d ns with h | ⟨_, _, _, h⟩ <;> rw [h]
@[simp] theorem bringTo_staged (d : Dev) (ns : Nat) : (bringTo d ns).staged = d.staged := by
  rcases bringTo_cases d ns with h | ⟨_, _, _, h⟩ <;> rw [h]
@[simp] theorem bringTo_old (d : Dev) (ns : Nat) : (bringTo d ns).old = d.old := by
  rcases bringTo_cases d ns with h | ⟨_, _, _, h⟩ <;> rw [h]
@[simp] theorem bringTo_cnt (d : Dev) (ns : Nat) : (bringTo d ns).cnt = d.cnt := by
  rcases bringTo_cases d ns with h | ⟨_, _, _, h⟩ <;> rw [h]
@[simp] theorem bringTo_snap (d : Dev) (ns : Nat) : (bringTo d ns).snap = d.snap := by
  rcases bringTo_cases d ns with h | ⟨_, _, _, h⟩ <;> rw [h]
@[simp] theorem bringTo_out (d : Dev) (ns : Nat) : (bringTo d ns).out = d.out := by
  rcases bringTo_cases d ns with h | ⟨_, _, _, h⟩ <;> rw [h]
@[simp] theorem bringTo_draws (d : Dev) (ns : Nat) : (bringTo d ns).draws = d.draws := by
  rcases bringTo_cases d ns with h | ⟨_, _, _, h⟩ <;> rw [h]

@[simp] theorem waitUntil_cmd (d : Dev) (op : Nat) : (waitUntil d op).cmd = d.cmd := bringTo_cmd d _
@[simp] theorem waitUntil_clk (d : Dev) (op : Nat) : (waitUntil d op).clk = d.clk := bringTo_clk d _
@[simp] theorem waitUntil_hrd (d : Dev) (op : Nat) : (waitUntil d op).hrd = d.hrd := bringTo_hrd d _
@[simp] theorem waitUntil_gbl (d : Dev) (op : Nat) : (waitUntil d op).gbl = d.gbl := bringTo_gbl d _
@[simp] theorem waitUntil_pwr (d : Dev) (op : Nat) : (waitUntil d op).pwr = d.pwr := bringTo_pwr d _
@[simp] theorem waitUntil_ports (d : Dev) (op : Nat) : (waitUntil d op).ports = d.ports := bringTo_ports d _
@[simp] theorem waitUntil_pub (d : Dev) (op : Nat) : (waitUntil d op).pub = d.pub := bringTo_pub d _
@[simp] theorem waitUntil_ing (d : Dev) (op : Nat) : (waitUntil d op).ing = d.ing := bringTo_ing d _
@[simp] theorem waitUntil_dir (d : Dev) (op : Nat) : (waitUntil d op).dir = d.dir := bringTo_dir d _
@[simp] theorem waitUntil_aln (d : Dev) (op : Nat) : (waitUntil d op).aln = d.aln := bringTo_aln d _
@[simp] theorem waitUntil_est (d : Dev) (op : Nat) : (waitUntil d op).est = d.est := bringTo_est d _
@[simp] theorem waitUntil_osc (d : Dev) (op : Nat) : (waitUntil d op).osc = d.osc := bringTo_osc d _
@[simp] theorem waitUntil_isl (d : Dev) (op : Nat) : (waitUntil d op).isl = d.isl := bringTo_isl d _
@[simp] theorem waitUntil_alm (d : Dev) (op : Nat) : (waitUntil d op).alm = d.alm := bringTo_alm d _
@[simp] theorem waitUntil_lch (d : Dev) (op : Nat) : (waitUntil d op).lch = d.lch := bringTo_lch d _
@[simp] theorem waitUntil_cap (d : Dev) (op : Nat) : (waitUntil d op).cap = d.cap := bringTo_cap d _
@[simp] theorem waitUntil_lmf (d : Dev) (op : Nat) : (waitUntil d op).lmf = d.lmf := bringTo_lmf d _
@[simp] theorem waitUntil_aux (d : Dev) (op : Nat) : (waitUntil d op).aux = d.aux := bringTo_aux d _
@[simp] theorem waitUntil_mtr (d : Dev) (op : Nat) : (waitUntil d op).mtr = d.mtr := bringTo_mtr d _
@[simp] theorem waitUntil_key (d : Dev) (op : Nat) : (waitUntil d op).key = d.key := bringTo_key d _
@[simp] theorem waitUntil_cur (d : Dev) (op : Nat) : (waitUntil d op).cur = d.cur := bringTo_cur d _
@[simp] theorem waitUntil_staged (d : Dev) (op : Nat) : (waitUntil d op).staged = d.staged := bringTo_staged d _
@[simp] theorem waitUntil_old (d : Dev) (op : Nat) : (waitUntil d op).old = d.old := bringTo_old d _
@[simp] theorem waitUntil_cnt (d : Dev) (op : Nat) : (waitUntil d op).cnt = d.cnt := bringTo_cnt d _
@[simp] theorem waitUntil_snap (d : Dev) (op : Nat) : (waitUntil d op).snap = d.snap := bringTo_snap d _
@[simp] theorem waitUntil_out (d : Dev) (op : Nat) : (waitUntil d op).out = d.out := bringTo_out d _
@[simp] theorem waitUntil_draws (d : Dev) (op : Nat) : (waitUntil d op).draws = d.draws := bringTo_draws d _

end Sys2Proof.Laws
end

