-- ==== Sys2Proof/WellFormed.lean ====
section
/-!
DEFINITION. Which commands are well formed: what a channel, a path and a list operand can be, whatever state the device is in.
-/
namespace Sys2Proof

/-- The path that posts on a channel (R437, R447): queues 0 to 7 belong to PF0, 8 to 15 to PF1; the non-secure mailboxes are
reached from PF0 and the local bus, the secure ones from PF1 and the secure window. -/
def Hdr.wf (h : Hdr) : Bool :=
  h.chan ≤ 28 &&
  (if h.chan < 8 then decide (h.path = .pf0)
   else if h.chan < 16 then decide (h.path = .pf1)
   else if h.chan < 20 then decide (h.path = .pf0) || decide (h.path = .lb)
   else if h.chan < 24 then decide (h.path = .pf1) || decide (h.path = .lbs)
   else true)

/-- A date and time a sentence can name. -/
def NmeaIn.wf (m : NmeaIn) : Bool :=
  1 ≤ m.month && m.month ≤ 12 && 1 ≤ m.day && m.day ≤ 31 && m.hour ≤ 23 && m.minute ≤ 59 && m.second ≤ 60 && m.year ≤ 9999

/-- The header of a command packet, none for every other command. -/
def Instr.hdr? : Instr → Option Hdr
  | .tickStart => none
  | .slotDeadline _ _ _ => none
  | .orderWaitCommit _ _ _ => none
  | .gazelleLaneStart => none
  | .assemblyStart => none
  | .perSecondSummary => none
  | .genSwitch h _ _ _ => some h
  | .genCancel h => some h
  | .genDiscardStaged h => some h
  | .genStatus h => some h
  | .counterSnapshot h _ => some h
  | .pllUnlock _ => none
  | .pllRelock _ => none
  | .pllRelockTimeout _ => none
  | .secondStart => none
  | .todSerOutSentence => none
  | .todIncWrite _ => none
  | .phaseAdjDone => none
  | .ppsEdge _ _ => none
  | .todSerInSentence _ => none
  | .ptpRx _ _ _ => none
  | .ptpTxInterval _ => none
  | .timeRefLost _ => none
  | .referenceUpgrade => none
  | .ref10Changeover _ => none
  | .todNow0Read _ => none
  | .timeStatus h => some h
  | .timeSet h _ _ _ _ => some h
  | .timePhaseAdjust h _ _ => some h
  | .timePhaseAbort h => some h
  | .timeRefSelect h _ _ _ => some h
  | .timeQualParams h _ _ _ _ _ _ _ => some h
  | .timeLeapSet h _ => some h
  | .timePtpPort h _ => some h
  | .timeOutputs h _ => some h
  | .frameReceive _ _ => none
  | .pauseDelivered _ => none
  | .pauseTimerExpiry _ => none
  | .frameTransmit _ => none
  | .portLinkUp _ _ _ _ => none
  | .portLinkDown _ _ _ => none
  | .portHighBer _ _ => none
  | .fwControlQueue _ => none
  | .portConfig h _ _ => some h
  | .portAddr h _ _ _ _ => some h
  | .portMcastList h _ _ _ => some h
  | .portVlanFilter h _ => some h
  | .portTsAdj h _ _ _ => some h
  | .portStatus h _ => some h
  | .portMacsecConfig h _ => some h
  | .portMacsecSa h _ => some h
  | .portMacsecTxAn h _ _ => some h
  | .frameClassify _ => none
  | .frameDispatch => none
  | .internalFrameIn _ => none
  | .fwFrameQueue _ => none
  | .rngHiTailWrite _ _ => none
  | .hostDescFetch _ _ _ _ => none
  | .ingStreamKey h _ => some h
  | .ingStreamDef h _ => some h
  | .ingStreamRemove h _ => some h
  | .ingStreamStatus h _ => some h
  | .ingStreamRelease h _ => some h
  | .ingIpAddr h _ => some h
  | .ingHostRing h _ => some h
  | .ingStreamGate h _ _ _ _ => some h
  | .ingStreamSigkey h _ _ _ _ _ => some h
  | .dirWrite h _ _ => some h
  | .dirLoad h _ => some h
  | .dirLoadDone _ _ => none
  | .dirClear h _ _ => some h
  | .dirRead h _ _ => some h
  | .dirScaleWrite h _ _ => some h
  | .dirValidate h _ _ => some h
  | .dirStatus h => some h
  | .dirWinIdxWrite _ _ => none
  | .dirWinFetchDone _ => none
  | .reportCheck => none
  | .latencySweep _ => none
  | .alnOsSelWrite _ => none
  | .alnOstreamDef h _ => some h
  | .alnOstreamRemove h _ => some h
  | .alnMemberSet h _ => some h
  | .alnMemberClear h _ _ => some h
  | .alnParams h _ => some h
  | .alnOstreamStatus h _ => some h
  | .alnMemberStatus h _ _ => some h
  | .alnLandPlan h => some h
  | .ringRecordWrite _ => none
  | .rngDlHeadWrite _ _ => none
  | .queueStale _ => none
  | .pubOstreamFmt h _ _ => some h
  | .pubTemplate h _ _ => some h
  | .pubTemplateRemove h _ => some h
  | .pubCfgImage h _ _ _ _ _ _ _ => some h
  | .pubRing h _ => some h
  | .pubRoute h _ _ => some h
  | .pubQueueParams h _ _ _ _ => some h
  | .pubHistPlan h _ => some h
  | .pubHistRead h _ _ _ _ _ => some h
  | .pubTemplateStatus h _ => some h
  | .pubTemplateSigkey h _ => some h
  | .estSlotStart => none
  | .estSlotDelivered => none
  | .estRefactorDone => none
  | .estPreparationDone => none
  | .estConfig h _ => some h
  | .estLoad h _ => some h
  | .estClear h _ _ _ => some h
  | .estStatus h => some h
  | .estRefactor h => some h
  | .estRowRelease h _ => some h
  | .estRowStatus h _ => some h
  | .oscSlotStart => none
  | .oscModeUpdateDelivered => none
  | .oscFoEvaluation => none
  | .oscConfig h _ _ => some h
  | .oscLoad h _ => some h
  | .oscClear h _ _ _ => some h
  | .oscStatus h => some h
  | .oscRestart h => some h
  | .oscModeStatus h _ => some h
  | .oscFoStatus h _ => some h
  | .islSlotStart => none
  | .islTopoDelivered => none
  | .islCohDelivered => none
  | .gooseRepeat _ => none
  | .alarmPinMinWidth _ => none
  | .almForceWrite _ => none
  | .islConfig h _ _ => some h
  | .islLoad h _ => some h
  | .islClear h _ _ _ => some h
  | .islStatus h => some h
  | .islRestart h => some h
  | .islIslandStatus h _ => some h
  | .almLimitWrite h _ _ => some h
  | .almMap h _ _ _ _ => some h
  | .almPinConfig h _ => some h
  | .almAck h _ _ => some h
  | .almGoose h _ _ _ _ => some h
  | .almGooseSigkey h _ => some h
  | .almStatus h _ _ => some h
  | .launchExecute _ => none
  | .launchFrameDelayed _ => none
  | .eventPulseEnd _ => none
  | .eventInputEdge _ _ => none
  | .lchDone0Read _ => none
  | .lchEvLoRead _ _ => none
  | .lchWrite h _ _ => some h
  | .lchCancel h _ => some h
  | .lchStatus h _ => some h
  | .lchFrameLoad h _ _ _ _ _ => some h
  | .lchEventConfig h _ => some h
  | .captureTrigger => none
  | .captureEnd _ => none
  | .capSelWrite _ => none
  | .capSession h _ _ _ _ _ _ => some h
  | .capMask h _ _ _ _ _ => some h
  | .capSkew h _ _ => some h
  | .capArm h _ => some h
  | .capStop h _ => some h
  | .capTrigger h _ _ _ _ => some h
  | .capRead h _ _ _ _ _ => some h
  | .capRelease h _ => some h
  | .capStatus h _ => some h
  | .localSample _ => none
  | .modFault _ _ => none
  | .modFaultClear _ => none
  | .channelSettled _ => none
  | .localPmuReport _ => none
  | .auxConversionDone _ _ => none
  | .auxInjWrite _ => none
  | .auxCalDone _ _ => none
  | .auxSpareTakeover => none
  | .auxSpareCalibrated _ _ => none
  | .auxBufRdWrite _ _ => none
  | .lmfClock h _ => some h
  | .lmfChan h _ => some h
  | .lmfPmu h _ => some h
  | .lmfStatus h _ => some h
  | .auxLane h _ _ _ => some h
  | .auxSeq h _ _ => some h
  | .auxInjected h _ _ _ => some h
  | .auxBuffer h _ _ _ _ => some h
  | .auxCal h _ _ => some h
  | .auxStatus h _ => some h
  | .demandBoundary _ => none
  | .intervalRecord _ => none
  | .pulseStart _ => none
  | .pulseEnd _ => none
  | .meterSavePeriodic => none
  | .meterSaveDone => none
  | .meterStartupTestDone => none
  | .mtrConfig h _ => some h
  | .mtrDemand h _ _ _ _ => some h
  | .mtrPulse h _ => some h
  | .mtrSaveParams h _ => some h
  | .mtrSaveNow h => some h
  | .mtrStatus h _ => some h
  | .mtrStartupTest h _ => some h
  | .mtrClear h _ => some h
  | .keyUpdateCommit => none
  | .keySlotScrub _ => none
  | .shareRemask => none
  | .keyDrbgFault _ => none
  | .tamperDetected _ => none
  | .presenceRecognised => none
  | .keyStatus h => some h
  | .keyUpdate h _ _ _ _ => some h
  | .keySlotStatus h _ => some h
  | .keyAttest h _ _ _ => some h
  | .keyIdentity h _ _ => some h
  | .keyRandom h _ => some h
  | .tmpConfig h _ _ => some h
  | .tmpClear h => some h
  | .tmpStatus h => some h
  | .cmdSqTailWrite _ _ => none
  | .cmdFetch _ _ => none
  | .cmdCqHeadWrite _ _ => none
  | .cmdQueueEnable _ _ => none
  | .cmdQueueDisable _ _ => none
  | .mbxDataWrite _ _ _ _ => none
  | .mbxPost _ _ => none
  | .mbxTake _ _ => none
  | .mailboxTaken _ => none
  | .mailboxReplyPost _ => none
  | .mailboxStall _ => none
  | .fwWatchdog => none
  | .fwRestartDone => none
  | .cfgReplayBatch => none
  | .forwardedCommandRx _ _ => none
  | .forwardTimeout _ => none
  | .sysIdentify h => some h
  | .cmdAbort h _ _ => some h
  | .sysNop h _ => some h
  | .sysReset h _ => some h
  | .cfgStoreWrite h _ _ _ _ _ => some h
  | .cfgStoreClear h => some h
  | .cfgStoreStatus h => some h
  | .sysFwRestart h => some h
  | .fwBegin h _ _ _ _ => some h
  | .fwWrite h _ _ _ _ _ _ => some h
  | .fwFinish h => some h
  | .fwStatus h => some h
  | .logFlushRun => none
  | .logConfig h _ _ => some h
  | .logRead h _ _ _ _ _ _ => some h
  | .logStatus h => some h
  | .logClear h _ => some h
  | .logWrite h _ _ _ _ _ => some h
  | .logFlush h => some h
  | .heartbeatRx _ => none
  | .hbLost => none
  | .witnessDecision _ => none
  | .goingDownRx _ => none
  | .pairingDecision => none
  | .pairWaitExpiry => none
  | .switchoverFreeze => none
  | .switchoverHandover => none
  | .xchkCellRx _ => none
  | .hrdConfig h _ => some h
  | .hrdStatus h => some h
  | .hrdSwitchover h _ _ => some h
  | .hrdCancel h => some h
  | .hrdUnfence h _ => some h
  | .hrdUnpair h => some h
  | .hrdDigestReset h => some h
  | .registerWrite _ _ _ _ => none
  | .rcRegisterRead _ _ => none
  | .multiwordLowRead _ _ => none
  | .lbHalfWrite _ _ _ _ => none
  | .gblIntEoiWrite _ _ => none
  | .pcieTlpError _ _ => none
  | .pcieFlr _ => none
  | .pcieD3hotEntry _ => none
  | .pcieLinkDown => none
  | .pciePerst => none
  | .lbRst => none
  | .lbTimeout => none
  | .powerOn => none
  | .porstN => none
  | .brownOut => none
  | .resetRelease _ => none
  | .alignmentReady => none
  | .pfwAssert => none
  | .pfwRelease => none
  | .dormantEntry => none
  | .dormantExit => none
  | .pwrDormant h => some h
  | .pwrWake h => some h
  | .pwrStatus h => some h
  | .estLoadDone _ _ => none
  | .oscLoadDone _ _ => none
  | .islLoadDone _ _ => none
  | .oscFoUpdateDelivered => none
  | .cfgStoreCommit => none
  | .lcChangeComplete => none
  | .sysResetDelayExpiry => none
  | .ppsOutPulseEnd _ => none
  | .presenceReleased => none
  | .clockLockRestored _ => none
  | .aonPowerLost => none
  | .aonSourceChangeover _ => none
  | .herdLaneUp => none
  | .herdLaneDown => none
  | .herdStateCellRx _ => none
  | .forwardedCommandReply _ _ _ _ => none
  | .memoryTestError => none
  | .pcieLinkUp _ _ _ => none
  | .msixVectorUnmask _ _ => none

/-- What a command's list operands must hold. -/
def Instr.shape : Instr → Bool
  | .tickStart => true
  | .slotDeadline _ _ _ => true
  | .orderWaitCommit _ _ _ => true
  | .gazelleLaneStart => true
  | .assemblyStart => true
  | .perSecondSummary => true
  | .genSwitch _ _ _ _ => true
  | .genCancel _ => true
  | .genDiscardStaged _ => true
  | .genStatus _ => true
  | .counterSnapshot _ _ => true
  | .pllUnlock _ => true
  | .pllRelock _ => true
  | .pllRelockTimeout _ => true
  | .secondStart => true
  | .todSerOutSentence => true
  | .todIncWrite _ => true
  | .phaseAdjDone => true
  | .ppsEdge _ _ => true
  | .todSerInSentence m => m.wf
  | .ptpRx _ _ _ => true
  | .ptpTxInterval _ => true
  | .timeRefLost _ => true
  | .referenceUpgrade => true
  | .ref10Changeover _ => true
  | .todNow0Read _ => true
  | .timeStatus _ => true
  | .timeSet _ _ _ _ _ => true
  | .timePhaseAdjust _ _ _ => true
  | .timePhaseAbort _ => true
  | .timeRefSelect _ _ _ _ => true
  | .timeQualParams _ _ _ _ _ _ _ _ => true
  | .timeLeapSet _ entries => entries.length ≤ 255
  | .timePtpPort _ _ => true
  | .timeOutputs _ _ => true
  | .frameReceive _ _ => true
  | .pauseDelivered _ => true
  | .pauseTimerExpiry _ => true
  | .frameTransmit _ => true
  | .portLinkUp _ _ _ _ => true
  | .portLinkDown _ _ _ => true
  | .portHighBer _ _ => true
  | .fwControlQueue _ => true
  | .portConfig _ _ _ => true
  | .portAddr _ _ _ _ _ => true
  | .portMcastList _ _ _ addrs => addrs.length ≤ 255
  | .portVlanFilter _ _ => true
  | .portTsAdj _ _ _ _ => true
  | .portStatus _ _ => true
  | .portMacsecConfig _ _ => true
  | .portMacsecSa _ _ => true
  | .portMacsecTxAn _ _ _ => true
  | .frameClassify _ => true
  | .frameDispatch => true
  | .internalFrameIn _ => true
  | .fwFrameQueue _ => true
  | .rngHiTailWrite _ _ => true
  | .hostDescFetch _ _ _ _ => true
  | .ingStreamKey _ _ => true
  | .ingStreamDef _ _ => true
  | .ingStreamRemove _ _ => true
  | .ingStreamStatus _ _ => true
  | .ingStreamRelease _ _ => true
  | .ingIpAddr _ _ => true
  | .ingHostRing _ _ => true
  | .ingStreamGate _ _ _ _ _ => true
  | .ingStreamSigkey _ _ _ _ _ _ => true
  | .dirWrite _ _ _ => true
  | .dirLoad _ _ => true
  | .dirLoadDone _ _ => true
  | .dirClear _ _ _ => true
  | .dirRead _ _ _ => true
  | .dirScaleWrite _ _ _ => true
  | .dirValidate _ _ _ => true
  | .dirStatus _ => true
  | .dirWinIdxWrite _ _ => true
  | .dirWinFetchDone _ => true
  | .reportCheck => true
  | .latencySweep _ => true
  | .alnOsSelWrite _ => true
  | .alnOstreamDef _ _ => true
  | .alnOstreamRemove _ _ => true
  | .alnMemberSet _ _ => true
  | .alnMemberClear _ _ _ => true
  | .alnParams _ _ => true
  | .alnOstreamStatus _ _ => true
  | .alnMemberStatus _ _ _ => true
  | .alnLandPlan _ => true
  | .ringRecordWrite _ => true
  | .rngDlHeadWrite _ _ => true
  | .queueStale _ => true
  | .pubOstreamFmt _ _ _ => true
  | .pubTemplate _ _ _ => true
  | .pubTemplateRemove _ _ => true
  | .pubCfgImage _ _ _ _ _ _ _ _ => true
  | .pubRing _ _ => true
  | .pubRoute _ _ _ => true
  | .pubQueueParams _ _ _ _ _ => true
  | .pubHistPlan _ _ => true
  | .pubHistRead _ _ _ _ _ _ => true
  | .pubTemplateStatus _ _ => true
  | .pubTemplateSigkey _ _ => true
  | .estSlotStart => true
  | .estSlotDelivered => true
  | .estRefactorDone => true
  | .estPreparationDone => true
  | .estConfig _ _ => true
  | .estLoad _ _ => true
  | .estClear _ _ _ _ => true
  | .estStatus _ => true
  | .estRefactor _ => true
  | .estRowRelease _ _ => true
  | .estRowStatus _ _ => true
  | .oscSlotStart => true
  | .oscModeUpdateDelivered => true
  | .oscFoEvaluation => true
  | .oscConfig _ _ _ => true
  | .oscLoad _ _ => true
  | .oscClear _ _ _ _ => true
  | .oscStatus _ => true
  | .oscRestart _ => true
  | .oscModeStatus _ _ => true
  | .oscFoStatus _ _ => true
  | .islSlotStart => true
  | .islTopoDelivered => true
  | .islCohDelivered => true
  | .gooseRepeat _ => true
  | .alarmPinMinWidth _ => true
  | .almForceWrite _ => true
  | .islConfig _ _ _ => true
  | .islLoad _ _ => true
  | .islClear _ _ _ _ => true
  | .islStatus _ => true
  | .islRestart _ => true
  | .islIslandStatus _ _ => true
  | .almLimitWrite _ _ entry => entry.length == 32
  | .almMap _ _ _ _ _ => true
  | .almPinConfig _ _ => true
  | .almAck _ _ _ => true
  | .almGoose _ _ _ _ _ => true
  | .almGooseSigkey _ _ => true
  | .almStatus _ _ _ => true
  | .launchExecute _ => true
  | .launchFrameDelayed _ => true
  | .eventPulseEnd _ => true
  | .eventInputEdge _ _ => true
  | .lchDone0Read _ => true
  | .lchEvLoRead _ _ => true
  | .lchWrite _ _ entry => entry.length == 32
  | .lchCancel _ _ => true
  | .lchStatus _ _ => true
  | .lchFrameLoad _ _ _ _ _ _ => true
  | .lchEventConfig _ _ => true
  | .captureTrigger => true
  | .captureEnd _ => true
  | .capSelWrite _ => true
  | .capSession _ _ _ _ _ _ _ => true
  | .capMask _ _ _ _ _ _ => true
  | .capSkew _ _ values => values.length ≤ 255
  | .capArm _ _ => true
  | .capStop _ _ => true
  | .capTrigger _ _ _ _ _ => true
  | .capRead _ _ _ _ _ _ => true
  | .capRelease _ _ => true
  | .capStatus _ _ => true
  | .localSample samples => samples.length == 48
  | .modFault _ _ => true
  | .modFaultClear _ => true
  | .channelSettled _ => true
  | .localPmuReport _ => true
  | .auxConversionDone _ _ => true
  | .auxInjWrite _ => true
  | .auxCalDone _ _ => true
  | .auxSpareTakeover => true
  | .auxSpareCalibrated _ _ => true
  | .auxBufRdWrite _ _ => true
  | .lmfClock _ _ => true
  | .lmfChan _ _ => true
  | .lmfPmu _ _ => true
  | .lmfStatus _ _ => true
  | .auxLane _ _ _ _ => true
  | .auxSeq _ _ entries => entries.length ≤ 32
  | .auxInjected _ _ _ entries => entries.length ≤ 32
  | .auxBuffer _ _ _ _ _ => true
  | .auxCal _ _ _ => true
  | .auxStatus _ _ => true
  | .demandBoundary _ => true
  | .intervalRecord _ => true
  | .pulseStart _ => true
  | .pulseEnd _ => true
  | .meterSavePeriodic => true
  | .meterSaveDone => true
  | .meterStartupTestDone => true
  | .mtrConfig _ _ => true
  | .mtrDemand _ _ _ _ _ => true
  | .mtrPulse _ _ => true
  | .mtrSaveParams _ _ => true
  | .mtrSaveNow _ => true
  | .mtrStatus _ _ => true
  | .mtrStartupTest _ _ => true
  | .mtrClear _ _ => true
  | .keyUpdateCommit => true
  | .keySlotScrub _ => true
  | .shareRemask => true
  | .keyDrbgFault _ => true
  | .tamperDetected _ => true
  | .presenceRecognised => true
  | .keyStatus _ => true
  | .keyUpdate _ _ _ _ _ => true
  | .keySlotStatus _ _ => true
  | .keyAttest _ _ nonce _ => nonce.length == 32
  | .keyIdentity _ _ _ => true
  | .keyRandom _ _ => true
  | .tmpConfig _ loops _ => loops.length == 4
  | .tmpClear _ => true
  | .tmpStatus _ => true
  | .cmdSqTailWrite _ _ => true
  | .cmdFetch _ p => p.length == 64
  | .cmdCqHeadWrite _ _ => true
  | .cmdQueueEnable _ _ => true
  | .cmdQueueDisable _ _ => true
  | .mbxDataWrite _ _ _ _ => true
  | .mbxPost _ _ => true
  | .mbxTake _ _ => true
  | .mailboxTaken _ => true
  | .mailboxReplyPost _ => true
  | .mailboxStall _ => true
  | .fwWatchdog => true
  | .fwRestartDone => true
  | .cfgReplayBatch => true
  | .forwardedCommandRx _ p => p.length == 64
  | .forwardTimeout _ => true
  | .sysIdentify _ => true
  | .cmdAbort _ _ _ => true
  | .sysNop _ data => data.length ≤ 48
  | .sysReset _ _ => true
  | .cfgStoreWrite _ _ _ _ _ _ => true
  | .cfgStoreClear _ => true
  | .cfgStoreStatus _ => true
  | .sysFwRestart _ => true
  | .fwBegin _ _ _ _ _ => true
  | .fwWrite _ _ _ _ _ _ _ => true
  | .fwFinish _ => true
  | .fwStatus _ => true
  | .logFlushRun => true
  | .logConfig _ _ _ => true
  | .logRead _ _ _ _ _ _ _ => true
  | .logStatus _ => true
  | .logClear _ _ => true
  | .logWrite _ _ _ _ _ _ => true
  | .logFlush _ => true
  | .heartbeatRx _ => true
  | .hbLost => true
  | .witnessDecision _ => true
  | .goingDownRx _ => true
  | .pairingDecision => true
  | .pairWaitExpiry => true
  | .switchoverFreeze => true
  | .switchoverHandover => true
  | .xchkCellRx _ => true
  | .hrdConfig _ _ => true
  | .hrdStatus _ => true
  | .hrdSwitchover _ _ _ => true
  | .hrdCancel _ => true
  | .hrdUnfence _ _ => true
  | .hrdUnpair _ => true
  | .hrdDigestReset _ => true
  | .registerWrite _ _ _ _ => true
  | .rcRegisterRead _ _ => true
  | .multiwordLowRead _ _ => true
  | .lbHalfWrite _ _ _ _ => true
  | .gblIntEoiWrite _ _ => true
  | .pcieTlpError _ _ => true
  | .pcieFlr _ => true
  | .pcieD3hotEntry _ => true
  | .pcieLinkDown => true
  | .pciePerst => true
  | .lbRst => true
  | .lbTimeout => true
  | .powerOn => true
  | .porstN => true
  | .brownOut => true
  | .resetRelease _ => true
  | .alignmentReady => true
  | .pfwAssert => true
  | .pfwRelease => true
  | .dormantEntry => true
  | .dormantExit => true
  | .pwrDormant _ => true
  | .pwrWake _ => true
  | .pwrStatus _ => true
  | .estLoadDone _ _ => true
  | .oscLoadDone _ _ => true
  | .islLoadDone _ _ => true
  | .oscFoUpdateDelivered => true
  | .cfgStoreCommit => true
  | .lcChangeComplete => true
  | .sysResetDelayExpiry => true
  | .ppsOutPulseEnd _ => true
  | .presenceReleased => true
  | .clockLockRestored _ => true
  | .aonPowerLost => true
  | .aonSourceChangeover _ => true
  | .herdLaneUp => true
  | .herdLaneDown => true
  | .herdStateCellRx _ => true
  | .forwardedCommandReply _ _ _ _ => true
  | .memoryTestError => true
  | .pcieLinkUp _ _ _ => true
  | .msixVectorUnmask _ _ => true

/-- The command is well formed. -/
def Instr.wf (i : Instr) : Bool := (match i.hdr? with | some h => h.wf | none => true) && i.shape

end Sys2Proof
end

