-- ==== Sys2Proof/Tests/Slice0.lean ====
section
/-!
SUPPORT. Tests: the witnesses of the statements' hypotheses, clause by clause, and small checks of single commands against the spec's own
numbers.
-/
set_option Elab.async false

namespace Sys2Proof.Tests

open Sys2Proof Sys2Proof.Machine Sys2Proof.Safety Sys2Proof.Laws

/-! ### Devices and packets -/

/-- A device out of reset and alignment-ready, with its PCIe link up and its local bus clocked. -/
def live : Dev :=
  { pwr := { held := false, supplies := true, run := .ready }, gbl := { linkUp := true, lbRunning := true }, cmd := { fwUp := true } }

/-- A packet of `n` parameter bytes through secure mailbox 0, posted from PF1. -/
def hdr (n : Nat) : Hdr :=
  { chan := 20, path := .pf1, flags := 0, target := 0, seq := 7, plen := BitVec.ofNat 16 n, status := 0, order := 0, pad := true }

/-- The device with a message taken from secure mailbox 0. -/
def posted (op : Nat) (params : Bytes) (d : Dev) : Dev :=
  setMbox d 8 { taken := some { path := .pf1, packet := packetBytes (hdr params.length) op params } }

/-- The packet passes Table 16-2, as a Bool. -/
def passesNow (h : Hdr) (op : Nat) (params : Bytes) (hb : Bool) (d : Dev) : Bool :=
  canAccept d h op params && isLocal h && !abortNamed d h && (seqBad d h).isNone && (acceptFault d h op params hb).isNone

theorem passes_now {h : Hdr} {op : Nat} {params : Bytes} {hb : Bool} {d : Dev} (hp : passesNow h op params hb d = true) :
    passes h op params hb d := by
  simp only [passesNow, Bool.and_eq_true, Bool.not_eq_true', Option.isNone_iff_eq_none] at hp
  exact ⟨hp.1.1.1.1, hp.1.1.1.2, hp.1.1.2, hp.1.2, hp.2⟩

/-- Some device meets an event's condition. -/
def canDo (_ : Instr) (w : Dev → Prop) : Prop := ∃ d, w d

/-- Some device passes the packet and meets the opcode's own condition. -/
def canEnd (_ : Instr) (h : Hdr) (op : Nat) (params : Bytes) (hb : Bool) (w : Dev → Prop) : Prop :=
  ∃ d, passes h op params hb d ∧ w (started h op params d)

/-- The same for a staging command. -/
def canStageBy (i : Instr) (h : Hdr) (op : Nat) (params : Bytes) (ok : Dev → Prop) (dk ls : Dev → List Nat) : Prop :=
  canEnd i h op params false fun d => ok d ∧ canStage (dk d) (ls d) d

theorem meet {i : Instr} {w : Dev → Prop} (d : Dev) (h : w d) : canDo i w := ⟨d, h⟩

theorem run {i : Instr} {op : Nat} {params : Bytes} {hb : Bool} {w : Dev → Prop} (d : Dev)
    (hp : passesNow (hdr params.length) op params hb (posted op params d) = true)
    (hw : w (started (hdr params.length) op params (posted op params d))) : canEnd i (hdr params.length) op params hb w :=
  ⟨posted op params d, passes_now hp, hw⟩

theorem put {i : Instr} {op : Nat} {params : Bytes} {ok : Dev → Prop} {dk ls : Dev → List Nat} (d : Dev)
    (hp : passesNow (hdr params.length) op params false (posted op params d) = true)
    (hw : ok (started (hdr params.length) op params (posted op params d)))
    (hs : (started (hdr params.length) op params (posted op params d)).clk.pending = none ∧
      (started (hdr params.length) op params (posted op params d)).clk.firstBuilt = false) :
    canStageBy i (hdr params.length) op params ok dk ls :=
  ⟨posted op params d, passes_now hp, hw, hs.1, fun h => absurd h (by simp [hs.2])⟩


/-! ### Definitions, records and slots for the witnesses -/

/-- A stream of one channel. -/
def strm (kind : StreamKind) : StreamDef :=
  { kind := kind, version := 0, timeBase := 1000000, rate := 50, firstChan := 0, count := 1, blocks := 0, dataLen := 16, testAcc := false,
    questAcc := false, sortAcc := false, leapTrust := false, snap := false, confRev := 0 }

/-- An O-stream of one membership. -/
def ost : OstreamDef :=
  { rate := 50, firstMemb := 0, membCount := 1, maxWait := 20000, lagLimit := 10000, guardUs := 0, qtail := 0, defWait := 5000, missLimit := 3,
    amend := false }

/-- The summary of a slot of an O-stream, of the generation current after reset. -/
def summ (o : Nat) : Summary :=
  { ostream := o, sec := 0, tick := 0, gen := 0, cause := .complete, absent := [], warming := false, amend := 0 }

/-- A record without contributors. -/
def rcrd (o : Nat) : Record := { summary := summ o, commitNs := 0, sends := false, qual := 0, contribs := [] }

/-- A slot at the first tick. -/
def slt (st : SlotState) : Slot :=
  { ord := 0, sec := 0, tick := 0, gen := 0, deadline := 0, state := st, waited := false, remain := 0, counted := [], laggards := [] }

/-- A report of stream 1. -/
def rprt : Report :=
  { stream := 1, sec := 0, ns := 0, arrival := {}, defn := strm .c37Udp, parsed := true, gen := 0, leap := none, values := [0] }

/-- An IPv4 header with an empty UDP datagram, from 10.0.0.1 to 10.0.0.2. -/
def ipv4 : Bytes :=
  [0x45, 0, 0, 28, 0, 0, 0, 0, 64, 17, 0x66, 0xCF, 10, 0, 0, 1, 10, 0, 0, 2, 0, 1, 0, 2, 0, 8, 0, 0]

/-- A received frame on port 0 with an EtherType and payload. -/
def rxf (etype : W16) (payload : Bytes) : PortFrame :=
  { dst := 0, src := 0, etype := etype, payload := payload,
    info := { port := 0, ts := {}, len := 64, daClass := 0, tags := 0, outer := 0, inner := 0, prot := 0 } }

/-- A frame waiting in a stream's task. -/
def tskf (data : Bytes) : TaskFrame := { port := some 0, ts := {}, data := data }

/-- The device with pip 5 valid for one use. -/
def withPip (use : Nat) (d : Dev) : Dev :=
  { d with
    key := { d.key with
      slots := [(0x8005, { state := .valid, attr := use, parent := 0, origin := 0, label := [], wrap := 0, key := [] })]
      vault := .ready } }

/-- A directory entry of an analog channel of stream 1, or one that breaks none of rows 1 to 4. -/
def ent0 : DirEntry := { q0 := 0, q1 := 0, q2 := 0, q3 := 0 }

/-- A broadcast frame of 64 bytes. -/
def bcast : RxFrame :=
  { bytes := List.replicate 6 0xFF ++ [2, 0, 0, 0, 0, 2, 8, 0] ++ List.replicate 46 0 ++ [0xB5, 0xFF, 0xB4, 0xB2], lineOk := true }

/-- A PAUSE frame of 0xFFFF quanta. -/
def pauseF : RxFrame :=
  { bytes := [0x01, 0x80, 0xC2, 0, 0, 1, 2, 0, 0, 0, 0, 2, 0x88, 0x08, 0, 1, 0xFF, 0xFF] ++ List.replicate 42 0 ++ [0xA9, 0x0B, 0x2B, 0xB5],
    lineOk := true }

/-- A frame of 64 bytes in a transmit buffer. -/
def txf : TxFrame := { kind := 0, source := 0, bytes := List.replicate 60 0, mark := none }

/-- A parameter block in the host's memory. -/
def hostBlock (n : Nat) : BlockSrc := { kind := 0, addr := 64, len := BitVec.ofNat 16 n, readOk := true }

/-- The binding of a key to template 0. -/
def key0 (binding : Byte) : SigKeyP :=
  { index := 0, binding := binding, keyId := 1, slot := 5, timeOfKey := 0, timeToNext := 0, swap := 1 }

/-- A host record of one entry. -/
def hrec (type : Nat) : HostRec := { type := type, prio := 3, head := List.replicate 64 0, more := [] }

/-- A block of `n` bytes with little-endian fields at the offsets given, 0 elsewhere. -/
def laid (n : Nat) (fields : List (Nat × Nat × Nat)) : Bytes :=
  (List.range n).map fun i => match fields.find? fun e => e.1 ≤ i && i < e.1 + e.2.1 with
    | some e => BitVec.ofNat 8 (e.2.2 / 256 ^ (i - e.1))
    | none => 0

/-- The output format of O-stream 3: C37.118.2, version 1, FRAME_MAX 9,170, ring 31, late ring 255, SVID 'A'. -/
def fmt3 : Bytes :=
  laid 64 [(0, 2, 3), (3, 1, 1), (4, 2, 1), (6, 3, 1000000), (9, 1, 3), (10, 1, 1), (11, 1, 1), (16, 2, 9170), (24, 1, 31), (25, 1, 255), (28, 1,
      0x41)]

/-- A template of O-stream 3 through port 0, from 10.0.0.1 to 10.0.0.2. -/
def tpl3 : Bytes :=
  laid 80 [(0, 2, 16383), (2, 2, 3), (5, 1, 3), (6, 1, 1), (7, 1, 63), (18, 2, 0xFFFF), (20, 4, 0x0200000A), (34, 2, 0xFFFF), (36, 4, 0x0100000A),
      (45, 1, 1), (46, 2, 1), (48, 2, 4713), (51, 1, 7), (60, 4, 2000000)]

/-- A configuration of the mode engine on O-stream 3. -/
def oscBlock : Bytes :=
  laid 128 [(0, 1, 0x1), (1, 1, 0x32), (2, 2, 0x3), (10, 4, 0x3DCCCCCD), (14, 4, 0x40000000), (18, 1, 0x1E), (19, 1, 0x14), (20, 1, 0x8), (21, 1,
      0x20), (22, 1, 0x10), (23, 1, 0xA), (24, 2, 0xE10), (26, 1, 0xA), (27, 1, 0xA), (28, 4, 0x3C23D70A), (32, 4, 0x3D4CCCCD), (36, 4,
      0x3D4CCCCD), (40, 4, 0x3F000000), (44, 2, 0x200), (46, 1, 0x3C), (47, 1, 0x3), (48, 4, 0x3F4CCCCD), (52, 4, 0x41200000), (56, 4, 0x3E800000),
      (60, 4, 0x3D4CCCCD), (64, 4, 0x3D4CCCCD), (68, 4, 0x3C23D70A), (72, 1, 0x5), (73, 1, 0x5)]

/-- A configuration of the island engine on O-stream 3. -/
def islBlock : Bytes :=
  laid 64 [(0, 1, 0x1), (1, 1, 0x1), (2, 2, 0x3), (10, 4, 0x1), (34, 1, 0x1), (35, 1, 0x1), (36, 4, 0x3DCCCCCD), (40, 4, 0x3DCCCCCD), (44, 4,
      0x41200000), (48, 4, 0x3F800000), (52, 4, 0x3F000000), (56, 1, 0x1)]

/-- A GOOSE template of port 0 with one member, from 10.0.0.1. -/
def gooseBlock : Bytes :=
  laid 512 [(0, 1, 0x1), (3, 1, 0x1), (54, 2, 0x1), (56, 2, 0x1), (62, 2, 0x3E8), (64, 4, 0xEA60), (68, 1, 0x1), (256, 1, 0x41), (320, 1, 0x41),
      (384, 1, 0x41), (42, 2, 0xFFFF), (44, 4, 0x100000A)]

/-- A generation with O-stream 3 in which both slow engines run. -/
def engGen : Gen :=
  { os := [(3, { ost with rate := 50 })], osc := { config := some (oscConfigOf oscBlock) }, isl := { config := some (islConfigOf islBlock) } }

/-- A factor of the generation current after reset. -/
def fct : Factor := { gen := 0, rows := [], branches := [], nnz := 0, unobs := [], omega := [], critical := [], buses := 0 }

/-- A factorisation. -/
def fcg (gen : W16) (prep : Bool) : Factoring := { gen := gen, prep := prep, rows := [], branches := [] }

/-- A load of one zero entry at index 0 of a table. -/
def ldp (table : Byte) (crc : W32) : LoadP := { source := 0, addr := 64, table := table, first := 0, count := 1, crc := crc }

/-- The same load in progress. -/
def ldr (table : Byte) (crc : W32) : LoadRun := { chan := 20, seq := 7, p := ldp table crc, conflict := false }

/-- An island slot. -/
def isl0 : Island := { comp := 1, sec := 0, tick := 0, fc := 0, diff := 0, nodes := 1, valid := 1 }

/-- A capture definition of a wide and a local side with one term. -/
def capd (kind : Nat) : CapDef :=
  { isLocal := false, isWide := true, contin := false, hold := true, stream := false, extMax := 0, wideAll := true, locMask := 0, ostream := 3,
    list := [], pre := 0, post := 1, reach := 0, nLocal := 1, nWide := 1, lanes := 8, maskEn := 1, terms := [{ kind := kind, edge := 1, sel := 0 }] }

/-- A mask that triggers. -/
def capm : CapMask := { stop := false, trig := true, wide := true, magn := false, chan := 0, stopPost := 0, points := [(0, 0, 0)] }

/-- A capture in progress. -/
def capc : Capture := { number := 1, tp := 0, raw := 0, kind := 1, term := 0, sel := 0, began := 0, stop := 0 }

/-- A launch entry that snapshots the counters. -/
def lche (status : LchStatus) : LchEntry :=
  { sec := 0, tick := 5, offset := 0, action := 5, syncReq := false, lateRun := false, report := true, count := 1, period := 0,
    params := 0x17 :: List.replicate 11 0, status := status }

/-- A stored batch from generation 0 to generation 1 without packets. -/
def batch0 : StoredBatch := { image := laid 64 [(0, 4, 0x42484147), (4, 2, 1), (10, 2, 1), (60, 4, 0xAA5EFAC4)] }

/-- A command that executes on a channel. -/
def exe (chan op : Nat) : Executing :=
  { hdr := { hdr 0 with chan := chan, seq := 9 }, op := BitVec.ofNat 16 op, params := [], abortable := true, order := 1 }

/-- The header of an image of one 4 KiB unit, complete but for its signature. -/
def image0 : Bytes := laid 4096 [(0, 4, 0x49574657), (4, 2, 1), (20, 4, 4096)]

/-- A heartbeat of an unpaired peer. -/
def beat : Heartbeat :=
  { sideband := true, crcOk := true, actIn := false, role := 0, health := 0, priority := false, tick := 0, sec := 0, pairId := 0, digest := 0, alarms := 0,
    events := 0, pulses := 0, txAt := { sec := 0, ns := 0, frac := 0 }, rxAt := none, peerU := 0, utcOffset := none, announce := none, acked :=
        false }

/-- A switch-over at the sixth tick. -/
def swo (acked taker : Bool) : SwitchOver := { sec := 0, tick := 5, auto := false, acked := acked, taker := taker }

/-- A command forwarded to the peer. -/
def fwd (target : Byte) : Forwarded :=
  { hdr := { hdr 0 with chan := 23, target := target }, op := 0x0103, params := [], here := some (.ok, []), peerFirst := false, order := 1 }

/-- A record of the cross-check. -/
def xrec : XRecord := { ostream := 3, sec := 0, tick := 0, amend := 0, complete := true, absent := [], crc := 5 }

/-! ### The completion statements, clause by clause -/

/-- The hypotheses of `ClockAndGenerationCommandsComplete` can be met, clause by clause. -/
theorem witness_ClockAndGenerationCommandsComplete :
    (canDo .tickStart (fun d => isLive d = true ∧ coreRuns (advance d) = true)) ∧
    (canDo .tickStart (fun d => isLive d = true ∧ coreRuns (advance d) = false ∧ corePowered (advance d) = true)) ∧
    (canDo .perSecondSummary (fun d => isLive d = true ∧ (d.clk.tallies.any fun e => isOver d e.2) = false ∧ d.clk.closed = [])) ∧
    (∃ k t, canDo .perSecondSummary (fun d => isLive d = true ∧ isOver d t = true ∧ d.clk.tallies = [(k, t)] ∧ d.clk.closed = [])) ∧
    (∃ h gen sec, ∃ tick : W16, canEnd (.genSwitch h gen sec tick) h 0x0110 (pk gen ++ pk sec ++ pk tick) false (fun d => gen = d.clk.gen + 1 ∧
        d.clk.pending = none ∧ d.clk.retiring = none ∧ nowNs d < tickInst sec tick.toNat ∧
          dormantSpan d = false ∧ tick.toNat ≤ 3599)) ∧
    (∃ h w, canEnd (.genCancel h) h 0x0111 [] false (fun d => d.clk.pending = some w ∧ nowNs d < tickInst w.sec w.tick ∧ w.entry = none)) ∧
    (∃ h, canEnd (.genDiscardStaged h) h 0x0112 [] false (fun d => stagedShut d = false)) ∧
    (∃ h, canEnd (.genStatus h) h 0x0113 [] false (fun _ => True)) ∧
    (∃ h code, canEnd (.counterSnapshot h code) h 0x0120 (pk code) false (fun _ => snapOk code.toNat = true)) ∧
    (∃ domain : Fin 19, canDo (.pllUnlock domain) (fun d => isLive d = true ∧ bit d.clk.lock.toNat domain.val = true)) ∧
    (∃ domain : Fin 19, ∃ t, canDo (.pllRelock domain) (fun d => isLive d = true ∧ mfind d.clk.stalled domain.val = some t ∧ domain.val ∉ [0, 2,
        4])) ∧
    (∃ domain : Fin 19, ∃ t, canDo (.pllRelockTimeout domain) (fun d => isLive d = true ∧ mfind d.clk.stalled domain.val = some t)) ∧
    (∃ domain : Fin 19, canDo (.clockLockRestored domain) (fun d => isLive d = true ∧ inDormant d = false ∧ 7 ≤ domain.val)) ∧
    (canDo (.clockLockRestored 6) (fun d => isLive d = true)) :=
  ⟨meet live (by decide +kernel),
   meet { live with clk := { stalled := [(0, 0)] } } (by decide +kernel),
   meet live (by decide +kernel),
   ⟨0, { sec := 0, count := 1, arg := 0 },
       meet { live with tod := { sec := 1 }, clk := { tallies := [(0, { sec := 0, count := 1, arg := 0 })] } } (by decide +kernel)⟩,
   ⟨_, 1, 5, 3599, run live (by decide +kernel) (by decide +kernel)⟩,
   ⟨_, { gen := 1, sec := 5, tick := 0, entry := none },
       run { live with clk := { pending := some { gen := 1, sec := 5, tick := 0, entry := none } } } (by decide +kernel) (by decide +kernel)⟩,
   ⟨_, run live (by decide +kernel) (by decide +kernel)⟩,
   ⟨_, run live (by decide +kernel) trivial⟩,
   ⟨_, 0x17, run live (by decide +kernel) (by decide +kernel)⟩,
   ⟨0, meet { live with clk := { lock := 1 } } (by decide +kernel)⟩,
   ⟨1, 0, meet { live with clk := { stalled := [(1, 0)] } } (by decide +kernel)⟩,
   ⟨4, 0, meet { live with clk := { stalled := [(4, 0)] } } (by decide +kernel)⟩,
   ⟨18, meet live (by decide +kernel)⟩,
   meet live (by decide +kernel)⟩

/-- The hypotheses of `TimeEventsComplete` can be met, clause by clause. -/
theorem witness_TimeEventsComplete :
    (canDo .secondStart (fun d => isLive d = true ∧ d.tod.secDone = some d.tod.sec)) ∧
    (canDo .todSerOutSentence (fun d => isLive d = true ∧ d.tod.serOutEn = true ∧ d.tod.driving = true ∧ timeOutsAllowed d = true)) ∧
    (∃ value, canDo (.todIncWrite value) (fun d => isLive d = true ∧ 1999 * 2 ^ 40 ≤ value.toNat * 1000 ∧
          value.toNat * 1000 ≤ 2001 * 2 ^ 40 ∧ d.tod.state ≠ .holdover)) ∧
    (∃ a, canDo .phaseAdjDone (fun d => isLive d = true ∧ d.tod.adj = some a)) ∧
    (∃ input taken, canDo (.ppsEdge input taken) (fun d => isLive d = true ∧ takesEdges d input.val = false)) ∧
    (∃ m, canDo (.todSerInSentence m) (fun d => isLive d = true ∧ fwTakes d = true ∧ m.valid = true ∧ m.second ≤ 60 ∧ 10 ≤ m.afterMs ∧
          m.afterMs ≤ 900 ∧ d.tod.snap0.valid = true ∧ (unsetTime d = true ∨ (sentenceOff m d).natAbs < 500000000))) ∧
    (∃ m, canDo (.todSerInSentence m) (fun d => isLive d = true ∧ fwTakes d = true ∧ m.valid = true ∧ m.second ≤ 60 ∧ 10 ≤ m.afterMs ∧
          m.afterMs ≤ 900 ∧ d.tod.snap0.valid = true ∧ unsetTime d = false ∧ 500000000 ≤ (sentenceOff m d).natAbs)) ∧
    (∃ port : Fin 12, ∃ domain delay, canDo (.ptpRx port domain (.pdelayResp delay)) (fun d => isLive d = true ∧ fwTakes d = true ∧
          (mget ({} : PtpPort) d.tod.ptp port).enable = true ∧ (mget ({} : PtpPort) d.tod.ptp port).domain = domain ∧
          d.hrd.role ≠ .fenced)) ∧
    (∃ port : Fin 12, ∃ domain sq o off, canDo (.ptpRx port domain (.sync sq o off)) (fun d => isLive d = true ∧ fwTakes d = true ∧
          (mget ({} : PtpPort) d.tod.ptp port).enable = true ∧ (mget ({} : PtpPort) d.tod.ptp port).domain = domain ∧
          d.hrd.role ≠ .fenced ∧ (mget ({} : PtpPort) d.tod.ptp port).state = .slave)) ∧
    (∃ port : Fin 12, canDo (.ptpTxInterval port) (fun d => isLive d = true ∧ fwTakes d = true ∧ d.hrd.role ≠ .fenced ∧
          (mget ({} : PtpPort) d.tod.ptp port).enable = true ∧
          (mget ({} : PtpPort) (ageParent port d).tod.ptp port).state ≠ .master)) ∧
    (∃ port : Fin 12, canDo (.ptpTxInterval port) (fun d => isLive d = true ∧ fwTakes d = true ∧ d.hrd.role ≠ .fenced ∧
          (mget ({} : PtpPort) d.tod.ptp port).enable = true ∧
          (mget ({} : PtpPort) (ageParent port d).tod.ptp port).state = .master ∧
          (mget ({} : PtpPort) (ageParent port d).tod.ptp port).slaveOnly = false ∧
          (ptpDelayReq port (ageParent port d)).tod.u.isSome = true)) ∧
    (∃ code, canDo (.timeRefLost code) (fun d => isLive d = true ∧ code ≠ 0 ∧ code.toNat < 5 ∧
          ((mfind d.tod.present code.toNat).isSome = true ∨ d.tod.ref = code))) ∧
    (∃ c t, canDo .referenceUpgrade (fun d => isLive d = true ∧ fwTakes d = true ∧ d.tod.ref ≠ 0 ∧ rankOf d d.tod.ref.toNat = some 1 ∧
          d.tod.refList.take 1 = [c] ∧ mfind d.tod.present c = some t ∧ 60000 ≤ optSince d t)) ∧
    (canDo (.ref10Changeover true) (fun d => isLive d = true ∧ d.tod.osc = false)) ∧
    (canDo (.ref10Changeover false) (fun d => isLive d = true ∧ d.tod.osc = true)) ∧
    (canDo (.ppsOutPulseEnd 0) (fun d => isLive d = true ∧ d.tod.pps0.high = true)) ∧
    (canDo (.ppsOutPulseEnd 1) (fun d => isLive d = true ∧ d.tod.pps1.high = true)) ∧
    (∃ path, canDo (.todNow0Read path) (fun d => isLive d = true)) :=
  ⟨meet { live with tod := { secDone := some 0 } } (by decide +kernel),
   meet { live with tod := { serOutEn := true, driving := true, state := .locked, ref := 1 }, clk := { lock := 1 } } (by decide +kernel),
   ⟨BitVec.ofNat 48 2199023255552, meet { live with tod := { state := .freerun } } (by decide +kernel)⟩,
   ⟨{ s := 5, n := 10, done := 0 }, meet { live with tod := { adj := some { s := 5, n := 10, done := 0 } } } (by decide +kernel)⟩,
   ⟨0, false, meet live (by decide +kernel)⟩,
   ⟨{ valid := true, year := 2026, month := 1, day := 1, hour := 0, minute := 0, second := 60, afterMs := 900 },
    meet { live with tod := { snap0 := { valid := true } } } (by decide +kernel)⟩,
   ⟨{ valid := true, year := 2026, month := 1, day := 1, hour := 0, minute := 0, second := 60, afterMs := 900 },
     meet { live with tod := { state := .freerun, leap := some [{ t := 0, off := 37 }], snap0 := { valid := true } } } (by decide +kernel)⟩,
   ⟨3, 1, 40, meet { live with tod := { ptp := [(3, { enable := true, domain := 1 })] } } (by decide +kernel)⟩,
   ⟨3, 1, 100, 200, 5, meet { live with tod := { ptp := [(3, { enable := true, domain := 1, state := .slave })] } } (by decide +kernel)⟩,
   ⟨3, meet { live with tod := { ptp := [(3, { enable := true, state := .passive })] } } (by decide +kernel)⟩,
   ⟨3, meet { live with tod := { u := some 100, ptp := [(3, { enable := true, state := .master })] } } (by decide +kernel)⟩,
   ⟨2, meet { live with tod := { ref := 2, state := .locked } } (by decide +kernel)⟩,
   ⟨1, 0, meet { live with tod := { ref := 2, refList := [1, 2], present := [(1, 0), (2, 0)] }, log := { opt := 60000 } } (by decide +kernel)⟩,
   meet live (by decide +kernel),
   meet { live with tod := { osc := true } } (by decide +kernel),
   meet { live with tod := { pps0 := { high := true } } } (by decide +kernel),
   meet { live with tod := { pps1 := { high := true } } } (by decide +kernel),
   ⟨.lb, meet live (by decide +kernel)⟩⟩

/-- The hypotheses of `TimeCommandsComplete` can be met, clause by clause. -/
theorem witness_TimeCommandsComplete :
    (∃ h, canEnd (.timeStatus h) h 0x0201 [] false (fun d => d.tod.deferred = none)) ∧
    (∃ h sec ns uH, canEnd (.timeSet h sec ns uH 0) h 0x0202 (pk sec ++ pk ns ++ pk uH ++ pk (0 : Byte)) false (fun d => ns.toNat < secNs ∧
        (d.tod.state = .unset ∨ d.tod.state = .freerun) ∧ d.cur.os = [])) ∧
    (∃ h sec ns uH, canEnd (.timeSet h sec ns uH 1) h 0x0202 (pk sec ++ pk ns ++ pk uH ++ pk (1 : Byte)) false (fun d => ns.toNat < secNs ∧
        (d.tod.state = .unset ∨ d.tod.state = .freerun) ∧ d.cur.os = [])) ∧
    (∃ h sv n, canEnd (.timePhaseAdjust h sv n) h 0x0203 (pk sv ++ pk n) false (fun d => n ≠ 0 ∧ sv.toInt.natAbs * 10000 ≤ 4 * n.toNat * 65536 ∧
        d.tod.adj = none ∧ d.tod.state = .freerun)) ∧
    (∃ h a, canEnd (.timePhaseAbort h) h 0x0204 [] false (fun d => d.tod.adj = some a)) ∧
    (∃ h, ∃ refs : W32, ∃ pol baud, let codes := (List.range 4).map fun i => bits refs.toNat (8 * i) 8
          let used := codes.takeWhile (· != 0)
          canEnd (.timeRefSelect h refs pol baud) h 0x0205 (pk refs ++ [pol, baud]) false (fun _ => (∀ c ∈ codes.drop used.length, c = 0) ∧
              (∀ c ∈ used, c ≤ 5) ∧ used.Nodup ∧ pol.toNat < 4 ∧ baud.toNat < 5)) ∧
    (∃ h uLock fRef10 aRef10 fRef100 aRef100 holdSpec degraded, canEnd (.timeQualParams h uLock fRef10 aRef10 fRef100 aRef100 holdSpec degraded)
        h 0x0206 (pk uLock ++ pk fRef10 ++ pk aRef10 ++ pk fRef100 ++ pk aRef100 ++ pk holdSpec ++ pk degraded)
        false (fun _ => degraded = 52 ∨ degraded = 187)) ∧
    (∃ h entries, let l : List LeapEntry := List.map (fun e => { t := e.t, off := e.off.toNat }) entries
          canEnd (.timeLeapSet h entries) h 0x0207 ([BitVec.ofNat 8 entries.length] ++ (entries.map LeapP.bytes).flatten)
              false (fun d => leapOk l = true ∧ d.tod.state = .unset)) ∧
    (∃ h p, canEnd (.timePtpPort h p) h 0x0208 p.bytes false (fun d => p.port.toNat < 12 ∧ p.enable.toNat ≤ 1 ∧ p.profile.toNat ≤ 1 ∧
        p.slaveOnly.toNat ≤ 1 ∧ p.peerAddr.toNat ≤ 1 ∧
          p.vid.toNat < 4095 ∧ p.pcp.toNat ≤ 7 ∧ (p.profile = 1 → 3 ≤ p.gmId.toNat ∧ p.gmId.toNat ≤ 254) ∧
          (p.enable = 1 ∧ p.slaveOnly = 1 →
            ∀ q ∈ ptpPorts d, q ≠ p.port.toNat → (mget ({} : PtpPort) d.tod.ptp q).slaveOnly = false))) ∧
    (∃ h p, let near (v : W32) : Prop := v.toInt.natAbs ≤ 100000
          let wide (v : W32) : Prop := 1 ≤ v.toNat ∧ v.toNat ≤ 500000
          canEnd (.timeOutputs h p) h 0x0209 p.bytes false (fun _ => p.ppsEn.toNat < 4 ∧ p.ppsUtc.toNat < 4 ∧ near p.ppsOff0 ∧ near p.ppsOff1 ∧
              wide p.ppsWidth0 ∧ wide p.ppsWidth1 ∧
          p.ref10En.toNat ≤ 1 ∧ near p.ref10Off ∧ p.irigEn.toNat ≤ 1 ∧ p.irigB005.toNat ≤ 1 ∧ p.irigLocal.toInt.natAbs ≤ 31 ∧
          near p.irigOff ∧ p.serEn.toNat ≤ 1 ∧ p.serBaud.toNat ≤ 4)) :=
  ⟨⟨_, run live (by decide +kernel) (by decide +kernel)⟩,
   ⟨_, 1000, 999999999, 50, run live (by decide +kernel) (by decide +kernel)⟩,
   ⟨_, 1000, 999999999, 50, run live (by decide +kernel) (by decide +kernel)⟩,
   ⟨_, 4, 10000, run { live with tod := { state := .freerun } } (by decide +kernel) (by decide +kernel)⟩,
   ⟨_, { s := 5, n := 10, done := 0 }, run { live with tod := { adj := some { s := 5, n := 10, done := 0 } } } (by decide +kernel)
       (by decide +kernel)⟩,
   ⟨_, 0x00000105, 3, 4, run live (by decide +kernel) (by decide +kernel)⟩,
   ⟨_, 40, 200, 1000, 5000000, 100000, 1000, 187, run live (by decide +kernel) (by decide +kernel)⟩,
   ⟨_, [{ t := 36, off := 36 }, { t := 86437, off := 37 }], run live (by decide +kernel) (by decide +kernel)⟩,
   ⟨_, { port := 11, enable := 1, profile := 1, domain := 0, priority1 := 1, priority2 := 1, slaveOnly := 1, peerAddr := 0, vid := 4094, pcp := 7, gmId := 254, variance := 0 }, run live (by decide +kernel) (by decide +kernel)⟩,
   ⟨_, { ppsEn := 3, ppsUtc := 0, ppsOff0 := 100000, ppsOff1 := 0, ppsWidth0 := 1, ppsWidth1 := 500000, ref10En := 1, ref10Off := 0, irigEn := 1, irigB005 := 0, irigLocal := 31, irigOff := 0, serEn := 1, serBaud := 4 }, run live (by decide +kernel) (by decide +kernel)⟩⟩

/-- The hypotheses of `AlignmentCommandsComplete` can be met, clause by clause. -/
theorem witness_AlignmentCommandsComplete :
    (∃ os : Fin 4096, ∃ sec, ∃ tick : Fin 3600, ∃ x, canDo (.slotDeadline os sec tick) (fun d => coreRuns d = true ∧
        slotOf d os sec tick = some x ∧ x.state = .opened)) ∧
    (∃ os : Fin 4096, ∃ sec, ∃ tick : Fin 3600, ∃ x, canDo (.orderWaitCommit os sec tick) (fun d => coreRuns d = true ∧
        slotOf d os sec tick = some x ∧ x.orderWait = true)) ∧
    (∃ r rest, canDo .assemblyStart (fun d => coreRuns d = true ∧ d.aln.asmQueue = r :: rest ∧ r.summary.amend ≠ 0)) ∧
    (∃ r rest, canDo .assemblyStart (fun d => coreRuns d = true ∧ d.aln.asmQueue = r :: rest ∧ r.summary.amend = 0 ∧
          genByNum (testRecord false r { d with aln := { d.aln with asmQueue := rest } }) r.summary.gen = none)) ∧
    (∃ r rest g, canDo .assemblyStart (fun d => coreRuns d = true ∧ d.aln.asmQueue = r :: rest ∧ r.summary.amend = 0 ∧
          genByNum (testRecord false r { d with aln := { d.aln with asmQueue := rest } }) r.summary.gen = some g)) ∧
    (∃ r rest, canDo .reportCheck (fun d => coreRuns d = true ∧ d.ing.alnQ = r :: rest ∧ d.ing.alnBp = false)) ∧
    (∃ os : Fin 4096, canDo (.latencySweep os) (fun d => coreRuns d = true)) ∧
    (∃ v, canDo (.alnOsSelWrite v) (fun d => isLive d = true)) ∧
    (∃ h p, canStageBy (.alnOstreamDef h p) h 0x0501 p.bytes (fun _ => ostreamBad p = false) (fun _ => []) (fun _ => [keyOstream p.ostream.toNat])) ∧
    (∃ h, ∃ ostream : W16, canStageBy (.alnOstreamRemove h ostream) h 0x0502 (pk ostream) (fun _ => ostream.toNat < 4096) (fun _ => [])
        (fun d => if (mfind d.staged.os ostream.toNat).isSome then [keyOstream ostream.toNat] else [])) ∧
    (∃ h p, canStageBy (.alnMemberSet h p) h 0x0503 p.bytes (fun d => memberBad d.staged p = false) (fun _ => [])
        (fun _ => [keyMemb p.index.toNat])) ∧
    (∃ h, ∃ first count : BitVec 24, canStageBy (.alnMemberClear h first count) h 0x0504 (pk first ++ pk count) (fun _ => count ≠ 0 ∧
        first.toNat + count.toNat ≤ membMax) (fun _ => [])
        (fun d => ((d.staged.membs.filter fun e => first.toNat ≤ e.1 && e.1 < first.toNat + count.toNat).map Prod.fst).map keyMemb)) ∧
    (∃ h restartGap, canEnd (.alnParams h restartGap) h 0x0505 [restartGap] false (fun _ => restartGap ≠ 0)) ∧
    (∃ h, ∃ ostream : W16, ∃ x, canEnd (.alnOstreamStatus h ostream) h 0x0506 (pk ostream) false (fun d => ostream.toNat < 4096 ∧
        (mfind d.cur.os ostream.toNat).isSome = true ∧ (osRun d ostream.toNat).last = some x)) ∧
    (∃ h, ∃ memb : BitVec 24, ∃ half x, canEnd (.alnMemberStatus h memb half) h 0x0507 (pk memb ++ [half]) false (fun d => memb.toNat < membMax ∧
        half.toNat ≤ 1 ∧ mfind d.cur.membs memb.toNat = some x)) ∧
    (∃ h, canEnd (.alnLandPlan h) h 0x0508 [] false (fun d => d.clk.pending = none ∧ firstBreach d.staged = none ∧
        landBlocks d.cur.land (landPlan d) ≤ 67108864 ∧
          planFits (landPlan d) = true)) :=
  ⟨⟨4095, 0, 0, slt .opened, meet { live with aln := { os := [(4095, { slots := [slt .opened] })] } } (by decide +kernel)⟩,
   ⟨0, 0, 0, { slt .opened with orderWait := true },
       meet { live with aln := { os := [(0, { slots := [{ slt .opened with orderWait := true }] })] } } (by decide +kernel)⟩,
   ⟨{ rcrd 0 with summary := { summ 0 with amend := 1 } }, [],
       meet { live with aln := { asmQueue := [{ rcrd 0 with summary := { summ 0 with amend := 1 } }] } } (by decide +kernel)⟩,
   ⟨{ rcrd 0 with summary := { summ 0 with gen := 7 } }, [],
       meet { live with aln := { asmQueue := [{ rcrd 0 with summary := { summ 0 with gen := 7 } }] } } (by decide +kernel)⟩,
   ⟨rcrd 0, [], {}, meet { live with aln := { asmQueue := [rcrd 0] } } (by decide +kernel)⟩,
   ⟨rprt, [], meet { live with ing := { alnQ := [rprt] } } (by decide +kernel)⟩,
   ⟨4095, meet live (by decide +kernel)⟩,
   ⟨4095, meet live (by decide +kernel)⟩,
   ⟨_, { ostream := 4095, rate := 60, firstMemb := 0, membCount := 1, maxWait := 2000000, lagLimit := 0, guardUs := 0, qtail := 1000, defWait := 0, missLimit := 63, amend := 1 }, put live (by decide +kernel) (by decide +kernel) (by decide +kernel)⟩,
   ⟨_, 4095, put { live with staged := { os := [(4095, ost)] } } (by decide +kernel) (by decide +kernel) (by decide +kernel)⟩,
   ⟨_, { index := 0, ostream := 3, stream := 1, sel := 15, wait := 1, decimate := 1 },
       put { live with staged := { os := [(3, ost)], streams := [(1, strm .c37Udp)] } } (by decide +kernel) (by decide +kernel) (by decide +kernel)⟩,
   ⟨_, 1, 1048575, put live (by decide +kernel) (by decide +kernel) (by decide +kernel)⟩,
   ⟨_, 1, run live (by decide +kernel) (by decide +kernel)⟩,
   ⟨_, 3, summ 3, run { live with cur := { os := [(3, ost)] }, aln := { os := [(3, { last := some (summ 3) })] } } (by decide +kernel)
       (by decide +kernel)⟩,
   ⟨_, 5, 1, { ostream := 3, stream := 1, sel := 0, wait := true, decimate := false },
       run { live with cur := { membs := [(5, { ostream := 3, stream := 1, sel := 0, wait := true, decimate := false })] } } (by decide +kernel)
       (by decide +kernel)⟩,
   ⟨_,
       run { live with staged := { os := [(3, ost)], streams := [(1, strm .c37Udp)], membs := [(0, { ostream := 3, stream := 1, sel := 0, wait := true, decimate := false })] } } (by decide +kernel) (by decide +kernel)⟩⟩

/-- The hypotheses of `IngestEventsComplete` can be met, clause by clause. -/
theorem witness_IngestEventsComplete :
    (∃ port : Fin 12, ∃ m rest, canDo (.fwControlQueue port) (fun d => isLive d = true ∧ d.cmd.fwUp = true ∧ d.cmd.fwRestarting = false ∧
        (portOf d port).ctrlQ = m :: rest ∧ m.etype = 0x0806)) ∧
    (∃ port : Fin 12, ∃ m rest i, canDo (.fwControlQueue port) (fun d => isLive d = true ∧ d.cmd.fwUp = true ∧ d.cmd.fwRestarting = false ∧
        (portOf d port).ctrlQ = m :: rest ∧ m.etype ≠ 0x0806 ∧
          ipParse m.etype m.payload = .inr i)) ∧
    (∃ port : Fin 12, ∃ m rest i, canDo (.frameClassify port) (fun d => coreRuns d = true ∧ d.ing.quotaBp = false ∧
        (portOf d port).rxFifo = m :: rest ∧ ipParse m.etype m.payload = .inr i ∧
          i.proto = 17 ∧ (isOwnIp (ingCnt 0 (setPort d port { portOf d port with rxFifo := rest })) port i.v6 i.dst = true ∨
            isMcast i.v6 i.dst = true))) ∧
    (∃ k rest f q, canDo .frameDispatch (fun d => coreRuns d = true ∧ readyTasks true d = k :: rest ∧ (streamOf d k).queue = f :: q ∧
        alnRoom true d k = true)) ∧
    (∃ k rest f q, canDo .frameDispatch (fun d => coreRuns d = true ∧ readyTasks true d = [] ∧ readyTasks false d = k :: rest ∧
        (streamOf d k).queue = f :: q ∧
          alnRoom false d k = true)) ∧
    (∃ r, canDo (.internalFrameIn r) (fun d => coreRuns d = true ∧ isInternal d r.stream = true)) ∧
    (∃ c x rest, canDo (.fwFrameQueue c) (fun d => isLive d = true ∧ d.cmd.fwUp = true ∧ d.cmd.fwRestarting = false ∧ d.ing.fwQueue = x :: rest ∧
          x.frame.data.head? ≠ some 0xA1 ∧ beAt x.frame.data 0 2 / 16 % 16 = 1)) ∧
    (∃ ring : Fin 16, ∃ v, canDo (.rngHiTailWrite ring v) (fun d => isLive d = true)) ∧
    (∃ ring : Fin 16, ∃ x y, canDo (.hostDescFetch ring x true true) (fun d => coreRuns d = true ∧ hostTurn d = some ring.val ∧
        d.ing.quotaBp = false ∧
          d.gbl.linkUp = true ∧ 16 ≤ x.len.toNat ∧ x.stream.toNat < 262144 ∧ x.bits.toNat ≤ 1 ∧ x.reserved = 0 ∧
          mfind d.cur.streams x.stream.toNat = some y ∧ (y.kind = .hostC37 ∨ y.kind = .hostSv))) :=
  ⟨⟨11, rxf 0x0806 [], [], meet { live with ports := [(11, { ctrlQ := [rxf 0x0806 []] })] } (by decide +kernel)⟩,
   ⟨0, rxf 0x0800 ipv4, [], { v6 := false, src := mapped 0x0A000001, dst := mapped 0x0A000002, proto := 17, pay := ipv4.drop 20 },
    meet { live with ports := [(0, { ctrlQ := [rxf 0x0800 ipv4] })] } (by decide +kernel)⟩,
   ⟨0, rxf 0x0800 ipv4, [], { v6 := false, src := mapped 0x0A000001, dst := mapped 0x0A000002, proto := 17, pay := ipv4.drop 20 },
    meet { live with ports := [(0, { rxFifo := [rxf 0x0800 ipv4] })], ing := { addrs := [(addrKey 0 false 0, { addr := mapped 0x0A000002, plen := 24 })] } } (by decide +kernel)⟩,
   ⟨1, [], tskf [], [], meet { live with ing := { readyInt := [1], runs := [(1, { queue := [tskf []] })] } } (by decide +kernel)⟩,
   ⟨1, [], tskf [], [], meet { live with ing := { readyExt := [1], runs := [(1, { queue := [tskf []] })] } } (by decide +kernel)⟩,
   ⟨{ stream := 1, sec := 0, ns := 0, values := [0] }, meet { live with cur := { streams := [(1, strm .locl)] } } (by decide +kernel)⟩,
   ⟨{ differs := none }, { stream := some 1, frame := tskf [0xAA, 0x11] }, [],
       meet { live with ing := { fwQueue := [{ stream := some 1, frame := tskf [0xAA, 0x11] }] } } (by decide +kernel)⟩,
   ⟨15, 0, meet live (by decide +kernel)⟩,
   ⟨15, { addr := 0, len := 16, stream := 262143, bits := 1, tsSec := 0, tsNs := 0, tsFrac := 0, reserved := 0, frame := [] }, strm .hostSv,
    meet { live with ing := { hostRings := [(15, { run := true, head := 1 })] }, cur := { streams := [(262143, strm .hostSv)] } } (by decide +kernel)⟩⟩

/-- The hypotheses of `IngestCommandsComplete` can be met, clause by clause. -/
theorem witness_IngestCommandsComplete :
    (∃ h, ∃ p : StreamKeyP, let k := p.stream.toNat
          let q := p.quals.toNat
          let key : StreamKey :=
          { sv := p.kind = 1, disc := p.disc, dstPort := p.dstPort, srcAddr := p.srcAddr, dstAddr := p.dstAddr,
            qPort := if bit q 0 then some p.port.toNat else none, qVid := if bit q 1 then some p.vid.toNat else none,
            qSrc := if bit q 2 then some p.srcPort else none }
          canStageBy (.ingStreamKey h p) h 0x0401 p.bytes (fun d => k < 262144 ∧ q < 8 ∧ (if bit q 0 then p.port.toNat < 12 else p.port = 0) ∧
              (if bit q 1 then p.vid.toNat < 4095 else p.vid = 0) ∧
          (bit q 2 = false → p.srcPort = 0) ∧ p.kind.toNat ≤ 1 ∧
          (mfind d.staged.streams k).map StreamDef.kind = some (if p.kind = 1 then .svUdp else .c37Udp) ∧
          ∀ e ∈ d.staged.keys, e.1 ≠ k → ¬ (e.2.sv = key.sv ∧ e.2.disc = key.disc ∧ e.2.dstPort = key.dstPort ∧ e.2.srcAddr = key.srcAddr ∧
            e.2.dstAddr = key.dstAddr)) (fun _ => []) (fun _ => [keyStream k])) ∧
    (∃ h, ∃ p : StreamDefP, let k := p.stream.toNat
          canEnd (.ingStreamDef h p) h 0x0402 p.bytes false (fun d => streamDefBad p = false ∧ canStage [] [keyStream k] d)) ∧
    (∃ h, ∃ stream : BitVec 24, let k := stream.toNat
          canStageBy (.ingStreamRemove h stream) h 0x0403 (pk stream) (fun _ => k < 262144) (fun _ => []) (fun _ => [keyStream k])) ∧
    (∃ h, ∃ stream : BitVec 24, let k := stream.toNat
          canEnd (.ingStreamStatus h stream) h 0x0404 (pk stream) false (fun d => k < 262144 ∧ (mfind d.cur.streams k).isSome = true)) ∧
    (∃ h, ∃ stream : BitVec 24, let k := stream.toNat
          canEnd (.ingStreamRelease h stream) h 0x0405 (pk stream) false (fun d => k < 262144 ∧ (streamOf d k).held = true)) ∧
    (∃ h, ∃ p : IpAddrP, let v6 := decide (p.version = 6)
          let port := p.port.toNat
          let e := p.entry.toNat
          canEnd (.ingIpAddr h p) h 0x0406 p.bytes false (fun d => port < 12 ∧ (p.version = 4 ∨ p.version = 6) ∧ e < 4 ∧ p.enable.toNat ≤ 1 ∧
              p.plen.toNat ≤ (if v6 then 128 else 32) ∧
          isMcast v6 p.addr = false ∧ (v6 = false → p.addr.toNat / 2 ^ 32 = 0xFFFF) ∧
          (p.enable = 1 → ∀ i < 4, i ≠ e → ∀ y, mfind d.ing.addrs (addrKey port v6 i) = some y → y.addr ≠ p.addr))) ∧
    (∃ h, ∃ p : HostRingP, let r := p.ring.toNat
          canEnd (.ingHostRing h p) h 0x0407 p.bytes false (fun d => r < 16 ∧ isPow 6 16 p.size.toNat = true ∧ p.base.toNat % 64 = 0 ∧
              p.wb.toNat % 4 = 0 ∧ p.enable.toNat ≤ 1 ∧
          ((hostRing d r).run = true → (hostRing d r).head = (hostRing d r).tail))) ∧
    (∃ h, ∃ stream : BitVec 24, ∃ on off mask : W16, let k := stream.toNat
          canEnd (.ingStreamGate h stream on off mask) h 0x0408 (pk stream ++ pk on ++ pk off ++ pk mask) false (fun d => k < 262144 ∧
              on &&& off = 0)) ∧
    (∃ h, ∃ stream : BitVec 24, ∃ keyId : W32, ∃ slot : W16, ∃ kind, let k := stream.toNat
          canEnd (.ingStreamSigkey h stream 1 keyId slot kind) h 0x0420 (pk stream ++ [1] ++ pk keyId ++ pk slot ++ [kind])
              false (fun d => k < 262144 ∧ kind ≠ 0 ∧ kind.toNat ≤ 5 ∧ pipFault d slot.toNat 2 = none ∧ (streamOf d k).quar = false)) ∧
    (∃ h, ∃ stream : BitVec 24, ∃ keyId : W32, ∃ slot : W16, ∃ kind, let k := stream.toNat
          canEnd (.ingStreamSigkey h stream 0 keyId slot kind) h 0x0420 (pk stream ++ [0] ++ pk keyId ++ pk slot ++ [kind])
              false (fun d => k < 262144 ∧ kind ≠ 0 ∧ kind.toNat ≤ 5 ∧ pipFault d slot.toNat 2 = none ∧ (streamOf d k).quar = true ∧
          (streamOf d k).next = none)) :=
  ⟨⟨_, { stream := 262143, quals := 7, port := 11, vid := 4094, kind := 1, disc := 1, dstPort := 102, srcPort := 9, srcAddr := 1, dstAddr := 2 },
    put { live with staged := { streams := [(262143, strm .svUdp)] } } (by decide +kernel) (by decide +kernel) (by decide +kernel)⟩,
   ⟨_, { stream := 262143, kind := 0, version := 3, timeBase := 1000000, rate := 50, firstChan := 33554431, count := 1, blocks := 1, dataLen := 16, flags := 31, confRev := 0 }, run live (by decide +kernel) (by decide +kernel)⟩,
   ⟨_, 262143, put live (by decide +kernel) (by decide +kernel) (by decide +kernel)⟩,
   ⟨_, 262143, run { live with cur := { streams := [(262143, strm .c37Udp)] } } (by decide +kernel) (by decide +kernel)⟩,
   ⟨_, 1, run { live with ing := { runs := [(1, { held := true })] } } (by decide +kernel) (by decide +kernel)⟩,
   ⟨_, { port := 11, version := 4, entry := 3, enable := 1, addr := mapped 0x0A000002, plen := 32 }, run live (by decide +kernel)
       ⟨(by decide +kernel), (by decide +kernel), (by decide +kernel), (by decide +kernel), (by decide +kernel), (by decide +kernel),
       (by decide +kernel), fun _ i _ _ y hy => nomatch (show none = some y from hy)⟩⟩,
   ⟨_, { ring := 15, base := 64, size := 65536, wb := 4, enable := 1 }, run live (by decide +kernel) (by decide +kernel)⟩,
   ⟨_, 262143, 0xFF, 0xFF00, 0, run live (by decide +kernel) (by decide +kernel)⟩,
   ⟨_, 262143, 1, 5, 5, run (withPip 2 live) (by decide +kernel) (by decide +kernel)⟩,
   ⟨_, 1, 1, 5, 1, run (withPip 2 { live with ing := { runs := [(1, { quar := true })] } }) (by decide +kernel) (by decide +kernel)⟩⟩

/-- The hypotheses of `DirectoryCommandsComplete` can be met, clause by clause. -/
theorem witness_DirectoryCommandsComplete :
    (∃ h, ∃ chan : W32, ∃ e, canEnd (.dirWrite h chan e) h 0x0410 (pk chan ++ e.bytes) false (fun d => chan.toNat < 33554432 ∧
        writeFault e = none ∧ canStage [chan.toNat] [] d)) ∧
    (∃ h p, canEnd (.dirLoad h p) h 0x0411 (p.bytes false) (p.source = 0) (fun d => d.clk.pending = none ∧ p.source.toNat ≤ 1 ∧ p.count ≠ 0 ∧
        p.first.toNat + p.count.toNat ≤ 33554432 ∧
          (p.source = 1 → h.chan = 24 ∧ (replaySection d p.addr.toNat).isSome = true))) ∧
    (∃ l : LoadRun, ∃ rest data, let f := l.p.first.toNat
          let n := 32 * l.p.count.toNat
          let es (d : Dev) := (chunksOf 32 l.p.count.toNat (cut (loadData d l data) 0 n)).map dirEntryOf
          canDo (.dirLoadDone data true) (fun d => isLive d = true ∧ d.dir.loads = l :: rest ∧ l.conflict = false ∧ (l.p.source = 1 →
              n ≤ (loadData d l data).length) ∧
          crc32 (cut (loadData d l data) 0 n) = l.p.crc.toNat ∧ (∀ e ∈ es d, writeFault e = none) ∧ canStage (rangeFrom f (es d).length) [] d)) ∧
    (∃ h, ∃ first count : W32, canEnd (.dirClear h first count) h 0x0412 (pk first ++ pk count) false (fun d => count.toNat ≠ 0 ∧
        first.toNat + count.toNat ≤ 33554432 ∧ canStage (rangeFrom first.toNat count.toNat) [] d)) ∧
    (∃ h, ∃ chan : W32, ∃ gsel, canEnd (.dirRead h chan gsel) h 0x0413 (pk chan ++ [gsel]) false (fun _ => chan.toNat < 33554432 ∧ gsel.toNat ≤ 1)) ∧
    (∃ h, ∃ index : W16, ∃ e, canStageBy (.dirScaleWrite h index e) h 0x0414 (pk index ++ e.bytes) (fun _ => index ≠ 0 ∧ e.res = 0 ∧
        e.flags.toNat ≤ 1 ∧ f64Fin e.k = true ∧ (f64Q e.k).1 ≠ 0 ∧ f64Fin e.b = true ∧ f32Fin e.theta0 = true) (fun _ => [2 ^ 25 + index.toNat])
        (fun _ => [])) ∧
    (∃ h, ∃ first count : W32, canEnd (.dirValidate h first count) h 0x0415 (pk first ++ pk count) false (fun d => first.toNat < 33554432 ∧
        first.toNat + count.toNat ≤ 33554432 ∧
          ∀ e ∈ d.staged.dir, (count.toNat = 0 ∨ (first.toNat ≤ e.1 ∧ e.1 < first.toNat + count.toNat)) → rowFaults d.staged e.1 = [])) ∧
    (∃ h, canEnd (.dirStatus h) h 0x0416 [] false (fun _ => True)) ∧
    (∃ path v w, canDo (.dirWinIdxWrite path v) (fun d => isLive d = true ∧ dirWinOf d path = some w)) ∧
    (∃ path w, ∃ v : W32, canDo (.dirWinFetchDone path) (fun d => isLive d = true ∧ dirWinOf d path = some w ∧ w.fetch = some (v, false) ∧
        bit v.toNat 30 = false)) :=
  ⟨⟨_, 33554431, ent0, run live (by decide +kernel) (by decide +kernel)⟩,
   ⟨_, { source := 0, addr := 0, table := 0, first := 33554431, count := 1, crc := 0 }, run live (by decide +kernel) (by decide +kernel)⟩,
   ⟨{ chan := 20, seq := 7, p := { source := 0, addr := 0, table := 0, first := 33554431, count := 1, crc := 0x190A55AD }, conflict := false }, [],
       List.replicate 32 0,
    meet { live with dir := { loads := [{ chan := 20, seq := 7, p := { source := 0, addr := 0, table := 0, first := 33554431, count := 1, crc := 0x190A55AD }, conflict := false }] } } (by decide +kernel)⟩,
   ⟨_, 33554431, 1, run live (by decide +kernel) (by decide +kernel)⟩,
   ⟨_, 33554431, 1, run live (by decide +kernel) (by decide +kernel)⟩,
   ⟨_, 65535, { k := 0x3FF0000000000000, b := 0, theta0 := 0, mask := 0, flags := 1, res := 0, const := 0 }, put live (by decide +kernel)
       (by decide +kernel) (by decide +kernel)⟩,
   ⟨_, 33554431, 1, run live (by decide +kernel) (by decide +kernel)⟩,
   ⟨_, run live (by decide +kernel) trivial⟩,
   ⟨.lb, 1, {}, meet live (by decide +kernel)⟩,
   ⟨.pf0, { fetch := some (5, false) }, 5, meet { live with dir := { winPf0 := { fetch := some (5, false) } } } (by decide +kernel)⟩⟩

/-- The hypotheses of `PortEventsComplete` can be met, clause by clause. -/
theorem witness_PortEventsComplete :
    (∃ port : Fin 12, ∃ f cls, canDo (.frameReceive port f) (fun d => let x := portOf d port
          isLive d = true ∧ x.link = .up ∧ x.rxFill + storeBound x ≤ rxSize port ∧ f.lineOk = true ∧ 64 ≤ f.bytes.length ∧
          f.bytes.length ≤ storeBound x ∧ crc32 (f.bytes.take (f.bytes.length - 4)) = leAt f.bytes (f.bytes.length - 4) 4 ∧
          daClass (fecCount port f.fecCorr f.fecBad d) port (BitVec.ofNat 48 (beAt f.bytes 0 6)) = some cls ∧ beAt f.bytes 12 2 ≠ 0x8808)) ∧
    (∃ port : Fin 12, ∃ f cls, canDo (.frameReceive port f) (fun d => let x := portOf d port
          isLive d = true ∧ x.link = .up ∧ x.rxFill + storeBound x ≤ rxSize port ∧ f.lineOk = true ∧ 64 ≤ f.bytes.length ∧
          f.bytes.length ≤ storeBound x ∧ crc32 (f.bytes.take (f.bytes.length - 4)) = leAt f.bytes (f.bytes.length - 4) 4 ∧
          daClass (fecCount port f.fecCorr f.fecBad d) port (BitVec.ofNat 48 (beAt f.bytes 0 6)) = some cls ∧ beAt f.bytes 12 2 = 0x8808 ∧
              beAt f.bytes 14 2 = 1)) ∧
    (∃ port : Fin 12, ∃ q : W16, canDo (.pauseDelivered port) (fun d => isLive d = true ∧ (portOf d port).pauseIn = some q ∧
        (pauseLeft d (portOf d port) ≠ 0 ∨ q = 0))) ∧
    (∃ port : Fin 12, ∃ q : W16, canDo (.pauseDelivered port) (fun d => isLive d = true ∧ (portOf d port).pauseIn = some q ∧
        pauseLeft d (portOf d port) = 0 ∧ q ≠ 0)) ∧
    (∃ port : Fin 12, canDo (.pauseTimerExpiry port) (fun d => isLive d = true ∧ pauseLeft d (portOf d port) = 0)) ∧
    (∃ port : Fin 12, canDo (.pauseTimerExpiry port) (fun d => isLive d = true ∧ pauseLeft d (portOf d port) ≠ 0 ∧
        modeRate (portOf d port).mode ≠ 0)) ∧
    (∃ port : Fin 12, ∃ f rest, canDo (.frameTransmit port) (fun d => isLive d = true ∧ portUp d port = true ∧ d.hrd.role ≠ .fenced ∧
        (portOf (txFetch port d) port).txBuf = f :: rest ∧
          pauseLeft (txFetch port d) (portOf (txFetch port d) port) = 0 ∧ launchOnWire (txFetch port d) port = false ∧
          reservedFor (txFetch port d) port f.bytes = false)) ∧
    (∃ port : Fin 12, ∃ fecLock anDone partner, canDo (.portLinkUp port fecLock anDone partner) (fun d => isLive d = true ∧
        (portOf d port).mode ≠ 0 ∧ (portOf d port).link ≠ .up ∧ d.hrd.role ≠ .fenced ∧
          (port.val < 8 → d.pwr.run ≠ .dormant ∧ d.pwr.run ≠ .waking))) ∧
    (∃ port : Fin 12, ∃ entered cut, canDo (.portLinkDown port entered cut) (fun d => isLive d = true ∧ (portOf d port).link = .up ∧ entered ≠ .up)) ∧
    (∃ port : Fin 12, ∃ codewords : W32, canDo (.portHighBer port codewords) (fun d => isLive d = true)) :=
  ⟨⟨0, bcast, 2, meet { live with ports := [(0, { mode := 1, link := .up })] } (by decide +kernel)⟩,
   ⟨11, pauseF, 1, meet { live with ports := [(11, { mode := 8, link := .up })] } (by decide +kernel)⟩,
   ⟨3, 0, meet { live with ports := [(3, { pauseIn := some 0 })] } (by decide +kernel)⟩,
   ⟨3, 1, meet { live with ports := [(3, { pauseIn := some 1 })] } (by decide +kernel)⟩,
   ⟨11, meet live (by decide +kernel)⟩,
   ⟨11, meet { live with ports := [(11, { mode := 8, pause := 1 })] } (by decide +kernel)⟩,
   ⟨0, txf, [], meet { live with ports := [(0, { mode := 1, link := .up, txBuf := [txf] })] } (by decide +kernel)⟩,
   ⟨7, true, true, 0, meet { live with ports := [(7, { mode := 5, link := .training })] } (by decide +kernel)⟩,
   ⟨11, .down, { rx := true, tx := some 32 }, meet { live with ports := [(11, { mode := 10, link := .up })] } (by decide +kernel)⟩,
   ⟨7, 1, meet { live with ports := [(7, { mode := 3, link := .up })] } (by decide +kernel)⟩⟩

/-- The hypotheses of `PortCommandsComplete` can be met, clause by clause. -/
theorem witness_PortCommandsComplete :
    (∃ h, ∃ p : PortConfigP, ∃ cut, let n := p.port.toNat
          let f (x : Port) : Port := { x with
          mode := p.mode.toNat, fec := p.fec = 1, an := p.an = 1, polarity := p.polarity, maxLen := p.maxLen.toNat, pauseOn := p.pause = 1,
          arpTags := p.arpTags.toNat, arpTpid := p.arpTpid, arpOuter := p.arpOuter, arpInner := p.arpInner }
          canEnd (.portConfig h p cut) h 0x0301 p.bytes false (fun d => let x := portOf d n
          portBad p.port = false ∧ modeOk n p.mode.toNat = true ∧ p.an.toNat ≤ 1 ∧ p.fec.toNat ≤ 1 ∧ p.polarity.toNat < 16 ∧
          1518 ≤ p.maxLen.toNat ∧ p.maxLen.toNat ≤ 9216 ∧ p.pause.toNat ≤ 1 ∧ p.arpTags.toNat ≤ 2 ∧ p.arpTpid.toNat ≤ 2 ∧
          x.mode = p.mode.toNat ∧ x.fec = decide (p.fec = 1) ∧ x.an = decide (p.an = 1) ∧ x.polarity = p.polarity)) ∧
    (∃ h, ∃ p : PortConfigP, ∃ cut, let n := p.port.toNat
          let f (x : Port) : Port := { x with
          mode := p.mode.toNat, fec := p.fec = 1, an := p.an = 1, polarity := p.polarity, maxLen := p.maxLen.toNat, pauseOn := p.pause = 1,
          arpTags := p.arpTags.toNat, arpTpid := p.arpTpid, arpOuter := p.arpOuter, arpInner := p.arpInner }
          canEnd (.portConfig h p cut) h 0x0301 p.bytes false (fun d => let x := portOf d n
          portBad p.port = false ∧ modeOk n p.mode.toNat = true ∧ p.an.toNat ≤ 1 ∧ p.fec.toNat ≤ 1 ∧ p.polarity.toNat < 16 ∧
          1518 ≤ p.maxLen.toNat ∧ p.maxLen.toNat ≤ 9216 ∧ p.pause.toNat ≤ 1 ∧ p.arpTags.toNat ≤ 2 ∧ p.arpTpid.toNat ≤ 2 ∧
          x.mode ≠ p.mode.toNat ∧ x.link ≠ .up)) ∧
    (∃ h, ∃ p : PortConfigP, ∃ cut, let n := p.port.toNat
          let f (x : Port) : Port := { x with
          mode := p.mode.toNat, fec := p.fec = 1, an := p.an = 1, polarity := p.polarity, maxLen := p.maxLen.toNat, pauseOn := p.pause = 1,
          arpTags := p.arpTags.toNat, arpTpid := p.arpTpid, arpOuter := p.arpOuter, arpInner := p.arpInner }
          canEnd (.portConfig h p cut) h 0x0301 p.bytes false (fun d => let x := portOf d n
          portBad p.port = false ∧ modeOk n p.mode.toNat = true ∧ p.an.toNat ≤ 1 ∧ p.fec.toNat ≤ 1 ∧ p.polarity.toNat < 16 ∧
          1518 ≤ p.maxLen.toNat ∧ p.maxLen.toNat ≤ 9216 ∧ p.pause.toNat ≤ 1 ∧ p.arpTags.toNat ≤ 2 ∧ p.arpTpid.toNat ≤ 2 ∧
          x.mode ≠ p.mode.toNat ∧ x.link = .up)) ∧
    (∃ h, ∃ port : Byte, ∃ addr : W48, ∃ mcast promisc, canEnd (.portAddr h port addr mcast promisc)
        h 0x0302 (pk port ++ pk addr ++ pk mcast ++ pk promisc) false (fun _ => portBad port = false ∧ bit addr.toNat 40 = false ∧
        mcast.toNat ≤ 1 ∧ promisc.toNat ≤ 1)) ∧
    (∃ h, ∃ port first : Byte, ∃ addrs : List W48, canEnd (.portMcastList h port first addrs)
        h 0x0303 (pk port ++ pk first ++ [BitVec.ofNat 8 addrs.length] ++ (addrs.map pk).flatten) false (fun _ => portBad port = false ∧
        addrs ≠ [] ∧ addrs.length ≤ 7 ∧ first.toNat + addrs.length ≤ 64)) ∧
    (∃ h, ∃ p : VlanFilterP, let a := p.firstVid.toNat
          let b := p.lastVid.toNat
          canEnd (.portVlanFilter h p) h 0x0304 p.bytes false (fun _ => portBad p.port = false ∧ p.untagged.toNat ≤ 1 ∧ b < 4095 ∧ a ≤ b ∧
              p.extraTpid ≠ 0x8100 ∧ p.extraTpid ≠ 0x88A8 ∧ p.set.toNat ≤ 1)) ∧
    (∃ h, ∃ port : Byte, ∃ rx tx : W48, canEnd (.portTsAdj h port rx tx) h 0x0305 (pk port ++ pk rx ++ pk tx)
        false (fun _ => portBad port = false ∧ rx.toInt.natAbs ≤ 100000 * 65536 ∧ tx.toInt.natAbs ≤ 100000 * 65536)) ∧
    (∃ h, ∃ port : Byte, canEnd (.portStatus h port) h 0x0306 (pk port) false (fun _ => portBad port = false)) ∧
    (∃ h, ∃ p : MacsecConfigP, canEnd (.portMacsecConfig h p) h 0x0310 p.bytes false (fun _ => portBad p.port = false ∧ p.enable.toNat ≤ 1 ∧
        p.conf.toNat ≤ 1 ∧ p.sci.toNat ≤ 1 ∧ p.ptpClear.toNat ≤ 1 ∧ p.replay.toNat ≤ 2 ^ 30)) ∧
    (∃ h, ∃ p : MacsecSaP, let n := p.port.toNat
          canEnd (.portMacsecSa h p) h 0x0311 p.bytes false (fun d => portBad p.port = false ∧ p.dir = 0 ∧ p.an.toNat ≤ 3 ∧ p.install = 1 ∧
              p.sc.toNat = 0 ∧ pipFault d p.slot.toNat 1 = none ∧
          ((mfind (portOf d n).txSas p.an.toNat).isSome = true ∨ (portOf d n).txSas.length < 2))) ∧
    (∃ h, ∃ p : MacsecSaP, let n := p.port.toNat
          canEnd (.portMacsecSa h p) h 0x0311 p.bytes false (fun d => portBad p.port = false ∧ p.dir = 1 ∧ p.an.toNat ≤ 3 ∧ p.install = 1 ∧
              p.sc.toNat < (if n < 8 then 32 else 8) ∧
          pipFault d p.slot.toNat 2 = none)) ∧
    (∃ h, ∃ port an : Byte, canEnd (.portMacsecTxAn h port an) h 0x0312 (pk port ++ pk an) false (fun d => portBad port = false ∧
        (mfind (portOf d port.toNat).txSas an.toNat).isSome = true)) :=
  ⟨⟨_, { port := 11, mode := 0, fec := 0, an := 1, polarity := 0, maxLen := 9216, pause := 1, arpTags := 2, arpTpid := 2, arpOuter := 0, arpInner := 0 }, { rx := false, tx := none }, run live (by decide +kernel) (by decide +kernel)⟩,
   ⟨_, { port := 0, mode := 5, fec := 1, an := 1, polarity := 15, maxLen := 1518, pause := 0, arpTags := 0, arpTpid := 0, arpOuter := 0, arpInner := 0 }, { rx := false, tx := none }, run live (by decide +kernel) (by decide +kernel)⟩,
   ⟨_, { port := 0, mode := 5, fec := 1, an := 1, polarity := 15, maxLen := 1518, pause := 0, arpTags := 0, arpTpid := 0, arpOuter := 0, arpInner := 0 }, { rx := true, tx := none },
       run { live with ports := [(0, { mode := 1, link := .up })] } (by decide +kernel) (by decide +kernel)⟩,
   ⟨_, 11, 0xFEFFFFFFFFFF, 1, 1, run live (by decide +kernel) (by decide +kernel)⟩,
   ⟨_, 11, 57, [1, 2, 3, 4, 5, 6, 7], run live (by decide +kernel) (by decide +kernel)⟩,
   ⟨_, { port := 11, untagged := 1, extraTpid := 0x9100, firstVid := 0, lastVid := 4094, set := 1 }, run live (by decide +kernel)
       (by decide +kernel)⟩,
   ⟨_, 11, BitVec.ofInt 48 (-6553600000), 6553600000, run live (by decide +kernel) (by decide +kernel)⟩,
   ⟨_, 11, run live (by decide +kernel) (by decide +kernel)⟩,
   ⟨_, { port := 11, enable := 1, conf := 1, sci := 1, ptpClear := 1, replay := 1073741824 }, run live (by decide +kernel) (by decide +kernel)⟩,
   ⟨_, { port := 11, dir := 0, sc := 0, sci := 1, an := 3, slot := 5, ssci := 0, pn := 1, install := 1 }, run (withPip 1 live) (by decide +kernel)
       (by decide +kernel)⟩,
   ⟨_, { port := 11, dir := 1, sc := 7, sci := 1, an := 3, slot := 5, ssci := 0, pn := 1, install := 1 }, run (withPip 2 live) (by decide +kernel)
       (by decide +kernel)⟩,
   ⟨_, 11, 3, run { live with ports := [(11, { txSas := [(3, { slot := 5, ssci := 0, pn := 1 })] })] } (by decide +kernel) (by decide +kernel)⟩⟩

/-- The hypotheses of `PublishingEventsComplete` can be met, clause by clause. -/
theorem witness_PublishingEventsComplete :
    (∃ ring : Fin 32, ∃ x l, canDo (.ringRecordWrite ring) (fun d => isLive d = true ∧ (ringOf d ring).part = some (x, l) ∧
        (ringOf d ring).en = true ∧ (ringOf d ring).run = true ∧
          d.gbl.linkUp = true ∧ d.gbl.pf0.d3hot = false)) ∧
    (∃ ring : Fin 32, canDo (.ringRecordWrite ring) (fun d => isLive d = true ∧ (ringOf d ring).part = none ∧ ringWrites d ring = true ∧
        (mget [] d.pub.feeders ring.val) ≠ [] ∧
          ringWrites (writeGap ring d) ring = true)) ∧
    (∃ ring : Fin 32, ∃ v, canDo (.rngDlHeadWrite ring v) (fun d => isLive d = true)) ∧
    (∃ q : Fin 77, canDo (.queueStale q) (fun d => isLive d = true ∧ q.val < 32)) ∧
    (∃ q : Fin 77, canDo (.queueStale q) (fun d => isLive d = true ∧ 32 ≤ q.val ∧ q.val < 44)) ∧
    (∃ q : Fin 77, canDo (.queueStale q) (fun d => isLive d = true ∧ 44 ≤ q.val ∧ q.val < 76)) ∧
    (canDo (.queueStale 76) (fun d => isLive d = true)) :=
  ⟨⟨31, hrec 4, [], meet { live with pub := { rings := [(31, { en := true, run := true, part := some (hrec 4, []) })] } } (by decide +kernel)⟩,
   ⟨31, meet { live with pub := { rings := [(31, { en := true, run := true })], feeders := [(31, [hrec 4])] } } (by decide +kernel)⟩,
   ⟨31, 0, meet live (by decide +kernel)⟩,
   ⟨31, meet live (by decide +kernel)⟩,
   ⟨43, meet live (by decide +kernel)⟩,
   ⟨75, meet live (by decide +kernel)⟩,
   meet live (by decide +kernel)⟩

/-- The hypotheses of `PublishingCommandsComplete` can be met, clause by clause. -/
theorem witness_PublishingCommandsComplete :
    (∃ h, ∃ src : BlockSrc, ∃ block, let fmt := fun d => ostreamFmtOf (paramBytes h src 64 block d)
          canEnd (.pubOstreamFmt h src block) h 0x0510 (BlockSrc.bytes src) (src.kind = 0) (fun d => blockFits src h 64 ∧ fmtBad (fmt d) = false ∧
              canStage [] [keyOstream (fmt d).ostream.toNat] d)) ∧
    (∃ h, ∃ src : BlockSrc, ∃ block, let tpl := fun d => templateOf (paramBytes h src 80 block d)
          canEnd (.pubTemplate h src block) h 0x0511 (BlockSrc.bytes src) (src.kind = 0) (fun d => blockFits src h 80 ∧ templateBad (tpl d)
              = false ∧ templateRefused d (tpl d) = false ∧ canStage [] [] d)) ∧
    (∃ h, ∃ template : W16, canEnd (.pubTemplateRemove h template) h 0x0512 (pk template) false (fun d => template.toNat < 16384 ∧
        canStage [] [] d)) ∧
    (∃ h, ∃ ostream shard : W16, ∃ kind, ∃ addr : W64, ∃ len : W16, ∃ image, let k := imgKey ostream.toNat shard.toNat kind.toNat
          canEnd (.pubCfgImage h ostream shard kind addr len image true) h 0x0513 (pk ostream ++ pk shard ++ [kind] ++ pk addr ++ pk len)
              true (fun d => ostream.toNat < 4096 ∧ kind.toNat ≤ 3 ∧ len ≠ 0 ∧
          imageBytes { d.staged with images := mdel d.staged.images k } + len.toNat ≤ 2 ^ 28 ∧ canStage [] [] d)) ∧
    (∃ h, ∃ p : RingP, let r := p.ring.toNat
          canEnd (.pubRing h p) h 0x0514 p.bytes (p.enable = 1) (fun d => p.enable = 1 ∧ r < 32 ∧ p.base.toNat % 4096 = 0 ∧ 6 ≤ p.log2.toNat ∧
              p.log2.toNat ≤ 24 ∧ p.wb.toNat % 4 = 0 ∧ p.watermark ≠ 0 ∧
          p.staleT.toNat ≤ 1000000 ∧ ((ringOf d r).en = false ∨ (ringOf d r).run = false))) ∧
    (∃ h, ∃ p : RingP, let r := p.ring.toNat
          canEnd (.pubRing h p) h 0x0514 p.bytes (p.enable = 1) (fun _ => p.enable = 0 ∧ r < 32 ∧ p.base.toNat % 4096 = 0 ∧ 6 ≤ p.log2.toNat ∧
          p.log2.toNat ≤ 24 ∧ p.wb.toNat % 4 = 0 ∧ p.watermark ≠ 0 ∧ p.staleT.toNat ≤ 1000000)) ∧
    (∃ h, ∃ type ring : Byte, canEnd (.pubRoute h type ring) h 0x0515 [type, ring] false (fun _ => 4 ≤ type.toNat ∧ type.toNat ≤ 8 ∧
        ringNumBad ring = false)) ∧
    (∃ h, ∃ queue : Byte, ∃ limit : W32, ∃ watermark : W16, ∃ staleT : W32, let q := queue.toNat
          let reserve := if q < 32 then 4096 else 8192
          canEnd (.pubQueueParams h queue limit watermark staleT) h 0x0516 ([queue] ++ pk limit ++ pk watermark ++ pk staleT)
              false (fun _ => q < 44 ∧ reserve ≤ limit.toNat ∧ limit.toNat ≤ reserve + 438272 ∧ watermark ≠ 0 ∧ staleT.toNat ≤ 1000000)) ∧
    (∃ h, ∃ tMax : W32, ∃ plan, canEnd (.pubHistPlan h tMax) h 0x0517 (pk tMax) false (fun d => d.clk.pending = none ∧
        histPlan d.staged tMax.toNat = some plan)) ∧
    (∃ h, ∃ group : W32, ∃ sec : W48, ∃ tick : W16, ∃ count : W32, ∃ addr : W64, ∃ g, let step := periodTicks g.rate
          let block := fun (d : Dev) i => mfind d.pub.hist (histPos g (BitVec.ofNat 48 ((tickOrd sec tick.toNat + i * step) / 3600))
          ((tickOrd sec tick.toNat + i * step) % 3600))
          canEnd (.pubHistRead h group sec tick count addr) h 0x0518 (pk group ++ pk sec ++ pk tick ++ pk count ++ pk addr)
              true (fun d => ((d.cur.hist.map HistPlan.groups).getD [])[group.toNat]? = some g ∧ tick.toNat < 3600 ∧ tick.toNat % step = 0 ∧
              count ≠ 0)) ∧
    (∃ h, ∃ template : W16, let t := template.toNat
          canEnd (.pubTemplateStatus h template) h 0x0519 (pk template) false (fun _ => t < 16384)) ∧
    (∃ h, ∃ p : SigKeyP, canEnd (.pubTemplateSigkey h p) h 0x0520 p.bytes false (fun d => p.index.toNat < 16384 ∧ p.binding.toNat ≤ 1 ∧
        p.swap.toNat ≤ 1 ∧ pipFault d p.slot.toNat 1 = none)) :=
  ⟨⟨_, hostBlock 64, fmt3, run live (by decide +kernel) (by decide +kernel)⟩,
   ⟨_, hostBlock 80, tpl3,
       run { live with ing := { addrs := [(addrKey 0 false 3, { addr := mapped 0x0A000001, plen := 24 })] } } (by decide +kernel) (by decide +kernel)⟩,
   ⟨_, 16383, run live (by decide +kernel) (by decide +kernel)⟩,
   ⟨_, 4095, 0, 3, 64, 1, [0], run live (by decide +kernel) (by decide +kernel)⟩,
   ⟨_, { ring := 31, base := 4096, log2 := 24, wb := 4, watermark := 1, staleT := 1000000, enable := 1 }, run live (by decide +kernel)
       (by decide +kernel)⟩,
   ⟨_, { ring := 31, base := 4096, log2 := 24, wb := 4, watermark := 1, staleT := 1000000, enable := 0 }, run live (by decide +kernel)
       (by decide +kernel)⟩,
   ⟨_, 8, 255, run live (by decide +kernel) (by decide +kernel)⟩,
   ⟨_, 43, 446464, 1, 1000000, run live (by decide +kernel) (by decide +kernel)⟩,
   ⟨_, 0, { tH := 0, groups := [] }, run live (by decide +kernel) (by decide +kernel)⟩,
   ⟨_, 0, 0, 3599, 1, 64, { stream := 1, rate := 3600, chans := [0], base := 0, depth := 1 },
       run { live with cur := { hist := some { tH := 1, groups := [{ stream := 1, rate := 3600, chans := [0], base := 0, depth := 1 }] } } } (by decide +kernel) (by decide +kernel)⟩,
   ⟨_, 16383, run live (by decide +kernel) (by decide +kernel)⟩,
   ⟨_, { key0 1 with index := 16383 }, run (withPip 1 live) (by decide +kernel) (by decide +kernel)⟩⟩

/-- The hypotheses of `AlarmCommandsComplete` can be met, clause by clause. -/
theorem witness_AlarmCommandsComplete :
    (∃ w rest, canDo .gazelleLaneStart (fun d => coreRuns d = true ∧ d.alm.gzQueue = w :: rest ∧ nowNs d ≤ w.since + 812)) ∧
    (∃ w rest, canDo .gazelleLaneStart (fun d => coreRuns d = true ∧ d.alm.gzQueue = w :: rest ∧ w.since + 812 < nowNs d)) ∧
    (∃ t : Fin 256, ∃ g, canDo (.gooseRepeat t) (fun d => coreRuns d = true ∧ mfind d.alm.goose t.val = some g ∧ leAt g.desc 0 1 = 1)) ∧
    (∃ pin : Fin 16, canDo (.alarmPinMinWidth pin) (fun d => coreRuns d = true ∧ (pinOf d pin).running = true)) ∧
    (∃ v, canDo (.almForceWrite v) (fun d => isLive d = true)) ∧
    (∃ h, ∃ cls : W16, ∃ entry, let b := cut entry 0 32
          canStageBy (.almLimitWrite h cls entry) h 0x0630 (pk cls ++ b) (fun _ => cls ≠ 0 ∧ limitClassBad b = false) (fun _ => [])
              (fun _ => [3 * 2 ^ 24 + cls.toNat])) ∧
    (∃ h, ∃ source : Byte, ∃ pins : W16, ∃ goose latch : Byte, canEnd (.almMap h source pins goose latch)
        h 0x0631 (pk source ++ pk pins ++ pk goose ++ pk latch) false (fun _ => engSource source.toNat = true ∧ latch.toNat ≤ 1)) ∧
    (∃ h, ∃ p : AlmPinP, let n := p.pin.toNat
          canEnd (.almPinConfig h p) h 0x0632 p.bytes false (fun _ => n ≤ 15 ∧ p.enable.toNat ≤ 1 ∧ p.drive.toNat ≤ 1 ∧ p.active.toNat ≤ 1 ∧
              p.width.toNat ≤ 1000000)) ∧
    (∃ h, ∃ kind : Byte, ∃ which : W32, canEnd (.almAck h kind which) h 0x0633 (pk kind ++ pk which) false (fun _ => kind.toNat ≤ 2 ∧ (kind = 0 →
        which.toNat < 33554432) ∧ (kind = 1 → which.toNat < 128))) ∧
    (∃ h, ∃ template : Byte, ∃ addr : W64, ∃ desc, canEnd (.almGoose h template addr desc true) h 0x0634 (pk template ++ pk addr)
        true (fun d => gooseBad d (cut desc 0 512) = false)) ∧
    (∃ h, ∃ p : SigKeyP, ∃ g, let t := p.index.toNat
          canEnd (.almGooseSigkey h p) h 0x0635 (leBytes 1 t ++ pk p.binding ++ pk p.keyId ++ pk p.slot ++ pk p.timeOfKey ++ pk p.timeToNext ++ pk p.swap) false (fun d => mfind d.alm.goose t = some g ∧ pipFault d p.slot.toNat 1 = none ∧ p.binding.toNat ≤ 1 ∧ p.swap.toNat ≤ 1)) ∧
    (∃ h, ∃ which : W32, canEnd (.almStatus h 0 which) h 0x0636 (pk (0 : Byte) ++ pk which) false (fun _ => which.toNat < 33554432)) ∧
    (∃ h, ∃ which : W32, canEnd (.almStatus h 1 which) h 0x0636 (pk (1 : Byte) ++ pk which) false (fun _ => which.toNat < 128)) :=
  ⟨⟨{ record := rcrd 0, since := 0 }, [],
       meet { live with alm := { gzQueue := [{ record := rcrd 0, since := 0 }] }, tod := { ns := 812 } } (by decide +kernel)⟩,
   ⟨{ record := rcrd 0, since := 0 }, [],
       meet { live with alm := { gzQueue := [{ record := rcrd 0, since := 0 }] }, tod := { ns := 813 } } (by decide +kernel)⟩,
   ⟨255, { desc := [1], members := [] }, meet { live with alm := { goose := [(255, { desc := [1], members := [] })] } } (by decide +kernel)⟩,
   ⟨15, meet { live with alm := { pins := [(15, { running := true })] } } (by decide +kernel)⟩,
   ⟨0xFFFF, meet live (by decide +kernel)⟩,
   ⟨_, 65535, laid 32 [(24, 1, 4), (25, 1, 31), (26, 2, 0x0101)], put live (by decide +kernel) (by decide +kernel) (by decide +kernel)⟩,
   ⟨_, 114, 0xFFFF, 255, 1, run live (by decide +kernel) (by decide +kernel)⟩,
   ⟨_, { pin := 15, enable := 1, drive := 1, active := 1, width := 1000000 }, run live (by decide +kernel) (by decide +kernel)⟩,
   ⟨_, 1, 127, run live (by decide +kernel) (by decide +kernel)⟩,
   ⟨_, 255, 64, gooseBlock,
       run { live with ing := { addrs := [(addrKey 0 false 3, { addr := mapped 0x0A000001, plen := 24 })] } } (by decide +kernel) (by decide +kernel)⟩,
   ⟨_, key0 1, { desc := [1], members := [] }, run (withPip 1 { live with alm := { goose := [(0, { desc := [1], members := [] })] } })
       (by decide +kernel) (by decide +kernel)⟩,
   ⟨_, 33554431, run live (by decide +kernel) (by decide +kernel)⟩,
   ⟨_, 127, run live (by decide +kernel) (by decide +kernel)⟩⟩

/-- The hypotheses of `EstimatorCommandsComplete` can be met, clause by clause. -/
theorem witness_EstimatorCommandsComplete :
    (∃ r rest, canDo .estSlotStart (fun d => engRuns d = true ∧ d.est.working = none ∧ d.est.notices = r :: rest ∧ ∀ f, d.est.ready = some f →
        r.summary.gen ≠ f.gen)) ∧
    (∃ r : Record, ∃ rest, ∃ f : Factor, canDo .estSlotStart (fun d => engRuns d = true ∧ d.est.working = none ∧ d.est.notices = r :: rest ∧
        d.est.ready = some f ∧ r.summary.gen = f.gen)) ∧
    (∃ r : Record, ∃ g, canDo .estSlotDelivered (fun d => engRuns d = true ∧ d.est.working = some r ∧
        genByNum { d with est := { d.est with working := none } } r.summary.gen = some g)) ∧
    (∃ f, canDo .estRefactorDone (fun d => engRuns d = true ∧ d.est.running = some f ∧ f.prep = false ∧ f.gen = d.clk.gen)) ∧
    (∃ f, canDo .estPreparationDone (fun d => engRuns d = true ∧ d.est.running = some f ∧ f.prep = true ∧ f.gen ≠ d.clk.gen)) ∧
    (∃ h, ∃ p : EstConfigP, let c := estConfigOf p
          canStageBy (.estConfig h p) h 0x0601 p.bytes (fun d => estConfigBad p = false ∧
          rateBad d.staged c.ostream = false ∧ derivedFits d.staged c.stream c.ostream = true) (fun _ => []) (fun _ => [])) ∧
    (∃ h, ∃ p : LoadP, ∃ t, canEnd (.estLoad h p) h 0x0602 (p.bytes true) (p.source = 0) (fun d => d.clk.pending = none ∧
        estTables p.table.toNat = some t ∧ p.source.toNat ≤ 1 ∧ p.count.toNat ≠ 0 ∧
          p.first.toNat + p.count.toNat ≤ t.size ∧ (p.source = 1 → h.chan = 24 ∧ (replaySection d p.addr.toNat).isSome = true))) ∧
    (∃ l : LoadRun, ∃ rest t data, let n := t.width * l.p.count.toNat
          let b (d : Dev) := cut (loadData d l data) 0 n
          let es (d : Dev) := chunksOf t.width l.p.count.toNat (b d)
          canDo (.estLoadDone data true) (fun d => isLive d = true ∧ d.est.loads = l :: rest ∧ estTables l.p.table.toNat = some t ∧
              l.conflict = false ∧
          (l.p.source = 1 → n ≤ (loadData d l data).length) ∧ crc32 (b d) = l.p.crc.toNat ∧ ∀ e ∈ es d, estBad l.p.table.toNat e = false)) ∧
    (∃ h, ∃ table : Byte, ∃ first count : W32, ∃ t, let f := first.toNat
          let n := count.toNat
          canStageBy (.estClear h table first count) h 0x0603 (pk table ++ pk first ++ pk count) (fun _ => estTables table.toNat = some t ∧ n ≠ 0 ∧
              f + n ≤ t.size) (fun _ => []) (fun _ => [])) ∧
    (∃ h, canEnd (.estStatus h) h 0x0604 [] false (fun _ => True)) ∧
    (∃ h, canEnd (.estRefactor h) h 0x0605 [] false (fun d => ∀ f, d.est.running = some f → f.prep = false)) ∧
    (∃ h, ∃ row : W32, let r := row.toNat
          canEnd (.estRowRelease h row) h 0x0606 (pk row) false (fun d => let y := rowRun d.est.run r
          r < 327680 ∧ y.inA = false ∧ y.disabled = false ∧ y.cause = .bad)) ∧
    (∃ h, ∃ row : W32, let r := row.toNat
          canEnd (.estRowStatus h row) h 0x0607 (pk row) false (fun d => r < 262144 ∧ (mfind d.cur.est.rows r).isSome = true)) :=
  ⟨⟨rcrd 3, [], meet { live with est := { notices := [rcrd 3] } } 
     ⟨by decide +kernel, by decide +kernel, by decide +kernel, fun f h => nomatch (show (none : Option Factor) = some f from h)⟩⟩,
   ⟨rcrd 3, [], fct, meet { live with est := { notices := [rcrd 3], ready := some fct } } (by decide +kernel)⟩,
   ⟨rcrd 3, {}, meet { live with est := { working := some (rcrd 3) } } (by decide +kernel)⟩,
   ⟨fcg 0 false, meet { live with est := { running := some (fcg 0 false) } } (by decide +kernel)⟩,
   ⟨fcg 1 true, meet { live with est := { running := some (fcg 1 true) } } (by decide +kernel)⟩,
   ⟨_, { enable := 1, ostream := 3, stream := 1, alpha := 2, rnLimit := 0, bdMax := 8, xmax := 64, leaveN := 1, joinN := 1, holdSlots := 1, ziSigma := 0, pivotTol := 0, critTol := 0, chiN := 1, suspectN := 1, unsolvedN := 1, obsLimit := 0 },
    put { live with staged := { os := [(3, ost)], streams := [(1, strm .derived)] } } (by decide +kernel) (by decide +kernel) (by decide +kernel)⟩,
   ⟨_, { ldp 2 0 with first := 262143 }, { size := 262144, width := 16 }, run live (by decide +kernel) (by decide +kernel)⟩,
   ⟨ldr 2 0xD17A70DA, [], { size := 262144, width := 16 }, laid 16 [(8, 4, 0x3F800000)],
       meet { live with est := { loads := [ldr 2 0xD17A70DA] } } (by decide +kernel)⟩,
   ⟨_, 2, 262143, 1, { size := 262144, width := 16 }, put live (by decide +kernel) (by decide +kernel) (by decide +kernel)⟩,
   ⟨_, run live (by decide +kernel) trivial⟩,
   ⟨_, run live (by decide +kernel) (fun _ h => nomatch h)⟩,
   ⟨_, 327679, run { live with est := { run := { rows := [(327679, { inA := false, cause := .bad })] } } } (by decide +kernel) (by decide +kernel)⟩,
   ⟨_, 262143, run { live with cur := { est := { rows := [(262143, { chan := 0, kind := 0, elem := 0, sigma := 0 })] } } } (by decide +kernel)
       (by decide +kernel)⟩⟩

/-- The hypotheses of `ModeEngineCommandsComplete` can be met, clause by clause. -/
theorem witness_ModeEngineCommandsComplete :
    (∃ r rest g c, let upd := fun (d : Dev) => { d with osc := { d.osc with notices := rest } }
          canDo .oscSlotStart (fun d => engRuns d = true ∧ oscIdle d = true ∧ d.osc.notices = r :: rest ∧ oscGen (upd d) r = some (g, c))) ∧
    (∃ r g c, canDo .oscModeUpdateDelivered (fun d => engRuns d = true ∧ d.osc.update1 = some r ∧ oscGen d r = some (g, c))) ∧
    (∃ r g c, canDo .oscFoEvaluation (fun d => engRuns d = true ∧ d.osc.eval2 = some r ∧ oscGen d r = some (g, c))) ∧
    (∃ r g c, canDo .oscFoUpdateDelivered (fun d => engRuns d = true ∧ d.osc.update2 = some r ∧ d.osc.eval2 = none ∧ oscGen d r = some (g, c))) ∧
    (∃ h, ∃ src : BlockSrc, ∃ block, let b := fun d => paramBytes h src 128 block d
          canEnd (.oscConfig h src block) h 0x0610 (BlockSrc.bytes src) (src.kind = 0) (fun d => let c := oscConfigOf (b d)
          blockFits src h 128 ∧ oscFieldBad (b d) = false ∧ oscRuleBad c = false ∧ oscOstreamBad d.staged c = false ∧
          canStage [] [] d)) ∧
    (∃ h, ∃ p : LoadP, ∃ t, canEnd (.oscLoad h p) h 0x0611 (p.bytes true) (p.source = 0) (fun d => d.clk.pending = none ∧
        oscTables p.table.toNat = some t ∧ p.source.toNat ≤ 1 ∧ p.count.toNat ≠ 0 ∧
          p.first.toNat + p.count.toNat ≤ t.size ∧ (p.source = 1 → h.chan = 24 ∧ (replaySection d p.addr.toNat).isSome = true))) ∧
    (∃ l : LoadRun, ∃ rest t data, let n := t.width * l.p.count.toNat
          let b (d : Dev) := cut (loadData d l data) 0 n
          let es (d : Dev) := chunksOf t.width l.p.count.toNat (b d)
          canDo (.oscLoadDone data true) (fun d => isLive d = true ∧ d.osc.loads = l :: rest ∧ oscTables l.p.table.toNat = some t ∧
              l.conflict = false ∧
          (l.p.source = 1 → n ≤ (loadData d l data).length) ∧ crc32 (b d) = l.p.crc.toNat ∧ ∀ e ∈ es d, oscBad l.p.table.toNat e = false)) ∧
    (∃ h, ∃ table : Byte, ∃ first count : W32, ∃ t, let f := first.toNat
          let n := count.toNat
          canStageBy (.oscClear h table first count) h 0x0612 (pk table ++ pk first ++ pk count) (fun _ => oscTables table.toNat = some t ∧ n ≠ 0 ∧
              f + n ≤ t.size) (fun _ => []) (fun _ => [])) ∧
    (∃ h, canEnd (.oscStatus h) h 0x0613 [] false (fun _ => True)) ∧
    (∃ h, canEnd (.oscRestart h) h 0x0614 [] false (fun d => d.osc.force.isSome = true)) ∧
    (∃ h, ∃ slot : Byte, ∃ m, canEnd (.oscModeStatus h slot) h 0x0615 (pk slot) false (fun d => slot.toNat ≤ 31 ∧
        mfind d.osc.modes slot.toNat = some m)) ∧
    (∃ h, ∃ slot : Byte, ∃ x, canEnd (.oscFoStatus h slot) h 0x0616 (pk slot) false (fun d => slot.toNat ≤ 7 ∧
        mfind d.osc.fos slot.toNat = some x)) :=
  ⟨⟨rcrd 3, [], engGen, oscConfigOf oscBlock, meet { live with cur := engGen, osc := { notices := [rcrd 3] } } (by decide +kernel)⟩,
   ⟨rcrd 3, engGen, oscConfigOf oscBlock, meet { live with cur := engGen, osc := { update1 := some (rcrd 3) } } (by decide +kernel)⟩,
   ⟨rcrd 3, engGen, oscConfigOf oscBlock, meet { live with cur := engGen, osc := { eval2 := some (rcrd 3) } } (by decide +kernel)⟩,
   ⟨rcrd 3, engGen, oscConfigOf oscBlock, meet { live with cur := engGen, osc := { update2 := some (rcrd 3) } } (by decide +kernel)⟩,
   ⟨_, hostBlock 128, oscBlock, run { live with staged := engGen } (by decide +kernel) (by decide +kernel)⟩,
   ⟨_, { ldp 1 0 with first := 4095 }, { size := 4096, width := 16 }, run live (by decide +kernel) (by decide +kernel)⟩,
   ⟨ldr 1 0xECBB4B55, [], { size := 4096, width := 16 }, List.replicate 16 0,
       meet { live with osc := { loads := [ldr 1 0xECBB4B55] } } (by decide +kernel)⟩,
   ⟨_, 1, 4095, 1, { size := 4096, width := 16 }, put live (by decide +kernel) (by decide +kernel) (by decide +kernel)⟩,
   ⟨_, run live (by decide +kernel) trivial⟩,
   ⟨_, run { live with osc := { force := some {} } } (by decide +kernel) (by decide +kernel)⟩,
   ⟨_, 31, { cand := { f := 0, zeta := 0, amp := 0, e := 0, ref := 0, shape := [] } },
       run { live with osc := { modes := [(31, { cand := { f := 0, zeta := 0, amp := 0, e := 0, ref := 0, shape := [] } })] } } (by decide +kernel)
       (by decide +kernel)⟩,
   ⟨_, 7, { peak := { bin := 0, f := 0, eta := 0, cv := 0 }, sec := 0, tick := 0 },
       run { live with osc := { fos := [(7, { peak := { bin := 0, f := 0, eta := 0, cv := 0 }, sec := 0, tick := 0 })] } } (by decide +kernel)
       (by decide +kernel)⟩⟩

/-- The hypotheses of `IslandEngineCommandsComplete` can be met, clause by clause. -/
theorem witness_IslandEngineCommandsComplete :
    (∃ r rest g c, let upd := fun (d : Dev) => { d with isl := { d.isl with notices := rest } }
          canDo .islSlotStart (fun d => engRuns d = true ∧ d.isl.topo = none ∧ d.isl.coh = none ∧ d.isl.notices = r :: rest ∧ islGen (upd d)
              r = some (g, c))) ∧
    (∃ r g c, canDo .islTopoDelivered (fun d => engRuns d = true ∧ d.isl.topo = some r ∧ islGen d r = some (g, c))) ∧
    (∃ r g c, canDo .islCohDelivered (fun d => engRuns d = true ∧ d.isl.coh = some r ∧ islGen d r = some (g, c))) ∧
    (∃ h, ∃ src : BlockSrc, ∃ block, let b := fun d => paramBytes h src 64 block d
          canEnd (.islConfig h src block) h 0x0620 (BlockSrc.bytes src) (src.kind = 0) (fun d => let c := islConfigOf (b d)
          blockFits src h 64 ∧ islFieldBad (b d) = false ∧ islOstreamBad d.staged c = false ∧ canStage [] [] d)) ∧
    (∃ h, ∃ p : LoadP, ∃ t, canEnd (.islLoad h p) h 0x0621 (p.bytes true) (p.source = 0) (fun d => d.clk.pending = none ∧
        islTables p.table.toNat = some t ∧ p.source.toNat ≤ 1 ∧ p.count.toNat ≠ 0 ∧
          p.first.toNat + p.count.toNat ≤ t.size ∧ (p.source = 1 → h.chan = 24 ∧ (replaySection d p.addr.toNat).isSome = true))) ∧
    (∃ l : LoadRun, ∃ rest t data, let n := t.width * l.p.count.toNat
          let b (d : Dev) := cut (loadData d l data) 0 n
          let es (d : Dev) := chunksOf t.width l.p.count.toNat (b d)
          canDo (.islLoadDone data true) (fun d => isLive d = true ∧ d.isl.loads = l :: rest ∧ islTables l.p.table.toNat = some t ∧
              l.conflict = false ∧
          (l.p.source = 1 → n ≤ (loadData d l data).length) ∧ crc32 (b d) = l.p.crc.toNat ∧ ∀ e ∈ es d, islBad l.p.table.toNat e = false)) ∧
    (∃ h, ∃ table : Byte, ∃ first count : W32, ∃ t, let f := first.toNat
          let n := count.toNat
          canStageBy (.islClear h table first count) h 0x0622 (pk table ++ pk first ++ pk count) (fun _ => islTables table.toNat = some t ∧ n ≠ 0 ∧
              f + n ≤ t.size) (fun _ => []) (fun _ => [])) ∧
    (∃ h, canEnd (.islStatus h) h 0x0623 [] false (fun _ => True)) ∧
    (∃ h, canEnd (.islRestart h) h 0x0624 [] false (fun d => d.isl.force.isSome = true)) ∧
    (∃ h, ∃ slot : Byte, ∃ x, canEnd (.islIslandStatus h slot) h 0x0625 (pk slot) false (fun d => slot.toNat ≤ 31 ∧
        mfind d.isl.islands slot.toNat = some x)) :=
  ⟨⟨rcrd 3, [], engGen, islConfigOf islBlock, meet { live with cur := engGen, isl := { notices := [rcrd 3] } } (by decide +kernel)⟩,
   ⟨rcrd 3, engGen, islConfigOf islBlock, meet { live with cur := engGen, isl := { topo := some (rcrd 3) } } (by decide +kernel)⟩,
   ⟨rcrd 3, engGen, islConfigOf islBlock, meet { live with cur := engGen, isl := { coh := some (rcrd 3) } } (by decide +kernel)⟩,
   ⟨_, hostBlock 64, islBlock, run { live with staged := engGen } (by decide +kernel) (by decide +kernel)⟩,
   ⟨_, { ldp 1 0 with first := 65535 }, { size := 65536, width := 16 }, run live (by decide +kernel) (by decide +kernel)⟩,
   ⟨ldr 1 0xECBB4B55, [], { size := 65536, width := 16 }, List.replicate 16 0,
       meet { live with isl := { loads := [ldr 1 0xECBB4B55] } } (by decide +kernel)⟩,
   ⟨_, 1, 65535, 1, { size := 65536, width := 16 }, put live (by decide +kernel) (by decide +kernel) (by decide +kernel)⟩,
   ⟨_, run live (by decide +kernel) trivial⟩,
   ⟨_, run { live with isl := { force := some {} } } (by decide +kernel) (by decide +kernel)⟩,
   ⟨_, 31, isl0, run { live with isl := { islands := [(31, isl0)] } } (by decide +kernel) (by decide +kernel)⟩⟩

/-- The hypotheses of `LaunchCommandsComplete` can be met, clause by clause. -/
theorem witness_LaunchCommandsComplete :
    (∃ entry : Fin 16384, ∃ e, canDo (.launchExecute entry) (fun d => isLive d = true ∧ mfind d.lch.entries entry.val = some e ∧ e.due = true)) ∧
    (∃ port : Fin 12, ∃ y, canDo (.launchFrameDelayed port) (fun d => isLive d = true ∧ (d.lch.delayed.find? fun y => y.port == port.val) = some y ∧
          (portUp d port = false ∨ (pauseLeft d (portOf d port) = 0 ∧ reservedFor d port y.frame = false)))) ∧
    (∃ pin : Fin 8, ∃ t, canDo (.eventPulseEnd pin) (fun d => isLive d = true ∧ (eventPin d pin).pulseEnd = some t)) ∧
    (∃ pin : Fin 8, ∃ rise, let n : Nat := pin.val
          let lev := fun d => setEvent n { eventPin d n with level := rise } d
          canDo (.eventInputEdge pin rise) (fun d => isLive d = true ∧ (eventPin d n).mode = .input ∧ bit (eventPin (lev d)
              n).edges.toNat (if rise then 0 else 1) = true ∧
          (eventPin (lev d) n).queue.length < 16)) ∧
    (∃ path, canDo (.lchDone0Read path) (fun d => isLive d = true ∧ isSecure path = false)) ∧
    (∃ path, ∃ pin : Fin 8, canDo (.lchEvLoRead path pin) (fun d => isLive d = true ∧ isSecure path = false)) ∧
    (∃ h, ∃ index : W16, ∃ entry, let b := cut entry 0 32
          let e := lchEntryOf b
          let i := index.toNat
          canEnd (.lchWrite h index entry) h 0x0801 (pk index ++ b) false (fun d => i ≤ 16383 ∧ lchBad b = false ∧
              nowOrd d + 2 ≤ tickOrd e.sec e.tick ∧
          (∀ x, mfind d.lch.entries i = some x → x.filed = false) ∧ filedIn d e.sec e.tick < 256 ∧ e.action ≠ 6)) ∧
    (∃ h, ∃ index : W16, ∃ entry, let b := cut entry 0 32
          let e := lchEntryOf b
          let i := index.toNat
          let g := BitVec.ofNat 16 (e.par 20 2)
          canEnd (.lchWrite h index entry) h 0x0801 (pk index ++ b) false (fun d => i ≤ 16383 ∧ lchBad b = false ∧
              nowOrd d + 2 ≤ tickOrd e.sec e.tick ∧
          (∀ x, mfind d.lch.entries i = some x → x.filed = false) ∧ filedIn d e.sec e.tick < 256 ∧ e.action = 6 ∧
          switchConflict g e.sec e.tick d = false)) ∧
    (∃ h, ∃ index : W16, ∃ e, canEnd (.lchCancel h index) h 0x0802 (pk index) false (fun d => index.toNat ≤ 16383 ∧
        mfind d.lch.entries index.toNat = some e ∧ e.action ≠ 6 ∧ e.status = .pending)) ∧
    (∃ h, ∃ index : W16, canEnd (.lchStatus h index) h 0x0803 (pk index) false (fun _ => index.toNat ≤ 16383)) ∧
    (∃ h, ∃ buffer len : W16, ∃ addr : W64, ∃ data, canEnd (.lchFrameLoad h buffer len addr data true) h 0x0804 (pk buffer ++ pk len ++ pk addr)
        true (fun d => buffer.toNat ≤ 1023 ∧ 60 ≤ len.toNat ∧ len.toNat ≤ 2044 ∧
          ∀ e ∈ d.lch.entries, ¬ (e.2.status = .armed ∧ e.2.action = 1 ∧ e.2.par 21 2 = buffer.toNat))) ∧
    (∃ h, ∃ p : EventConfigP, let n := p.pin.toNat
          let x : EventPin :=
          { mode := if p.mode = 0 then .off else if p.mode = 1 then .output else .input, openDrain := p.drive = 1, high := p.active = 1,
            edges := BitVec.ofNat 2 p.edges.toNat, level := if p.mode = 1 then p.active = 0 else false }
          canEnd (.lchEventConfig h p) h 0x0805 p.bytes false (fun _ => n ≤ 7 ∧ p.mode.toNat ≤ 2 ∧ p.drive.toNat ≤ 1 ∧ p.active.toNat ≤ 1 ∧
              p.edges.toNat ≤ 3 ∧ (p.mode = 2 → p.edges ≠ 0))) :=
  ⟨⟨16383, lche .pending, meet { live with lch := { entries := [(16383, lche .pending)] } } (by decide +kernel)⟩,
   ⟨11, { entry := 0, port := 11, frame := [], late := true, report := true },
       meet { live with lch := { delayed := [{ entry := 0, port := 11, frame := [], late := true, report := true }] } } (by decide +kernel)⟩,
   ⟨7, 0, meet { live with lch := { pins := [(7, { pulseEnd := some 0 })] } } (by decide +kernel)⟩,
   ⟨7, true, meet { live with lch := { pins := [(7, { mode := .input, edges := 1 })] } } (by decide +kernel)⟩,
   ⟨.lb, meet live (by decide +kernel)⟩,
   ⟨.pf0, 7, meet live (by decide +kernel)⟩,
   ⟨_, 16383, laid 32 [(6, 2, 2), (12, 1, 4), (13, 1, 7), (20, 1, 31)], run live (by decide +kernel) ⟨(by decide +kernel), (by decide +kernel),
       (by decide +kernel), (fun _ h => nomatch h), (by decide +kernel), (by decide +kernel)⟩⟩,
   ⟨_, 0, laid 32 [(6, 2, 3599), (12, 1, 6), (20, 2, 1)], run live (by decide +kernel) ⟨(by decide +kernel), (by decide +kernel),
       (by decide +kernel), (fun _ h => nomatch h), (by decide +kernel), (by decide +kernel), (by decide +kernel)⟩⟩,
   ⟨_, 16383, lche .pending, run { live with lch := { entries := [(16383, lche .pending)] } } (by decide +kernel) (by decide +kernel)⟩,
   ⟨_, 16383, run live (by decide +kernel) (by decide +kernel)⟩,
   ⟨_, 1023, 2044, 64, [], run live (by decide +kernel) (by decide +kernel)⟩,
   ⟨_, { pin := 7, mode := 2, drive := 1, active := 1, edges := 3 }, run live (by decide +kernel) (by decide +kernel)⟩⟩

/-- The hypotheses of `CaptureCommandsComplete` can be met, clause by clause. -/
theorem witness_CaptureCommandsComplete :
    (∃ w rest, canDo .captureTrigger (fun d => coreRuns d = true ∧ d.cap.waiting = w :: rest ∧ (w.kind = 4 → (sessOf d w.session).state = .armed))) ∧
    (∃ session : Fin 32, canDo (.captureEnd session) (fun d => coreRuns d = true ∧ (sessOf d session).state = .capturing ∧
        rangeDone d (sessOf d session) = true)) ∧
    (∃ v, canDo (.capSelWrite v) (fun d => isLive d = true)) ∧
    (∃ h, ∃ session : Byte, ∃ addr : W64, ∃ desc list readOk, let s := session.toNat
          canEnd (.capSession h session 1 addr desc list readOk) h 0x0810 ([session, 1] ++ pk addr) false (fun d => s ≤ 31 ∧ capFixed d s = false)) ∧
    (∃ h, ∃ session : Byte, ∃ addr : W64, ∃ desc list, let s := session.toNat
          let b := cut desc 0 128
          let c := capDefOf b list
          let f := fun (d : Dev) => ((mfind d.cur.os c.ostream).map OstreamDef.rate).getD 0
          let v := fun (d : Dev) => if c.isWide && c.wideAll then recordValues d.cur c.ostream else 0
          let need := fun (d : Dev) => if c.stream then leAt b 36 4 else ((lanesOf c).map (laneAlloc c (f d) (v d))).sum
          canEnd (.capSession h session 0 addr desc list true) h 0x0810 ([session, 0] ++ pk addr) true (fun d => s ≤ 31 ∧ capFixed d s = false ∧
              capDefBad b list = false ∧ need d ≤ d.cap.free + (sessOf d s).alloc)) ∧
    (∃ h, ∃ session mask : Byte, ∃ addr : W64, ∃ desc, let s := session.toNat
          let b := cut desc 0 784
          canEnd (.capMask h session mask addr desc true) h 0x0811 ([session, mask] ++ pk addr) true (fun d => s ≤ 31 ∧ mask.toNat ≤ 7 ∧
              capFixed d s = false ∧ capMaskBad b (sessOf d s).defn = false)) ∧
    (∃ h, ∃ first : Byte, ∃ values : List W32, let v := values.map fun w => signed 32 w.toNat
          canEnd (.capSkew h first values) h 0x0812 ([first, BitVec.ofNat 8 values.length] ++ (values.map pk).flatten)
              false (fun _ => values ≠ [] ∧ values.length ≤ 8 ∧ first.toNat + values.length ≤ 56 ∧ ∀ n ∈ v, n.natAbs ≤ 100000)) ∧
    (∃ h, ∃ session : Byte, canEnd (.capArm h session) h 0x0813 [session] false (fun d => session.toNat ≤ 31 ∧
        (sessOf d session.toNat).state = .idle)) ∧
    (∃ h, ∃ session : Byte, let s := session.toNat
          canEnd (.capStop h session) h 0x0814 [session] false (fun d => s ≤ 31 ∧ (sessOf d s).state = .armed)) ∧
    (∃ h, ∃ session : Byte, let s := session.toNat
          canEnd (.capStop h session) h 0x0814 [session] false (fun d => s ≤ 31 ∧ (sessOf d s).state = .capturing ∧ rangeDone d (sessOf d s)
              = false)) ∧
    (∃ h, ∃ session given : Byte, ∃ sec, ∃ ns : W32, let t := fun (d : Dev) => if given = 1 then instNs sec ns.toNat else nowNs d
          canEnd (.capTrigger h session given sec ns) h 0x0815 ([session, given] ++ pk sec ++ pk ns) false (fun d => session.toNat ≤ 31 ∧
              given.toNat ≤ 1 ∧ (given = 1 → ns.toNat < 1000000000) ∧ t d ≤ nowNs d ∧ nowNs d ≤ t d + 2100000000)) ∧
    (∃ h, ∃ session lane : Byte, ∃ first count : W32, ∃ addr : W64, let held := fun (d : Dev) => mget [] (sessOf d session.toNat).held lane.toNat
          canEnd (.capRead h session lane first count addr) h 0x0816 ([session, lane] ++ pk first ++ pk count ++ pk addr)
              true (fun d => session.toNat ≤ 31 ∧ lane ≠ 0 ∧ lane.toNat ≤ 6 ∧ (sessOf d session.toNat).state = .rearm ∧
          first.toNat + count.toNat ≤ (held d).length)) ∧
    (∃ h, ∃ session : Byte, ∃ c, canEnd (.capRelease h session) h 0x0817 [session] false (fun d => session.toNat ≤ 31 ∧
        (sessOf d session.toNat).state = .rearm ∧ (sessOf d session.toNat).defn = some c ∧ c.hold = true)) ∧
    (∃ h, ∃ session : Byte, canEnd (.capStatus h session) h 0x0818 [session] false (fun _ => session.toNat ≤ 31)) :=
  ⟨⟨{ session := 31, kind := 1, term := 0, sel := 0, raw := 0, tp := 0 }, [],
      meet { live with cap := { waiting := [{ session := 31, kind := 1, term := 0, sel := 0, raw := 0, tp := 0 }] } } (by decide +kernel)⟩,
   ⟨31,
       meet { live with cur := { os := [(3, ost)] }, cap := { sessions := [(31, { state := .capturing, defn := some (capd 1), cap := some capc, wides := some (0, 1000000) })] } } (by decide +kernel)⟩,
   ⟨31, meet live (by decide +kernel)⟩,
   ⟨_, 31, 0, [], [], false, run live (by decide +kernel) (by decide +kernel)⟩,
   ⟨_, 31, 64, laid 128 [(0, 1, 2), (3, 1, 1), (12, 2, 3), (20, 4, 1), (32, 1, 8)], [],
       run { live with cur := { os := [(3, ost)] } } (by decide +kernel) (by decide +kernel)⟩,
   ⟨_, 31, 7, 64, laid 784 [(0, 1, 2), (1, 1, 1), (12, 2, 1)], run live (by decide +kernel) (by decide +kernel)⟩,
   ⟨_, 55, [BitVec.ofInt 32 (-100000)], run live (by decide +kernel) (by decide +kernel)⟩,
   ⟨_, 31, run { live with cap := { sessions := [(31, { state := .idle })] } } (by decide +kernel) (by decide +kernel)⟩,
   ⟨_, 31, run { live with cap := { sessions := [(31, { state := .armed })] } } (by decide +kernel) (by decide +kernel)⟩,
   ⟨_, 31, run { live with cap := { sessions := [(31, { state := .capturing })] } } (by decide +kernel) (by decide +kernel)⟩,
   ⟨_, 31, 1, 0, 0, run { live with tod := { sec := 2, ns := 100000000 } } (by decide +kernel) (by decide +kernel)⟩,
   ⟨_, 31, 6, 0, 1, 64, run { live with cap := { sessions := [(31, { state := .rearm, held := [(6, [hrec 5])] })] } } (by decide +kernel)
       (by decide +kernel)⟩,
   ⟨_, 31, capd 1, run { live with cap := { sessions := [(31, { state := .rearm, defn := some (capd 1) })] } } (by decide +kernel)
       (by decide +kernel)⟩,
   ⟨_, 31, run live (by decide +kernel) (by decide +kernel)⟩⟩

/-- The hypotheses of `LocalFrontEndCommandsComplete` can be met, clause by clause. -/
theorem witness_LocalFrontEndCommandsComplete :
    (∃ samples, let b := fun d =>
          let e := settlePassed (bringTo d (nextSample d * 312500 / 9))
          if e.lmf.sample = none then pmuAnew (nextSample d) e else e
          let on := fun d => (List.range 48).filter fun k => (chanOf (b d) k).enabled
          canDo (.localSample samples) (fun d => engRuns d = true ∧ on d ≠ [])) ∧
    (∃ chan : Fin 48, ∃ level, canDo (.modFault chan level) (fun d => engRuns d = true ∧ (chanOf d chan).enabled = true ∧
        (chanOf d chan).fault = false)) ∧
    (∃ chan : Fin 48, canDo (.modFaultClear chan) (fun d => engRuns d = true ∧ (chanOf d chan).fault = true)) ∧
    (∃ chan : Fin 48, canDo (.channelSettled chan) (fun d => engRuns d = true ∧ (chanOf d chan).settling = true)) ∧
    (∃ circuit : Fin 8, ∃ q r t, canDo (.localPmuReport circuit) (fun d => engRuns d = true ∧ d.lmf.sample = some q ∧ pmuDue d circuit q = some (r,
        t))) ∧
    (∃ h, ∃ p : LmfClockP, canEnd (.lmfClock h p) h 0x0701 p.bytes false (fun _ => 20 ≤ p.d.toNat ∧ p.d.toNat ≤ 50)) ∧
    (∃ h, ∃ p : LmfChanP, canEnd (.lmfChan h p) h 0x0702 p.bytes false (fun d => p.chan.toNat ≤ 47 ∧ p.enable.toNat ≤ 1 ∧
        (p.r.toNat = 32 ∨ p.r.toNat = 64 ∨ p.r.toNat = 128) ∧ p.median.toNat ≤ 1 ∧
          -200000 ≤ p.pd.toInt ∧ p.pd.toInt ≤ 200000 ∧ f32Fin p.fs = true ∧ f32Lt 0 p.fs = true ∧ modFits d.lmf.d p.r.toNat = true)) ∧
    (∃ h, ∃ p : LmfPmuP, let c := p.circuit.toNat
          canEnd (.lmfPmu h p) h 0x0703 p.bytes false (fun _ => c ≤ 7 ∧ p.enable.toNat ≤ 1 ∧ p.rate.toNat ∈ rates ∧ p.cls.toNat ≤ 1 ∧
              (p.fnom = 50 ∨ p.fnom = 60) ∧ p.stream.toNat ≤ 262143 ∧
          (p.cls = 1 → 10 ≤ p.rate.toNat ∧ p.rate.toNat ≤ 60))) ∧
    (∃ h, ∃ circuit : Byte, let c := circuit.toNat
          let one := fun d k => leBytes 4 (delayOf d k) ++ leBytes 4 (unsigned 32 (chanOf d k).pd) ++
          leBytes 1 (b2n (chanOf d k).enabled + 2 * b2n (chanOf d k).settling + 4 * b2n (chanOf d k).fault) ++ ((chanOf d k).faultAt.getD {}).bytes
          canEnd (.lmfStatus h circuit) h 0x0704 (pk circuit) false (fun _ => c ≤ 7)) :=
  ⟨⟨[], meet { live with lmf := { chans := [(47, { enabled := true })] } } (by decide +kernel)⟩,
   ⟨47, true, meet { live with lmf := { chans := [(47, { enabled := true })] } } (by decide +kernel)⟩,
   ⟨47, meet { live with lmf := { chans := [(47, { enabled := true, fault := true })] } } (by decide +kernel)⟩,
   ⟨47, meet { live with lmf := { chans := [(47, { enabled := true, settling := true })] } } (by decide +kernel)⟩,
   ⟨7, 1000, { set := { enabled := true, rate := 50 }, next := 0 }, 0,
     meet { live with lmf := { sample := some 1000, pmuRuns := [(7, [{ set := { enabled := true, rate := 50 }, next := 0 }])] } } (by decide +kernel)⟩,
   ⟨_, { d := 50, enable := 0xFF, edges := 0xFF }, run live (by decide +kernel) (by decide +kernel)⟩,
   ⟨_, { chan := 47, enable := 1, r := 128, median := 1, pd := BitVec.ofInt 32 (-200000), fs := 0x3F800000 },
       run { live with lmf := { d := 20 } } (by decide +kernel) (by decide +kernel)⟩,
   ⟨_, { circuit := 7, enable := 1, rate := 60, cls := 1, fnom := 60, stream := 262143 }, run live (by decide +kernel) (by decide +kernel)⟩,
   ⟨_, 7, run live (by decide +kernel) (by decide +kernel)⟩⟩

/-- The hypotheses of `ConverterCommandsComplete` can be met, clause by clause. -/
theorem witness_ConverterCommandsComplete :
    (∃ lane : Fin 8, ∃ raw i e, let l : Nat := lane.val
          canDo (.auxConversionDone lane raw) (fun d => let x := auxLaneOf d l
          engRuns d = true ∧ x.run = true ∧ x.work = .regular i ∧ x.entries[i]? = some e)) ∧
    (∃ lane : Fin 8, ∃ raw i e, let l : Nat := lane.val
          canDo (.auxConversionDone lane raw) (fun d => let x := auxLaneOf d l
          engRuns d = true ∧ x.run = true ∧ x.work = .injected i ∧ x.injected[i]? = some e)) ∧
    (∃ v, canDo (.auxInjWrite v) (fun d => engRuns d = true)) ∧
    (∃ lane : Fin 8, ∃ coefs, let l : Nat := lane.val
          canDo (.auxCalDone lane coefs) (fun d => engRuns d = true ∧ (auxLaneOf d l).run = true ∧ (auxLaneOf d l).work = .calibrating)) ∧
    (canDo .auxSpareTakeover (fun d => engRuns d = true ∧ d.aux.calPeriod ≠ 0 ∧ d.aux.spare < 9)) ∧
    (∃ coefs, canDo (.auxSpareCalibrated coefs none) (fun d => engRuns d = true ∧ d.aux.spare < 9)) ∧
    (∃ coefs f, canDo (.auxSpareCalibrated coefs (some f)) (fun d => engRuns d = true ∧ d.aux.spare < 9)) ∧
    (∃ buffer : Fin 16, ∃ v, canDo (.auxBufRdWrite buffer v) (fun d => isLive d = true)) ∧
    (∃ h, ∃ lane : Byte, ∃ odr : W16, ∃ run, let l := lane.toNat
          canEnd (.auxLane h lane odr run) h 0x0710 (pk lane ++ pk odr ++ pk run) false (fun _ => l ≤ 7 ∧ odr.toNat ∈ [10, 20, 50, 100, 200, 500,
              1000, 2000, 4000] ∧ run.toNat ≤ 1)) ∧
    (∃ h, ∃ lane : Byte, ∃ entries : List W32, let l := lane.toNat
          canEnd (.auxSeq h lane entries) h 0x0711 (pk lane ++ leBytes 1 entries.length ++ words32 entries) false (fun d => l ≤ 7 ∧ entries ≠ [] ∧
              entries.length ≤ 16 ∧ (∀ e ∈ entries, auxEntryBad e = false) ∧ (auxLaneOf d l).run = false)) ∧
    (∃ h, ∃ lane trigger : Byte, ∃ entries : List W32, let l := lane.toNat
          canEnd (.auxInjected h lane trigger entries) h 0x0712 (pk lane ++ leBytes 1 entries.length ++ pk trigger ++ words32 entries)
              false (fun d => l ≤ 7 ∧ entries.length ≤ 4 ∧ (trigger = 0 ∨ (8 ≤ trigger.toNat ∧ trigger.toNat ≤ 15)) ∧
          (∀ e ∈ entries, auxEntryBad e = false) ∧ (auxLaneOf d l).run = false)) ∧
    (∃ h, ∃ buffer : Byte, ∃ first len watermark : W16, let a := first.toNat
          let n := len.toNat
          canEnd (.auxBuffer h buffer first len watermark) h 0x0713 (pk buffer ++ pk first ++ pk len ++ pk watermark)
              false (fun d => buffer.toNat ≤ 15 ∧ 16 ≤ n ∧ n ≤ 8192 ∧ a + n ≤ 8192 ∧
          (∀ e ∈ d.aux.bufs, e.1 ≠ buffer.toNat → e.2.first + e.2.len ≤ a ∨ a + n ≤ e.2.first) ∧
          (∀ e ∈ d.aux.lanes, e.2.run = true → ∀ y ∈ e.2.entries ++ e.2.injected, y.buffer ≠ buffer.toNat))) ∧
    (∃ h, ∃ p : W16, canEnd (.auxCal h 0xFF (some p)) h 0x0714 (pk (0xFF : Byte) ++ pk p) false (fun _ => p.toNat ≤ 3600)) ∧
    (∃ h, ∃ lane : Byte, let l := lane.toNat
          canEnd (.auxCal h lane none) h 0x0714 (pk lane) false (fun d => l ≤ 7 ∧ (auxLaneOf d l).run = true)) ∧
    (∃ h, ∃ lane : Byte, let l := lane.toNat
          canEnd (.auxStatus h lane) h 0x0715 (pk lane) false (fun _ => l ≤ 7)) :=
  ⟨⟨7, 0, 0, { input := 0, gain := 0, buffer := 0 },
      meet { live with aux := { lanes := [(7, { run := true, entries := [{ input := 0, gain := 0, buffer := 0 }] })] } } (by decide +kernel)⟩,
   ⟨7, 0, 0, { input := 0, gain := 0, buffer := 0 },
       meet { live with aux := { lanes := [(7, { run := true, work := .injected 0, injected := [{ input := 0, gain := 0, buffer := 0 }] })] } } (by decide +kernel)⟩,
   ⟨0xFF, meet live (by decide +kernel)⟩,
   ⟨7, [], meet { live with aux := { lanes := [(7, { run := true, work := .calibrating })] } } (by decide +kernel)⟩,
   meet { live with aux := { calPeriod := 3600 } } (by decide +kernel),
   ⟨[], meet live (by decide +kernel)⟩,
   ⟨[], 1, meet live (by decide +kernel)⟩,
   ⟨15, 0, meet live (by decide +kernel)⟩,
   ⟨_, 7, 4000, 1, run live (by decide +kernel) (by decide +kernel)⟩,
   ⟨_, 7, List.replicate 16 0x000F0712, run live (by decide +kernel) ⟨(by decide +kernel), (by decide +kernel), (by decide +kernel),
       fun e he => by rw [List.eq_of_mem_replicate he]; decide, (by decide +kernel)⟩⟩,
   ⟨_, 7, 15, List.replicate 4 0x000F0712, run live (by decide +kernel) ⟨(by decide +kernel), (by decide +kernel), (by decide +kernel),
       fun e he => by rw [List.eq_of_mem_replicate he]; decide, (by decide +kernel)⟩⟩,
   ⟨_, 15, 0, 8192, 0, run live (by decide +kernel) ⟨(by decide +kernel), (by decide +kernel), (by decide +kernel), (by decide +kernel),
       fun e h => absurd (show e ∈ [] from h) List.not_mem_nil, fun e h => absurd (show e ∈ [] from h) List.not_mem_nil⟩⟩,
   ⟨_, 3600, run live (by decide +kernel) (by decide +kernel)⟩,
   ⟨_, 7, run { live with aux := { lanes := [(7, { run := true })] } } (by decide +kernel) (by decide +kernel)⟩,
   ⟨_, 7, run live (by decide +kernel) (by decide +kernel)⟩⟩

/-- The hypotheses of `MeteringCommandsComplete` can be met, clause by clause. -/
theorem witness_MeteringCommandsComplete :
    (∃ circuit : Fin 8, ∃ v b, let c : Nat := circuit.val
          canDo (.demandBoundary circuit) (fun d => let x := circOf d c
          engRuns d = true ∧ x.open_ = some v ∧ x.config.enable = true ∧ x.demand.launchOnly = false ∧ (x.gapDue = false ∨ unsetTime d = false) ∧
          nextBoundary x.demand (leapTable d) v.start.sec.toNat = some b)) ∧
    (∃ circuit : Fin 8, ∃ v stop rest, let c : Nat := circuit.val
          canDo (.intervalRecord circuit) (fun d => engRuns d = true ∧ (circOf d c).closing = (v, stop) :: rest ∧ intervalFormed d (circOf d c)
              v stop = true)) ∧
    (∃ output : Fin 8, let p : Nat := output.val
          canDo (.pulseStart output) (fun d => let x := pulseOf d p
          engRuns d = true ∧ x.enabled = true ∧ x.owed ≠ 0 ∧ x.active = false ∧ d.mtr.frozen = false)) ∧
    (∃ output : Fin 8, let p : Nat := output.val
          canDo (.pulseEnd output) (fun d => engRuns d = true ∧ (pulseOf d p).active = true ∧ d.mtr.frozen = false)) ∧
    (canDo .meterSavePeriodic (fun d => engRuns d = true ∧ d.mtr.saving = none ∧ d.pwr.pfw = false ∧ d.pwr.seqRun = false ∧ fwTakes d = true)) ∧
    (canDo .meterSaveDone (fun d => isLive d = true)) ∧
    (∃ t, canDo .meterStartupTestDone (fun d => engRuns d = true ∧ d.mtr.test = some t)) ∧
    (∃ h, ∃ p : MtrConfigP, canEnd (.mtrConfig h p) h 0x0720 p.bytes false (fun _ => p.circuit.toNat ≤ 7 ∧ p.enable.toNat ≤ 1 ∧ p.conn.toNat ≤ 1 ∧
        (p.fnom = 50 ∨ p.fnom = 60) ∧
          f32Between p.iN 0x3DCCCCCD 0x47C35000 = true ∧ f32Between p.uN 0x3F800000 0x49742400 = true ∧ f32Fin p.creep = true ∧
          f32Lt p.creep 0 = false ∧ f64Lt (f64Mul 0x3F3A36E2EB1C432D (f32To64 p.iN)) (f32To64 p.creep) = false)) ∧
    (∃ h, ∃ mask mode : Byte, ∃ len : W16, ∃ utcAlign, canEnd (.mtrDemand h mask mode len utcAlign)
        h 0x0721 (pk mask ++ pk mode ++ pk len ++ pk utcAlign) false (fun _ => mode.toNat ≤ 1 ∧ len.toNat ∈ [60, 120, 180, 240, 300, 360, 600, 720,
        900, 1200, 1800, 3600] ∧ utcAlign.toNat ≤ 1)) ∧
    (∃ h, ∃ p : MtrPulseP, canEnd (.mtrPulse h p) h 0x0722 p.bytes false (fun _ => p.output.toNat ≤ 7 ∧ p.circuit.toNat ≤ 7 ∧ p.reg.toNat ≤ 12 ∧
        p.kp ≠ 0 ∧ p.width ≠ 0 ∧ p.width.toNat ≤ 1000 ∧
          p.drive.toNat ≤ 1 ∧ p.active.toNat ≤ 1 ∧ p.enable.toNat ≤ 1)) ∧
    (∃ h, ∃ period : W16, canEnd (.mtrSaveParams h period) h 0x0723 (pk period) false (fun _ => period ≠ 0 ∧ period.toNat ≤ 3600)) ∧
    (∃ h, canEnd (.mtrSaveNow h) h 0x0724 [] false (fun d => d.mtr.saving = none)) ∧
    (∃ h, ∃ circuit : Byte, canEnd (.mtrStatus h circuit) h 0x0725 (pk circuit) false (fun _ => circuit.toNat ≤ 7)) ∧
    (∃ h, ∃ circuit : Byte, canEnd (.mtrStartupTest h circuit) h 0x0726 (pk circuit) false (fun d => circuit.toNat ≤ 7 ∧ d.mtr.test = none ∧
        (circOf d circuit.toNat).config.enable = true)) ∧
    (∃ h, ∃ mask : Byte, canEnd (.mtrClear h mask) h 0x0727 (pk mask) false (fun d => d.tmp.presence = true)) :=
  ⟨⟨7, {}, 900, meet { live with mtr := { circuits := [(7, { config := { enable := true }, open_ := some {} })] } } (by decide +kernel)⟩,
   ⟨7, {}, {}, [], meet { live with mtr := { circuits := [(7, { closing := [({}, {})] })] } } (by decide +kernel)⟩,
   ⟨7, meet { live with mtr := { pulses := [(7, { enabled := true, owed := 1 })] } } (by decide +kernel)⟩,
   ⟨7, meet { live with mtr := { pulses := [(7, { active := true })] } } (by decide +kernel)⟩,
   meet live (by decide +kernel),
   meet live (by decide +kernel),
   ⟨{ circuit := 7, chan := 0, endOp := 0 }, meet { live with mtr := { test := some { circuit := 7, chan := 0, endOp := 0 } } } (by decide +kernel)⟩,
   ⟨_, { circuit := 7, enable := 1, conn := 1, fnom := 60, iN := 0x47C35000, uN := 0x3F800000, creep := 0 }, run live (by decide +kernel)
       (by decide +kernel)⟩,
   ⟨_, 0xFF, 1, 3600, 1, run live (by decide +kernel) (by decide +kernel)⟩,
   ⟨_, { output := 7, circuit := 7, reg := 12, kp := 1, width := 1000, drive := 1, active := 1, enable := 1 }, run live (by decide +kernel)
       (by decide +kernel)⟩,
   ⟨_, 3600, run live (by decide +kernel) (by decide +kernel)⟩,
   ⟨_, run live (by decide +kernel) (by decide +kernel)⟩,
   ⟨_, 7, run live (by decide +kernel) (by decide +kernel)⟩,
   ⟨_, 7, run { live with mtr := { circuits := [(7, { config := { enable := true } })] } } (by decide +kernel) (by decide +kernel)⟩,
   ⟨_, 0xFF, run { live with tmp := { presence := true } } (by decide +kernel) (by decide +kernel)⟩⟩

/-- The hypotheses of `KeyAndTamperCommandsComplete` can be met, clause by clause. -/
theorem witness_KeyAndTamperCommandsComplete :
    (∃ u, canDo .keyUpdateCommit (fun d => isLive d = true ∧ d.key.update = some u ∧ stalledIn d 4 = false)) ∧
    (∃ bad : List W16, canDo (.keySlotScrub bad) (fun d => isLive d = true ∧ d.key.vault = .ready ∧ stalledIn d 4 = false)) ∧
    (canDo .shareRemask (fun d => isLive d = true ∧ d.key.vault = .ready ∧ d.key.drbgDead = false ∧ stalledIn d 4 = false)) ∧
    (∃ test : W32, canDo (.keyDrbgFault test) (fun d => isLive d = true ∧ d.key.drbgDead = false)) ∧
    (∃ sources : Byte, let act := fun d => sources.toNat.land (tamperArmed d)
          canDo (.tamperDetected sources) (fun d => act d ≠ 0 ∧ d.pwr.held = true)) ∧
    (∃ sources : Byte, let act := fun d => sources.toNat.land (tamperArmed d)
          canDo (.tamperDetected sources) (fun d => act d ≠ 0 ∧ d.pwr.held = false)) ∧
    (canDo .presenceRecognised (fun _ => True)) ∧
    (canDo .presenceReleased (fun _ => True)) ∧
    (∃ n, canDo .lcChangeComplete (fun d => isLive d = true ∧ d.key.changing = some n)) ∧
    (∃ h, canEnd (.keyStatus h) h 0x0901 [] false (fun _ => True)) ∧
    (∃ h, ∃ slot : W16, canEnd (.keySlotStatus h slot) h 0x0903 (pk slot) false (fun _ => refOk slot.toNat = true)) ∧
    (∃ h, ∃ slot : W16, ∃ nonce, ∃ addr : W64, canEnd (.keyAttest h slot nonce addr) h 0x0904 (pk slot ++ cut nonce 0 32 ++ pk addr)
        true (fun d => refOk slot.toNat = true ∧ d.key.drbgDead = false ∧ d.key.identity = true)) ∧
    (∃ h, ∃ count : Byte, canEnd (.keyRandom h count) h 0x0906 (pk count) false (fun d => count ≠ 0 ∧ count.toNat ≤ 48 ∧ d.key.drbgDead = false)) ∧
    (∃ h, ∃ loops : List Byte, ∃ internal : Byte, let en := tmpEnables loops internal
          let fs := tmpFilters loops
          canEnd (.tmpConfig h loops internal) h 0x0910 (cut loops 0 4 ++ pk internal) false (fun d => (∀ x ∈ cut loops 0 4, loopBad x = false) ∧
              internal &&& 0x8F = 0 ∧ (tmpWeakens d en fs = false ∨ d.tmp.presence = true))) ∧
    (∃ h, canEnd (.tmpClear h) h 0x0911 [] false (fun d => d.tmp.presence = true)) ∧
    (∃ h, canEnd (.tmpStatus h) h 0x0912 [] false (fun _ => True)) :=
  ⟨⟨{ chan := 20, seq := 7, msg := [], key := none },
      meet { live with key := { update := some { chan := 20, seq := 7, msg := [], key := none } } } (by decide +kernel)⟩,
   ⟨[0x8005], meet { live with key := { vault := .ready } } (by decide +kernel)⟩,
   meet { live with key := { vault := .ready } } (by decide +kernel),
   ⟨0, meet live (by decide +kernel)⟩,
   ⟨1, meet { tmp := { enabled := 1 } } (by decide +kernel)⟩,
   ⟨0x10, meet { live with tmp := { enabled := 0x10 } } (by decide +kernel)⟩,
   meet live trivial,
   meet live trivial,
   ⟨.field, meet { live with key := { changing := some .field } } (by decide +kernel)⟩,
   ⟨_, run live (by decide +kernel) trivial⟩,
   ⟨_, 0x8FFF, run live (by decide +kernel) (by decide +kernel)⟩,
   ⟨_, 0, [], 64, run { live with key := { identity := true } } (by decide +kernel) (by decide +kernel)⟩,
   ⟨_, 48, run live (by decide +kernel) (by decide +kernel)⟩,
   ⟨_, [5, 5, 5, 5], 0x70, run { live with tmp := { presence := true } } (by decide +kernel) (by decide +kernel)⟩,
   ⟨_, run { live with tmp := { presence := true } } (by decide +kernel) (by decide +kernel)⟩,
   ⟨_, run live (by decide +kernel) trivial⟩⟩

/-- The hypotheses of `ImageStoreCommandsComplete` can be met, clause by clause. -/
theorem witness_ImageStoreCommandsComplete :
    (∃ h, ∃ offset len : W32, ∃ kind : Byte, ∃ addr : W64, ∃ data readOk, let o := offset.toNat
          let n := len.toNat
          canEnd (.fwWrite h offset len kind addr data readOk) h 0x0A02 (pk offset ++ pk len ++ pk kind ++ pk addr) (kind = 0)
              (fun d => fwlBusy h d = false ∧ d.cmd.updOpen = true ∧ kind.toNat ≤ 1 ∧ o % 64 = 0 ∧ 64 ≤ n ∧ n ≤ 1048576 ∧ n % 64 = 0 ∧
          o + n ≤ d.cmd.stored.bodyLen ∧ (kind = 1 → n ≤ 65536) ∧ (kind = 0 → readOk = true))) ∧
    (∃ h, canEnd (.fwFinish h) h 0x0A03 [] false (fun d => fwlBusy h d = false ∧ d.cmd.updOpen = true ∧ Config.hash 384 (bodyBytes d)
        = d.cmd.stored.bodyHash)) ∧
    (∃ h, canEnd (.fwStatus h) h 0x0A04 [] false (fun _ => True)) :=
  ⟨⟨_, 1048512, 64, 1, 64, [], false,
       run { live with cmd := { live.cmd with updOpen := true, stored := { bodyLen := 1048576 } } } (by decide +kernel) (by decide +kernel)⟩,
   ⟨_, run { live with cmd := { live.cmd with updOpen := true, stored := { bodyHash := Config.hash 384 [] } } } (by decide +kernel)
       ⟨(by decide +kernel), (by decide +kernel), rfl⟩⟩,
   ⟨_, run live (by decide +kernel) trivial⟩⟩

/-- The hypotheses of `QueueAndMailboxEventsComplete` can be met, clause by clause. -/
theorem witness_QueueAndMailboxEventsComplete :
    (∃ pair : Fin 16, ∃ v, canDo (.cmdSqTailWrite pair v) (fun d => isLive d = true)) ∧
    (∃ pair : Fin 16, ∃ v, canDo (.cmdCqHeadWrite pair v) (fun d => isLive d = true)) ∧
    (∃ pair : Fin 16, ∃ v, canDo (.cmdQueueEnable pair v) (fun d => isLive d = true)) ∧
    (∃ pair : Fin 16, ∃ v, canDo (.cmdQueueDisable pair v) (fun d => isLive d = true)) ∧
    (∃ pair : Fin 16, ∃ packet, let n : Nat := pair.val
          canDo (.cmdFetch pair packet) (fun d => let q := pairOf d n
          isLive d = true ∧ q.en = true ∧ q.stopped = false ∧ q.sqHead ≠ q.sqTail ∧ q.fetched.length < 992 ∧ d.gbl.linkUp = true ∧
          (funcOf d (8 ≤ n)).d3hot = false ∧ stalledIn d 4 = false)) ∧
    (∃ path, ∃ mbx word : Fin 16, ∃ v, let m : Nat := mbx.val
          canDo (.mbxDataWrite path mbx word v) (fun d => pathOpen d path = true ∧ mbxReach path m = true ∧ mbxIn m = true ∧
              (mboxOf d m).full = false)) ∧
    (∃ path, ∃ mbx : Fin 16, let m : Nat := mbx.val
          canDo (.mbxPost path mbx) (fun d => pathOpen d path = true ∧ mbxReach path m = true ∧ mbxIn m = true ∧ (mboxOf d m).full = false)) ∧
    (∃ path, ∃ mbx : Fin 16, let m : Nat := mbx.val
          canDo (.mbxTake path mbx) (fun d => pathOpen d path = true ∧ mbxReach path m = true ∧ mbxIn m = false ∧ (mboxOf d m).full = true)) ∧
    (∃ mbx : Fin 16, let m : Nat := mbx.val
          canDo (.mailboxTaken mbx) (fun d => isLive d = true ∧ mbxIn m = true ∧ (mboxOf d m).full = true ∧ (mboxOf d m).taken = none ∧
              (mboxOf d (m + 4)).replies = [] ∧
          mbxServed d m = true)) ∧
    (∃ mbx : Fin 16, ∃ b rest, let m : Nat := mbx.val
          canDo (.mailboxReplyPost mbx) (fun d => isLive d = true ∧ mbxIn m = false ∧ (mboxOf d m).replies = b :: rest ∧
              (mboxOf d m).full = false ∧ softRuns d = true)) ∧
    (∃ mbx : Fin 16, let m : Nat := mbx.val
          canDo (.mailboxStall mbx) (fun d => isLive d = true ∧ (mboxOf d m).full = true ∧ (mboxOf d m).stalled = false)) :=
  ⟨⟨15, 0, meet live (by decide +kernel)⟩,
   ⟨15, 0, meet live (by decide +kernel)⟩,
   ⟨15, 0, meet live (by decide +kernel)⟩,
   ⟨15, 0, meet live (by decide +kernel)⟩,
   ⟨15, [], meet { live with cmd := { live.cmd with queues := [(15, { en := true, sqTail := 1, seqFixed := true })] } } (by decide +kernel)⟩,
   ⟨.pf1, 11, 15, 0, meet live (by decide +kernel)⟩,
   ⟨.lbs, 8, meet live (by decide +kernel)⟩,
   ⟨.pf0, 4, meet { live with cmd := { live.cmd with mailboxes := [(4, { full := true })] } } (by decide +kernel)⟩,
   ⟨8, meet { live with cmd := { live.cmd with mailboxes := [(8, { full := true })] } } (by decide +kernel)⟩,
   ⟨12, [], [], meet { live with cmd := { live.cmd with mailboxes := [(12, { replies := [[]] })] } } (by decide +kernel)⟩,
   ⟨15, meet { live with cmd := { live.cmd with mailboxes := [(15, { full := true })] } } (by decide +kernel)⟩⟩

/-- The hypotheses of `SystemAndLogCommandsComplete` can be met, clause by clause. -/
theorem witness_SystemAndLogCommandsComplete :
    (canDo .fwWatchdog (fun d => isLive d = true ∧ d.cmd.fwUp = true ∧ d.cmd.fwRestarting = false ∧
          (d.cmd.watchdogs.filter fun t => optSince d t ≤ 60000).length < 2)) ∧
    (canDo .fwWatchdog (fun d => isLive d = true ∧ d.cmd.fwUp = true ∧ d.cmd.fwRestarting = false ∧
          2 ≤ (d.cmd.watchdogs.filter fun t => optSince d t ≤ 60000).length)) ∧
    (∃ b : StoredBatch, ∃ e, canDo .cfgReplayBatch (fun d => let r := d.cmd.replay
          isLive d = true ∧ r.running = true ∧ d.clk.pending = none ∧ d.clk.retiring = none ∧ softRuns d = true ∧
          d.cmd.store[r.next]? = some b ∧ replayTakes d b = true ∧ b.packets.length ≤ r.packet ∧
          genSwitch b.targetGen (BitVec.ofNat 48 (replayTick d / 3600)) (replayTick d % 3600) d = (e, some (.ok, [])))) ∧
    (canDo .cfgReplayBatch (fun d => let r := d.cmd.replay
          isLive d = true ∧ r.running = true ∧ d.clk.pending = none ∧ d.clk.retiring = none ∧ softRuns d = true ∧ d.cmd.store[r.next]? = none)) ∧
    (∃ b e, let kept := fun (d : Dev) => { d with cmd := { d.cmd with store := d.cmd.store ++ [b], storePending := none } }
          canDo .cfgStoreCommit (fun d => isLive d = true ∧ d.cmd.storePending = some b ∧ softRuns d = true ∧
              ((kept d).cmd.executing.find? fun e => e.op == 0x0105) = some e)) ∧
    (∃ t, canDo .sysResetDelayExpiry (fun d => isLive d = true ∧ d.pwr.resetDelay = some t)) ∧
    (canDo .memoryTestError (fun d => isLive d = true)) ∧
    (∃ h, canEnd (.sysIdentify h) h 0x0101 [] false (fun _ => True)) ∧
    (∃ h, ∃ chan : Byte, ∃ seq : W32, let n := chan.toNat
          canEnd (.cmdAbort h chan seq) h 0x0102 (pk chan ++ pk seq) false (fun d => n ≤ 23 ∧ (secureChan n = true → secureChan h.chan = true) ∧
              waitsOn (cmdCnt 4 d) n seq = true)) ∧
    (∃ h, ∃ chan : Byte, ∃ seq : W32, ∃ e, let n := chan.toNat
          canEnd (.cmdAbort h chan seq) h 0x0102 (pk chan ++ pk seq) false (fun d => let c := cmdCnt 4 d
          n ≤ 23 ∧ (secureChan n = true → secureChan h.chan = true) ∧ waitsOn c n seq = false ∧ executingOn c n = some e ∧
          e.hdr.seq = seq ∧ n ≠ h.chan ∧ e.abortable = true ∧ workOn c n e = true ∧ (c.key.update.any fun u => u.chan == n) = false)) ∧
    (∃ h, ∃ chan : Byte, ∃ seq : W32, ∃ e, let n := chan.toNat
          canEnd (.cmdAbort h chan seq) h 0x0102 (pk chan ++ pk seq) false (fun d => let c := cmdCnt 4 d
          n ≤ 23 ∧ (secureChan n = true → secureChan h.chan = true) ∧ waitsOn c n seq = false ∧ executingOn c n = some e ∧
          e.hdr.seq = seq ∧ n ≠ h.chan ∧ e.abortable = true ∧ (c.key.update.any fun u => u.chan == n) = true)) ∧
    (∃ h, ∃ chan : Byte, ∃ seq : W32, ∃ e, let n := chan.toNat
          canEnd (.cmdAbort h chan seq) h 0x0102 (pk chan ++ pk seq) false (fun d => let c := cmdCnt 4 d
          n ≤ 23 ∧ (secureChan n = true → secureChan h.chan = true) ∧ waitsOn c n seq = false ∧ executingOn c n = some e ∧
          e.hdr.seq = seq ∧ n ≠ h.chan ∧ (e.abortable = false ∨ workOn c n e = false))) ∧
    (∃ h data, canEnd (.sysNop h data) h 0x0103 data false (fun _ => data.length ≤ 48)) ∧
    (∃ h, ∃ delay : W32, canEnd (.sysReset h delay) h 0x0104 (pk delay) false (fun _ => delay.toNat ≤ 1000)) ∧
    (∃ h, ∃ addr : W64, ∃ len : W32, ∃ kind : Byte, ∃ batch given, let b := cut given 0 len.toNat
          let x : StoredBatch := { image := b }
          canEnd (.cfgStoreWrite h addr len kind batch true) h 0x0105 (pk addr ++ pk len ++ pk kind) (kind = 0) (fun d => ((kind = 0 ∧
              given = batch) ∨ (kind = 1 ∧ h.chan = 24 ∧ replaySection d addr.toNat = some given)) ∧
          d.cmd.storePending = none ∧ batchBad x = false ∧ x.schema = (runningImage d).schema ∧
          x.baseGen = storeBase d ∧ storeUsed d + b.length ≤ storeMax)) ∧
    (∃ h, canEnd (.cfgStoreClear h) h 0x0106 [] false (fun d => d.cmd.storePending = none)) ∧
    (∃ h, canEnd (.cfgStoreStatus h) h 0x0107 [] false (fun _ => True)) ∧
    (canDo .logFlushRun (fun d => isLive d = true ∧ (d.log.flushFault = true ∨ d.log.flushHalf = true) ∧ softRuns d = true)) ∧
    (∃ h, ∃ hostMin mramMin : Byte, canEnd (.logConfig h hostMin mramMin) h 0x0B01 (pk hostMin ++ pk mramMin) false (fun _ => hostMin.toNat ≤ 5 ∧
        mramMin.toNat ≤ 3)) ∧
    (∃ h, ∃ src : W32, ∃ fromOpt : W64, ∃ count : W32, ∃ buffered : Byte, ∃ addr : W64, canEnd (.logRead h src fromOpt count buffered 1 addr)
        h 0x0B02 (pk src ++ pk fromOpt ++ pk count ++ pk buffered ++ pk (1 : Byte) ++ pk addr) false (fun _ => src.toNat < 2 ^ 24 ∧
        fromOpt.toNat < 2 ^ 40 ∧ count ≠ 0 ∧ buffered.toNat ≤ 1)) ∧
    (∃ h, ∃ src : W32, ∃ fromOpt : W64, ∃ count : W32, ∃ buffered : Byte, ∃ addr : W64, canEnd (.logRead h src fromOpt count buffered 0 addr)
        h 0x0B02 (pk src ++ pk fromOpt ++ pk count ++ pk buffered ++ pk (0 : Byte) ++ pk addr) true (fun _ => src.toNat < 2 ^ 24 ∧
        fromOpt.toNat < 2 ^ 40 ∧ count ≠ 0 ∧ buffered.toNat ≤ 1)) ∧
    (∃ h, canEnd (.logStatus h) h 0x0B03 [] false (fun _ => True)) ∧
    (∃ h, ∃ maxSev : Byte, canEnd (.logClear h maxSev) h 0x0B04 (pk maxSev) false (fun d => d.tmp.presence = true ∧ maxSev.toNat ≤ 5)) ∧
    (∃ h, ∃ code : W16, ∃ sev : Byte, ∃ p1 p2 p3 : W32, canEnd (.logWrite h code sev p1 p2 p3)
        h 0x0B05 (pk code ++ pk sev ++ pk p1 ++ pk p2 ++ pk p3) false (fun _ => 0xF000 ≤ code.toNat ∧ sev.toNat ≤ 4)) ∧
    (∃ h, canEnd (.logFlush h) h 0x0B06 [] false (fun _ => True)) :=
  ⟨meet { live with cmd := { live.cmd with watchdogs := [0] } } (by decide +kernel),
   meet { live with cmd := { live.cmd with watchdogs := [0, 0] } } (by decide +kernel),
   ⟨batch0, _, meet { live with cmd := { live.cmd with store := [batch0], replay := { running := true } } } ⟨(by decide +kernel),
       (by decide +kernel), (by decide +kernel), (by decide +kernel), (by decide +kernel), (by decide +kernel), (by decide +kernel),
       (by decide +kernel), rfl⟩⟩,
   meet { live with cmd := { live.cmd with replay := { running := true } } } (by decide +kernel),
   ⟨batch0, exe 20 0x0105, meet { live with cmd := { live.cmd with storePending := some batch0, executing := [exe 20 0x0105] } } (by decide +kernel)⟩,
   ⟨0, meet { live with pwr := { live.pwr with resetDelay := some 0 } } (by decide +kernel)⟩,
   meet live (by decide +kernel),
   ⟨_, run live (by decide +kernel) trivial⟩,
   ⟨_, 23, 9,
       run { live with cmd := { live.cmd with mailboxes := [(inMbox 23, { taken := some { path := .pf0, packet := packetBytes { hdr 0 with chan := 23, seq := 9 } 0x0103 [] } })] } } (by decide +kernel) (by decide +kernel)⟩,
   ⟨_, 1, 9, exe 1 0x0411,
       run { live with cmd := { live.cmd with executing := [exe 1 0x0411] }, dir := { loads := [{ ldr 0 0 with chan := 1 }] } } (by decide +kernel) (by decide +kernel)⟩,
   ⟨_, 21, 9, exe 21 0x0902,
       run { live with cmd := { live.cmd with executing := [exe 21 0x0902] }, key := { update := some { chan := 21, seq := 9, msg := [], key := none } } } (by decide +kernel) (by decide +kernel)⟩,
   ⟨_, 1, 9, exe 1 0x0411, run { live with cmd := { live.cmd with executing := [exe 1 0x0411] } } (by decide +kernel) (by decide +kernel)⟩,
   ⟨_, List.replicate 48 0, run live (by decide +kernel) (by decide +kernel)⟩,
   ⟨_, 1000, run { live with tmp := { presence := true } } (by decide +kernel) (by decide +kernel)⟩,
   ⟨_, 64, 64, 0, laid 64 [(0, 4, 0x42484147), (4, 2, 1), (10, 2, 1), (60, 4, 0xAA5EFAC4)], laid 64 [(0, 4, 0x42484147), (4, 2, 1), (10, 2, 1),
       (60, 4, 0xAA5EFAC4)], run live (by decide +kernel) (by decide +kernel)⟩,
   ⟨_, run live (by decide +kernel) (by decide +kernel)⟩,
   ⟨_, run live (by decide +kernel) trivial⟩,
   meet { live with log := { flushHalf := true } } (by decide +kernel),
   ⟨_, 5, 3, run live (by decide +kernel) (by decide +kernel)⟩,
   ⟨_, 0xFFFFFF, 0xFFFFFFFFFF, 1, 1, 64, run live (by decide +kernel) (by decide +kernel)⟩,
   ⟨_, 0xFFFFFF, 0, 1, 1, 64, run live (by decide +kernel) (by decide +kernel)⟩,
   ⟨_, run live (by decide +kernel) trivial⟩,
   ⟨_, 5, run { live with tmp := { presence := true } } (by decide +kernel) (by decide +kernel)⟩,
   ⟨_, 0xF000, 4, 0, 0, 0, run live (by decide +kernel) (by decide +kernel)⟩,
   ⟨_, run live (by decide +kernel) trivial⟩⟩

/-- The hypotheses of `PairEventsComplete` can be met, clause by clause. -/
theorem witness_PairEventsComplete :
    (∃ b : Heartbeat, ∃ k, let e := fun (d : Dev) => { d with hrd := { d.hrd with actIn := b.actIn } }
          canDo (.heartbeatRx b) (fun d => isLive d = true ∧ b.sideband = true ∧ heartTick (e d) = some k ∧ (d.hrd.hbAt.any (k ≤ ·)) = false)) ∧
    (∃ b : Heartbeat, canDo (.heartbeatRx b) (fun d => isLive d = true ∧ b.sideband = false)) ∧
    (let t := wheelOrd
          let lost := fun (d : Dev) =>
          let e := bringTo d (ordNs (t d) + 2000)
          let e := { e with hrd := { e.hrd with
          hb := false, hbRun := 0, offset := 0, outage := some 2, lostSent := lastFits e.hrd.sentFit (t d), lostPeer :=
              lastFits e.hrd.peerFit (t d) } }
          let e := withdrawSwitch (refGone 4 (logEv 0x1402 (roleCode e.hrd.role) (logSec e e.tod.sec) 0 (setFlag 0x14 1 (hrdCnt 4 e))))
        if e.hrd.role = .standby then noteExit 2 e else e
          canDo .hbLost (fun d => isLive d = true ∧ d.hrd.hb = true ∧ tickHeard d (t d) = false ∧ tickHeard d (t d - 1) = false ∧
              (d.hrd.hbAt.any (t d < ·)) = false)) ∧
    (∃ health, canDo (.goingDownRx health) (fun d => isLive d = true)) ∧
    (canDo .pairingDecision (fun d => isLive d = true ∧ d.hrd.role = .pairing ∧ d.hrd.peerRole = .pairing ∧ d.hrd.hb = true ∧ 8 ≤ d.hrd.hbRun ∧
        d.hrd.roleDue = none ∧
          d.pwr.straps.priority ≠ d.hrd.peerPriority)) ∧
    (canDo .pairingDecision (fun d => isLive d = true ∧ d.hrd.role = .pairing ∧ d.hrd.peerRole = .pairing ∧ d.hrd.hb = true ∧ 8 ≤ d.hrd.hbRun ∧
        d.hrd.roleDue = none ∧
          d.pwr.straps.priority = d.hrd.peerPriority)) ∧
    (∃ t, canDo .pairWaitExpiry (fun d => isLive d = true ∧ d.hrd.role = .pairing ∧ d.hrd.peerHeard = false ∧ d.hrd.hb = false ∧
        d.hrd.pairWaitOp = some t)) ∧
    (∃ s, canDo .switchoverFreeze (fun d => isLive d = true ∧ d.hrd.switch = some s ∧ s.taker = false ∧ d.hrd.role = .active ∧ d.hrd.frozen = none)) ∧
    (∃ s, canDo .switchoverHandover (fun d => isLive d = true ∧ d.hrd.switch = some s ∧ s.taker = true ∧ d.hrd.role = .standby)) ∧
    (∃ s, canDo .switchoverHandover (fun d => isLive d = true ∧ d.hrd.switch = some s ∧ s.taker = false ∧ d.hrd.role = .active ∧
        d.hrd.frozen.isSome = true)) ∧
    (∃ c : XchkCell, ∃ x, canDo (.xchkCellRx c) (fun d => isLive d = true ∧ d.hrd.role = .standby ∧ (d.hrd.xrecords.find? fun x =>
            x.ostream = c.ostream.toNat && x.sec == c.sec && x.tick = c.tick.toNat && x.amend = c.amend.toNat) = some x ∧
          x.complete = true ∧ c.complete = true ∧ x.absent = c.absent)) ∧
    (canDo .herdLaneUp (fun d => isLive d = true)) ∧
    (canDo .herdLaneDown (fun d => isLive d = true)) ∧
    (∃ entries : List StateEntry, canDo (.herdStateCellRx entries) (fun d => isLive d = true)) ∧
    (∃ origin : Fin 4, ∃ packet, canDo (.forwardedCommandRx origin packet) (fun d => isLive d = true)) ∧
    (∃ chan : Fin 24, ∃ f, canDo (.forwardTimeout chan) (fun d => isLive d = true ∧
        (d.hrd.forwarded.find? fun f => f.hdr.chan == chan.val && f.there.isNone) = some f)) ∧
    (∃ chan : Fin 24, ∃ status : W16, ∃ order reply f, canDo (.forwardedCommandReply chan status order reply) (fun d => isLive d = true ∧
        (d.hrd.forwarded.find? fun f => f.hdr.chan == chan.val && f.there.isNone) = some f ∧ f.hdr.target = 1)) ∧
    (∃ chan : Fin 24, ∃ status : W16, ∃ order reply f x, canDo (.forwardedCommandReply chan status order reply) (fun d => isLive d = true ∧
        (d.hrd.forwarded.find? fun f => f.hdr.chan == chan.val && f.there.isNone) = some f ∧ f.hdr.target ≠ 1 ∧
          f.peerFirst = false ∧ f.here = some x)) ∧
    (∃ chan : Fin 24, ∃ status : W16, ∃ order reply f, canDo (.forwardedCommandReply chan status order reply) (fun d => isLive d = true ∧
        (d.hrd.forwarded.find? fun f => f.hdr.chan == chan.val && f.there.isNone) = some f ∧ f.hdr.target ≠ 1 ∧
          f.peerFirst = false ∧ f.here = none)) ∧
    (∃ chan : Fin 24, ∃ status : W16, ∃ order reply f, canDo (.forwardedCommandReply chan status order reply) (fun d => isLive d = true ∧
        (d.hrd.forwarded.find? fun f => f.hdr.chan == chan.val && f.there.isNone) = some f ∧ f.hdr.target ≠ 1 ∧
          f.peerFirst = true)) :=
  ⟨⟨beat, 0, meet live (by decide +kernel)⟩,
   ⟨{ beat with sideband := false }, meet live (by decide +kernel)⟩,
   meet { live with hrd := { hb := true } } (by decide +kernel),
   ⟨0, meet live (by decide +kernel)⟩,
   meet { live with hrd := { role := .pairing, peerRole := .pairing, hb := true, hbRun := 8, peerPriority := true } } (by decide +kernel),
   meet { live with hrd := { role := .pairing, peerRole := .pairing, hb := true, hbRun := 8 } } (by decide +kernel),
   ⟨0, meet { live with hrd := { role := .pairing, pairWaitOp := some 0 } } (by decide +kernel)⟩,
   ⟨swo true false, meet { live with hrd := { role := .active, switch := some (swo true false) } } (by decide +kernel)⟩,
   ⟨swo false true, meet { live with hrd := { role := .standby, switch := some (swo false true) } } (by decide +kernel)⟩,
   ⟨swo true false, meet { live with hrd := { role := .active, switch := some (swo true false), frozen := some {} } } (by decide +kernel)⟩,
   ⟨{ ostream := 3, sec := 0, tick := 0, amend := 0, complete := true, absent := [], crc := 6 }, xrec,
       meet { live with hrd := { role := .standby, xrecords := [xrec] } } (by decide +kernel)⟩,
   meet live (by decide +kernel),
   meet live (by decide +kernel),
   ⟨[], meet live (by decide +kernel)⟩,
   ⟨3, List.replicate 64 0, meet live (by decide +kernel)⟩,
   ⟨23, fwd 1, meet { live with hrd := { forwarded := [fwd 1] } } (by decide +kernel)⟩,
   ⟨23, 0, 1, [], fwd 1, meet { live with hrd := { forwarded := [fwd 1] } } (by decide +kernel)⟩,
   ⟨23, 0, 1, [], fwd 2, (.ok, []), meet { live with hrd := { forwarded := [fwd 2] } } (by decide +kernel)⟩,
   ⟨23, 0, 1, [], { fwd 2 with here := none }, meet { live with hrd := { forwarded := [{ fwd 2 with here := none }] } } (by decide +kernel)⟩,
   ⟨23, 0, 1, [], { fwd 2 with peerFirst := true },
       meet { live with hrd := { forwarded := [{ fwd 2 with peerFirst := true }] } } (by decide +kernel)⟩⟩

/-- The hypotheses of `PairCommandsComplete` can be met, clause by clause. -/
theorem witness_PairCommandsComplete :
    (∃ h, ∃ p : HrdConfigP, let f := fun (d : Dev) => { d with hrd := { d.hrd with
          enabled := decide (p.enable = 1), pairId := p.pairId, witnessMask := BitVec.ofNat 12 p.mask.toNat, pairWait := p.pairWait.toNat,
          timeOutStandby := p.timeOut = 1, auto := BitVec.ofNat 4 p.auto.toNat, asym := signed 48 p.asym.toNat } }
          canEnd (.hrdConfig h p) h 0x0C01 p.bytes false (fun d => hrdConfigBad p = false ∧ (d.hrd.role = .unpaired ∨ d.hrd.role = .pairing))) ∧
    (∃ h, canEnd (.hrdStatus h) h 0x0C02 [] false (fun _ => True)) ∧
    (∃ h, ∃ sec : W48, ∃ tick : W16, let t := tick.toNat
          canEnd (.hrdSwitchover h sec tick) h 0x0C03 (pk sec ++ pk tick) false (fun d => d.hrd.role = .active ∧ peerBit d 27 = true ∧ t ≤ 3599 ∧
              9 * nowNs d + 5000000 ≤ 9 * tickInst sec t ∧ d.hrd.switch = none)) ∧
    (∃ h s, canEnd (.hrdCancel h) h 0x0C04 [] false (fun d => d.hrd.switch = some s ∧ s.taker = false ∧ nowNs d < ordNs (tickOrd s.sec s.tick - 1))) ∧
    (∃ h, canEnd (.hrdUnfence h 0) h 0x0C05 (pk (0 : Byte)) false (fun d => d.hrd.role = .fenced ∧ d.hrd.hb = true)) ∧
    (∃ h, canEnd (.hrdUnfence h 1) h 0x0C05 (pk (1 : Byte)) false (fun d => d.hrd.role = .fenced ∨ d.hrd.role = .pairing)) ∧
    (∃ h, canEnd (.hrdUnpair h) h 0x0C06 [] false (fun d => d.hrd.role ≠ .standby)) ∧
    (∃ h, canEnd (.hrdDigestReset h) h 0x0C07 [] false (fun _ => h.target ≠ 2)) ∧
    (∃ h, canEnd (.hrdDigestReset h) h 0x0C07 [] false (fun _ => h.target = 2)) :=
  ⟨⟨_, { enable := 1, pairId := 1, mask := 0x0F00, pairWait := 60, timeOut := 1, auto := 15, asym := 6553600000 }, run live (by decide +kernel)
      (by decide +kernel)⟩,
   ⟨_, run live (by decide +kernel) trivial⟩,
   ⟨_, 0, 3, run { live with hrd := { role := .active, peerHealth := 0x08000000 } } (by decide +kernel) (by decide +kernel)⟩,
   ⟨_, swo true false, run { live with hrd := { role := .active, switch := some (swo true false) } } (by decide +kernel) (by decide +kernel)⟩,
   ⟨_, run { live with hrd := { role := .fenced, hb := true } } (by decide +kernel) (by decide +kernel)⟩,
   ⟨_, run { live with hrd := { role := .pairing } } (by decide +kernel) (by decide +kernel)⟩,
   ⟨_, run live (by decide +kernel) (by decide +kernel)⟩,
   ⟨_, run live (by decide +kernel) (by decide +kernel)⟩,
   ⟨{ hdr 0 with chan := 25, path := .pf0, target := 2 },
       { live with hrd := { arrived := [(25, packetBytes { hdr 0 with chan := 25, path := .pf0, target := 2 } 0x0C07 [])] } },
       passes_now (by decide +kernel), (by decide +kernel)⟩⟩

/-- The hypotheses of `HostInterfaceCommandsComplete` can be met, clause by clause. -/
theorem witness_HostInterfaceCommandsComplete :
    (∃ path, ∃ addr v : W32, ∃ enables, let a := addr.toNat / 4 * 4
          canDo (.registerWrite path addr v enables) (fun d => pathOpen d path = true ∧ isMapped path a = true ∧ (isLb path = true ∨ enables = 15)
              ∧ mbxAt path a = none ∧
          (isLb path = true → pcieOnly a = false))) ∧
    (∃ path, ∃ addr v : W32, ∃ enables m, let a := addr.toNat / 4 * 4
          canDo (.registerWrite path addr v enables) (fun d => pathOpen d path = true ∧ isMapped path a = true ∧ (isLb path = true ∨ enables = 15)
              ∧ mbxAt path a = some m)) ∧
    (∃ path, ∃ addr : W32, let a := addr.toNat / 4 * 4
          canDo (.rcRegisterRead path addr) (fun d => pathOpen d path = true ∧ isMapped path a = true ∧ lowRead path a d = none ∧
              isHighWord d path a = false)) ∧
    (∃ path, ∃ addr : W32, ∃ e, let a := addr.toNat / 4 * 4
          canDo (.multiwordLowRead path addr) (fun d => pathOpen d path = true ∧ isMapped path a = true ∧ lowRead path a d = some e)) ∧
    (∃ secure addr half, let path : Path := if secure then .lbs else .lb
          canDo (.lbHalfWrite secure addr false half) (fun d => d.pwr.straps.lbWidth = true ∧ pathOpen d path = true)) ∧
    (∃ secure, ∃ addr : W32, ∃ half : W16, let path : Path := if secure then .lbs else .lb
          canDo (.lbHalfWrite secure addr true half) (fun d => d.pwr.straps.lbWidth = true ∧ pathOpen d path = true)) ∧
    (∃ path, ∃ v : W32, canDo (.gblIntEoiWrite path v) (fun d => pathOpen d path = true)) ∧
    (∃ pf1, canDo (.pcieTlpError pf1 .unsupported) (fun d => isLive d = true ∧ d.gbl.linkUp = true)) ∧
    (∃ pf1, canDo (.pcieTlpError pf1 .malformed) (fun d => isLive d = true ∧ d.gbl.linkUp = true)) ∧
    (∃ pf1, canDo (.pcieTlpError pf1 .poisonedWrite) (fun d => isLive d = true ∧ d.gbl.linkUp = true)) ∧
    (∃ pf1, canDo (.pcieTlpError pf1 .poisonedCompletion) (fun d => isLive d = true ∧ d.gbl.linkUp = true)) ∧
    (∃ pf1, canDo (.pcieTlpError pf1 .completionTimeout) (fun d => isLive d = true ∧ d.gbl.linkUp = true)) ∧
    (∃ pf1, canDo (.pcieTlpError pf1 .longRead) (fun d => isLive d = true ∧ d.gbl.linkUp = true)) ∧
    (∃ pf1, canDo (.pcieTlpError pf1 .unexpectedCompletion) (fun d => isLive d = true ∧ d.gbl.linkUp = true)) ∧
    (∃ pf1, canDo (.pcieTlpError pf1 .correctable) (fun d => isLive d = true ∧ d.gbl.linkUp = true)) ∧
    (∃ pf1, canDo (.pcieTlpError pf1 .ecc) (fun d => isLive d = true ∧ d.gbl.linkUp = true)) ∧
    (∃ pf1, canDo (.pcieFlr pf1) (fun d => isLive d = true ∧ d.gbl.linkUp = true)) ∧
    (∃ pf1, canDo (.pcieD3hotEntry pf1) (fun d => isLive d = true ∧ d.gbl.linkUp = true ∧ (funcOf d pf1).d3hot = false)) ∧
    (canDo .pcieLinkDown (fun d => isLive d = true)) ∧
    (canDo .pciePerst (fun d => isLive d = true)) ∧
    (∃ speed width mps, canDo (.pcieLinkUp speed width mps) (fun d => isLive d = true)) ∧
    (∃ pf1, ∃ v : Fin 64, canDo (.msixVectorUnmask pf1 (some v)) (fun d => isLive d = true ∧ v.val < vectors pf1)) ∧
    (∃ pf1, canDo (.msixVectorUnmask pf1 none) (fun d => isLive d = true)) ∧
    (canDo .lbRst (fun d => isLive d = true)) ∧
    (canDo .lbTimeout (fun d => isLive d = true ∧ pathOpen d .lb = true)) :=
  ⟨⟨.lb, 0x14, 0, 15, meet live (by decide +kernel)⟩,
   ⟨.pf1, 0x18004, 0, 15, 8, meet live (by decide +kernel)⟩,
   ⟨.lbs, 0x10, meet live (by decide +kernel)⟩,
   ⟨.pf0, 0, _, meet live ⟨(by decide +kernel), (by decide +kernel), rfl⟩⟩,
   ⟨true, 0x10, 0, meet { live with pwr := { live.pwr with straps := { lbWidth := true } } } (by decide +kernel)⟩,
   ⟨false, 0x14, 0, meet { live with pwr := { live.pwr with straps := { lbWidth := true } } } (by decide +kernel)⟩,
   ⟨.pf1, 0, meet live (by decide +kernel)⟩,
   ⟨true, meet live (by decide +kernel)⟩,
   ⟨true, meet live (by decide +kernel)⟩,
   ⟨true, meet live (by decide +kernel)⟩,
   ⟨true, meet live (by decide +kernel)⟩,
   ⟨true, meet live (by decide +kernel)⟩,
   ⟨true, meet live (by decide +kernel)⟩,
   ⟨true, meet live (by decide +kernel)⟩,
   ⟨true, meet live (by decide +kernel)⟩,
   ⟨true, meet live (by decide +kernel)⟩,
   ⟨true, meet live (by decide +kernel)⟩,
   ⟨true, meet live (by decide +kernel)⟩,
   meet live (by decide +kernel),
   meet live (by decide +kernel),
   ⟨5, 16, 5, meet live (by decide +kernel)⟩,
   ⟨false, 63, meet live (by decide +kernel)⟩,
   ⟨true, meet live (by decide +kernel)⟩,
   meet live (by decide +kernel),
   meet live (by decide +kernel)⟩

/-- The hypotheses of `PowerCommandsComplete` can be met, clause by clause. -/
theorem witness_PowerCommandsComplete :
    (canDo .powerOn (fun d => isLive d = false)) ∧
    (canDo .porstN (fun d => isLive d = true)) ∧
    (canDo .brownOut (fun d => isLive d = true)) ∧
    (∃ straps, let rel := fun (d : Dev) =>
          let e := readLog (release straps d)
          loadPairing (logEv 0x1601 e.pwr.cause.toNat e.log.pcc.toNat (strapBits e) e)
          canDo (.resetRelease straps) (fun d => d.pwr.held = true ∧ d.pwr.supplies = true)) ∧
    (canDo .alignmentReady (fun d => isLive d = true ∧ d.pwr.run = .starting ∧ fwAccepts d = true ∧ firstSwitched d = true)) ∧
    (canDo .pfwAssert (fun d => isLive d = true ∧ d.pwr.pfw = false ∧ d.pwr.seqRun = false)) ∧
    (canDo .pfwRelease (fun d => isLive d = true ∧ d.pwr.pfw = true ∧ d.pwr.seqRun = false)) ∧
    (canDo .fwRestartDone (fun d => isLive d = true ∧ d.cmd.fwRestarting = true)) ∧
    (∃ sec tick, canDo .dormantEntry (fun d => isLive d = true ∧ d.pwr.dormAt = some (sec, tick) ∧ d.pwr.run = .entering ∧ d.pwr.pfw = false)) ∧
    (∃ sec tick, canDo .dormantExit (fun d => isLive d = true ∧ d.pwr.wokeTick = some (sec, tick) ∧ d.pwr.run = .waking)) ∧
    (∃ h, canEnd (.pwrDormant h) h 0x0130 [] false (fun d => (d.hrd.role = .unpaired ∨ d.hrd.role = .standby) ∧ d.pwr.run = .ready ∧
        d.pwr.pfw = false ∧ d.clk.pending = none ∧
          d.clk.retiring = none)) ∧
    (∃ h, canEnd (.pwrWake h) h 0x0131 [] false (fun d => dormantSpan d = true)) ∧
    (∃ h, canEnd (.pwrStatus h) h 0x0132 [] false (fun _ => True)) ∧
    (canDo .aonPowerLost (fun _ => True)) ∧
    (∃ vdd, canDo (.aonSourceChangeover vdd) (fun _ => True)) :=
  ⟨meet {} (by decide +kernel),
   meet live (by decide +kernel),
   meet live (by decide +kernel),
   ⟨{ priority := true, bootSrc := 3, lbWidth := true }, meet { pwr := { supplies := true } } (by decide +kernel)⟩,
   meet { live with pwr := { live.pwr with run := .starting } } (by decide +kernel),
   meet live (by decide +kernel),
   meet { live with pwr := { live.pwr with pfw := true } } (by decide +kernel),
   meet { live with cmd := { live.cmd with fwRestarting := true } } (by decide +kernel),
   ⟨0, 5, meet { live with pwr := { live.pwr with run := .entering, dormAt := some (0, 5) } } (by decide +kernel)⟩,
   ⟨0, 5, meet { live with pwr := { live.pwr with run := .waking, wokeTick := some (0, 5) } } (by decide +kernel)⟩,
   ⟨_, run live (by decide +kernel) (by decide +kernel)⟩,
   ⟨_, run { live with pwr := { live.pwr with run := .entering } } (by decide +kernel) (by decide +kernel)⟩,
   ⟨_, run live (by decide +kernel) trivial⟩,
   meet {} trivial,
   ⟨true, meet {} trivial⟩⟩


/-- KEY_UPDATE's and KEY_IDENTITY's packets pass, with no update and no life-cycle change in progress. -/
theorem witness_KeyAndTamperCommandsComplete_packets :
    (∃ h, ∃ addr : W64, ∃ len : W16, ∃ d, passes h 0x0902 (pk addr ++ pk len) true d ∧
      (started h 0x0902 (pk addr ++ pk len) d).key.update = none ∧ (started h 0x0902 (pk addr ++ pk len) d).key.changing = none) ∧
    (∃ h, ∃ addr : W64, ∃ len : W32, ∃ d, passes h 0x0905 (pk addr ++ pk len) true d) :=
  ⟨⟨hdr 10, 64, 1024, posted 0x0902 (pk (64 : W64) ++ pk (1024 : W16)) live, passes_now (by decide +kernel), (by decide +kernel)⟩, ⟨hdr 12, 64,
      4096, posted 0x0905 (pk (64 : W64) ++ pk (4096 : W32)) live, passes_now (by decide +kernel)⟩⟩

/-- FW_BEGIN's packet passes with a header that has no field out of range. -/
theorem witness_ImageStoreCommandsComplete_begin :
    ∃ h, ∃ kind : Byte, ∃ addr : W64, ∃ header readOk d, let p := pk kind ++ pk addr
      let e := started h 0x0A01 p d
      let b := fwSource e kind header 4096
      let x := imageHdrOf b
      passes h 0x0A01 p (kind = 0) d ∧ fwlBusy h e = false ∧ kind.toNat ≤ 1 ∧ (kind = 0 → readOk = true) ∧ imageHdrBad b = false ∧
        e.cmd.minSvn ≤ x.svn ∧ e.cmd.storeSchema ≤ x.schema ∧ x.minFawn ≤ e.cmd.fawnVersion :=
  ⟨hdr 9, 0, 64, image0, true, posted 0x0A01 (pk (0 : Byte) ++ pk (64 : W64)) live, passes_now (by decide +kernel), (by decide +kernel),
      (by decide +kernel), (by decide +kernel), (by decide +kernel), (by decide +kernel), (by decide +kernel), (by decide +kernel)⟩

/-- SYS_FW_RESTART's packet passes. -/
theorem witness_SystemAndLogCommandsComplete_restart : ∃ h d, passes h 0x0108 [] false d :=
  ⟨hdr 0, posted 0x0108 [] live, passes_now (by decide +kernel)⟩

/-- A witness decision is due. -/
theorem witness_PairEventsComplete_decision : ∃ (d : Dev) (t : Nat), isLive d = true ∧ d.hrd.witnessDue = some t :=
  ⟨{ live with hrd := { witnessDue := some 5 } }, 5, (by decide +kernel)⟩

/-! ### The statements over all commands -/

/-- A packet on non-secure mailbox 0 of PF0. -/
def openHdr (n : Nat) : Hdr := { hdr n with chan := 16, path := .pf0 }

/-- The device with a packet taken from that mailbox. -/
def postedOpen (op : Nat) (d : Dev) : Dev := setMbox d 0 { taken := some { path := .pf0, packet := packetBytes (openHdr 0) op [] } }

/-- The device with a packet of a header taken from secure mailbox 0. -/
def postedAs (h : Hdr) (op : Nat) (params : Bytes) (abort : Bool) (d : Dev) : Dev :=
  setMbox d 8 { taken := some { path := .pf1, packet := packetBytes h op params, abort := abort } }

/-- The device with a packet fetched on queue 0. -/
def fetchedOn (f : Fetched) (d : Dev) : Dev := { d with cmd := { d.cmd with queues := [(0, { en := true, seqFixed := true, fetched := [f] })] } }

/-- A packet on queue 0. -/
def queueHdr : Hdr := { hdr 0 with chan := 0, path := .pf0 }

theorem witness_StepRunsTheFrontCommand : ∃ (c : Instr) (rest : List Instr) (s : State), s.pending = c :: rest :=
  ⟨.tickStart, [], { dev := live, pending := [.tickStart] }, rfl⟩

theorem witness_EmptyQueueIdles : ∃ s : State, s.pending = [] ∧ s.dev.pwr.held = true := ⟨State.reset, rfl, rfl⟩

theorem witness_StepKeepsInterruptLines : ∃ s t : State, s.pending ≠ [] ∧ LinesFollow s.dev ∧ step s = .next t := by
  refine ⟨{ dev := {}, pending := [.tickStart] }, _, by simp, ?_, rfl⟩
  refine ⟨by decide +kernel, by decide +kernel, fun h => absurd h (by decide +kernel), fun _ => rfl, fun h => absurd h (by decide +kernel)⟩

theorem witness_CommandsSettleInterruptLines : ∃ (c : Instr) (s t : State), exec c s = .next t :=
  ⟨.memoryTestError, { dev := live, pending := [] }, _, runLive_next rfl⟩

theorem witness_HeldDeviceTakesNothingElse :
    ∃ (c : Instr) (s : State), s.dev.pwr.held = true ∧ c ≠ .powerOn ∧ c ≠ .brownOut ∧ (∀ x, c ≠ .resetRelease x) ∧ (∀ x, c ≠ .tamperDetected x) ∧
      c ≠ .presenceRecognised ∧ c ≠ .presenceReleased ∧ c ≠ .aonPowerLost ∧ (∀ x, c ≠ .aonSourceChangeover x) :=
  ⟨.tickStart, State.reset, rfl, by simp, by simp, by simp, by simp, by simp, by simp, by simp, by simp⟩

theorem witness_PacketsOutOfTurnHaveNoEffect :
    ∃ (c : Instr) (h : Hdr) (op : Nat) (params : Bytes) (hb : Bool) (s : State),
      packetOf c = some (h, op, params, hb) ∧ canAccept s.dev h op params = false :=
  ⟨.genStatus (hdr 0), _, _, _, _, { dev := live, pending := [] }, rfl, (by decide +kernel)⟩

theorem witness_AcceptanceRule : ∃ d h op params, canAccept d h op params = true ∧ bit h.flags.toNat 0 = true :=
  ⟨postedAs { hdr 0 with flags := 1 } 0x0113 [] false live, { hdr 0 with flags := 1 }, 0x0113, [], (by decide +kernel), (by decide +kernel)⟩

theorem witness_FailedChecksRefuse :
    (∃ (c : Instr) (h : Hdr) (op : Nat) (params : Bytes) (hb : Bool) (s : State) (st : Status),
      packetOf c = some (h, op, params, hb) ∧ canAccept s.dev h op params = true ∧ abortNamed s.dev h = false ∧ headerBad h = true ∧
      acceptFault s.dev h op params hb = some st) ∧
    (∃ (c : Instr) (h : Hdr) (op : Nat) (params : Bytes) (hb : Bool) (s : State) (st : Status),
      packetOf c = some (h, op, params, hb) ∧ canAccept s.dev h op params = true ∧ abortNamed s.dev h = false ∧ seqBad s.dev h = none ∧
      acceptFault s.dev h op params hb = some st) :=
  ⟨⟨.genStatus { hdr 0 with flags := 2 }, _, _, _, _, { dev := postedAs { hdr 0 with flags := 2 } 0x0113 [] false live, pending := [] }, .badParam,
    rfl, (by decide +kernel), (by decide +kernel), (by decide +kernel), (by decide +kernel)⟩,
   ⟨.tmpClear (openHdr 0), _, _, _, _, { dev := postedOpen 0x0911 live, pending := [] }, .notPermitted, rfl, (by decide +kernel),
       (by decide +kernel), (by decide +kernel), (by decide +kernel)⟩⟩

theorem witness_SequenceErrorsRefuse :
    (∃ (c : Instr) (h : Hdr) (op : Nat) (params : Bytes) (hb : Bool) (s : State) (e : W32),
      packetOf c = some (h, op, params, hb) ∧ canAccept s.dev h op params = true ∧ abortNamed s.dev h = false ∧ headerBad h = false ∧
      seqBad s.dev h = some e) ∧
    (∃ (pair : Fin 16) (packet : Bytes) (s : State), let q := pairOf s.dev pair.val
      isLive s.dev = true ∧ q.en = true ∧ q.stopped = false ∧ q.sqHead ≠ q.sqTail ∧ q.fetched.length < 992 ∧ s.dev.gbl.linkUp = true ∧
      (funcOf s.dev (8 ≤ pair.val)).d3hot = false ∧ stalledIn s.dev 4 = false ∧ q.seqFixed = true ∧ packetSeq packet ≠ q.seqNext) :=
  ⟨⟨.genStatus queueHdr, _, _, _, _, { dev := fetchedOn { packet := packetBytes queueHdr 0x0113 [], bad := some 5 } live, pending := [] }, 5,
    rfl, (by decide +kernel), (by decide +kernel), (by decide +kernel), (by decide +kernel)⟩,
   ⟨15, packetBytes queueHdr 0x0113 [],
    { dev := { live with cmd := { live.cmd with queues := [(15, { en := true, sqTail := 1, seqFixed := true })] } }, pending := [] },
        (by decide +kernel)⟩⟩

theorem witness_AbortedBeforeAcceptance :
    (∃ (c : Instr) (h : Hdr) (op : Nat) (params : Bytes) (hb : Bool) (s : State), packetOf c = some (h, op, params, hb) ∧
      canAccept s.dev h op params = true ∧ abortNamed s.dev h = true ∧ h.chan = 0) ∧
    (∃ (c : Instr) (h : Hdr) (op : Nat) (params : Bytes) (hb : Bool) (s : State), packetOf c = some (h, op, params, hb) ∧
      canAccept s.dev h op params = true ∧ abortNamed s.dev h = true ∧ h.chan = 20) :=
  ⟨⟨.genStatus queueHdr, _, _, _, _,
    { dev := fetchedOn { packet := packetBytes queueHdr 0x0113 [], bad := none, abort := true } live, pending := [] }, rfl, (by decide +kernel),
        (by decide +kernel), rfl⟩,
   ⟨.genStatus (hdr 0), _, _, _, _, { dev := postedAs (hdr 0) 0x0113 [] true live, pending := [] }, rfl, (by decide +kernel), (by decide +kernel),
       rfl⟩⟩

/-- What `ForwardedCommandsWaitForThePeer` asks of a packet. -/
abbrev forwards (h : Hdr) (op : Nat) (params : Bytes) (hb : Bool) (d : Dev) : Prop :=
  canAccept d h op params = true ∧ abortNamed d h = false ∧ seqBad d h = none ∧ acceptFault d h op params hb = none ∧ h.chan < 25

/-- A device whose Herd lane is up. -/
def paired : Dev := { live with hrd := { lane := .up } }

theorem witness_ForwardedCommandsWaitForThePeer :
    (∃ (c : Instr) (h : Hdr) (op : Nat) (params : Bytes) (hb : Bool) (d : Dev), packetOf c = some (h, op, params, hb) ∧
      forwards h op params hb d ∧ h.target = 1 ∧ blockOf c = none) ∧
    (∃ (c : Instr) (h : Hdr) (op : Nat) (params : Bytes) (hb : Bool) (d : Dev), packetOf c = some (h, op, params, hb) ∧
      forwards h op params hb d ∧ h.target = 2 ∧ op = 0x0110) ∧
    (∃ (c : Instr) (h : Hdr) (op : Nat) (params : Bytes) (hb : Bool) (d : Dev), packetOf c = some (h, op, params, hb) ∧
      forwards h op params hb d ∧ h.target = 2 ∧ op = 0x0111) ∧
    (∃ (c : Instr) (h : Hdr) (op : Nat) (params : Bytes) (hb : Bool) (d : Dev) (src : BlockSrc) (len : Nat) (given : Bytes),
      packetOf c = some (h, op, params, hb) ∧ forwards h op params hb d ∧ h.target = 1 ∧ blockOf c = some (src, len, given) ∧
      blockFault h src len = none) ∧
    (∃ (c : Instr) (h : Hdr) (op : Nat) (params : Bytes) (hb : Bool) (d : Dev) (src : BlockSrc) (len : Nat) (given : Bytes) (st : Status),
      packetOf c = some (h, op, params, hb) ∧ forwards h op params hb d ∧ h.target = 1 ∧ blockOf c = some (src, len, given) ∧
      blockFault h src len = some st) :=
  ⟨⟨.genStatus { hdr 0 with target := 1 }, _, _, _, _, postedAs { hdr 0 with target := 1 } 0x0113 [] false paired, rfl, (by decide +kernel), rfl,
      rfl⟩,
   ⟨.genSwitch { hdr 10 with target := 2 } 1 5 0, _, _, _, _,
    postedAs { hdr 10 with target := 2 } 0x0110 (pk (1 : W16) ++ pk (5 : W48) ++ pk (0 : W16)) false paired, rfl, (by decide +kernel), rfl, rfl⟩,
   ⟨.genCancel { hdr 0 with target := 2 }, _, _, _, _, postedAs { hdr 0 with target := 2 } 0x0111 [] false paired, rfl, (by decide +kernel), rfl,
       rfl⟩,
   ⟨.pubOstreamFmt { hdr 11 with target := 1 } (hostBlock 64) fmt3, _, _, _, _,
    postedAs { hdr 11 with target := 1 } 0x0510 (BlockSrc.bytes (hostBlock 64)) false paired, _, _, _, rfl, (by decide +kernel), rfl, rfl,
        (by decide +kernel)⟩,
   ⟨.pubOstreamFmt { hdr 11 with target := 1 } (hostBlock 63) fmt3, _, _, _, _,
    postedAs { hdr 11 with target := 1 } 0x0510 (BlockSrc.bytes (hostBlock 63)) false paired, _, _, _, .badLength, rfl, (by decide +kernel), rfl,
        rfl, (by decide +kernel)⟩⟩

/-- A header that the first check passes, with the premises of the clause. -/
def checkCase (w : Dev → Hdr → Nat → Bytes → Bool → Prop) : Prop :=
  ∃ d h op params hb, h.flags.toNat ≤ 1 ∧ h.status = 0 ∧ h.order = 0 ∧ w d h op params hb

/-- A command that the peer did not send and that passes the checks up to its length. -/
abbrev lengthFits (d : Dev) (h : Hdr) (op : Nat) (params : Bytes) (hb : Bool) : Prop :=
  permitted d h op params = true ∧ hb = false ∧ h.plen.toNat = params.length ∧ h.pad = true ∧ h.chan < 25

theorem witness_AcceptanceChecks :
    (∃ h : Hdr, 1 < h.flags.toNat) ∧ (∃ h : Hdr, h.status ≠ 0) ∧ (∃ h : Hdr, h.order ≠ 0) ∧
    checkCase (fun _ h op params _ => secureOnly op params = true ∧ secureChan h.chan = false) ∧
    checkCase (fun d h op params hb => permitted d h op params = true ∧ hb = true ∧ viaLocalBus h = true) ∧
    checkCase (fun d h op params hb => permitted d h op params = true ∧ hb = false ∧ h.plen.toNat ≠ params.length) ∧
    checkCase (fun d h op params _ => permitted d h op params = true ∧ viaLocalBus h = false ∧ h.pad = false) ∧
    checkCase (fun d h op params hb => lengthFits d h op params hb ∧ 2 < h.target.toNat) ∧
    checkCase (fun d h op params hb => lengthFits d h op params hb ∧ h.target = 1 ∧ op = 0x0102) ∧
    checkCase (fun d h op params hb => lengthFits d h op params hb ∧ h.target = 2 ∧ op / 256 = 0x09) ∧
    checkCase (fun d h op params hb => lengthFits d h op params hb ∧ h.target = 2 ∧ op / 256 = 0x0A) ∧
    checkCase (fun d h op params hb => lengthFits d h op params hb ∧ h.target = 1 ∧ d.hrd.lane ≠ .up) :=
  ⟨⟨{ hdr 0 with flags := 2 }, (by decide +kernel)⟩, ⟨{ hdr 0 with status := 1 }, (by decide +kernel)⟩, ⟨{ hdr 0 with order := 1 },
      (by decide +kernel)⟩,
   ⟨live, openHdr 0, 0x0911, [], false, (by decide +kernel)⟩, ⟨live, { hdr 12 with path := .lbs }, 0x0905, List.replicate 12 0, true,
       (by decide +kernel)⟩,
   ⟨live, hdr 1, 0x0113, [], false, (by decide +kernel)⟩, ⟨live, { hdr 0 with pad := false }, 0x0113, [], false, (by decide +kernel)⟩,
   ⟨live, { hdr 0 with target := 3 }, 0x0113, [], false, (by decide +kernel)⟩,
   ⟨live, { hdr 5 with target := 1 }, 0x0102, List.replicate 5 0, false, (by decide +kernel)⟩, ⟨live, { hdr 0 with target := 2 }, 0x0911, [],
       false, (by decide +kernel)⟩,
   ⟨live, { hdr 0 with target := 2 }, 0x0A03, [], false, (by decide +kernel)⟩, ⟨live, { hdr 0 with target := 1 }, 0x0113, [], false,
       (by decide +kernel)⟩⟩

/-! ### The rules -/

theorem witness_TicksDivideTheSecond : ∃ ns k, ns < 1000000000 ∧ k < 3600 ∧ tickOfNs ns = k := ⟨999999999, 3599, (by decide +kernel),
    (by decide +kernel), (by decide +kernel)⟩

theorem witness_CountersWrapAndReadWhole :
    ∃ (d u : Dev) (p : Path) (addr addr' : W32) (v w : W48), let a := addr.toNat / 4 * 4
      pathOpen d p = true ∧ isMapped p a = true ∧ counterAt d p a = some (v, true) ∧ addr'.toNat / 4 * 4 = a + 4 ∧ pathOpen u p = true ∧
      isMapped p (a + 4) = true ∧ counterAt u p (a + 4) = some (w, false) :=
  ⟨{ live with cnt := [(0, 0xFFFFFFFFFFFF)] }, live, .lb, 0x103, 0x104, 0xFFFFFFFFFFFF, 0, (by decide +kernel)⟩

theorem witness_PhaseAdjustmentsApplyExactly :
    (∃ h s n, canEnd (.timePhaseAdjust h s n) h 0x0203 (pk s ++ pk n) false fun _ => n = 0) ∧
    (∃ h s n, canEnd (.timePhaseAdjust h s n) h 0x0203 (pk s ++ pk n) false fun _ => n ≠ 0 ∧ 4 * n.toNat * 65536 < s.toInt.natAbs * 10000) ∧
    (∃ h s n, canEnd (.timePhaseAdjust h s n) h 0x0203 (pk s ++ pk n) false fun d =>
      n ≠ 0 ∧ s.toInt.natAbs * 10000 ≤ 4 * n.toNat * 65536 ∧ d.tod.adj.isSome = true) ∧
    (∃ h s n, canEnd (.timePhaseAdjust h s n) h 0x0203 (pk s ++ pk n) false fun d =>
      n ≠ 0 ∧ s.toInt.natAbs * 10000 ≤ 4 * n.toNat * 65536 ∧ d.tod.adj = none ∧ d.tod.state = .holdover) ∧
    (∃ (t : Tod) (s : Int) (n k : Nat), 0 < n ∧ n < 2 ^ 32 ∧ s.natAbs * 10000 ≤ 4 * n * 65536 ∧ t.adj = some { s := s, n := n, done := 0 } ∧
      t.ns.toNat < 1000000000 ∧ 2 ^ 40 ≤ t.inc.toNat ∧ fineCount t + n * t.inc.toNat + s.natAbs * 2 ^ 24 < 2 ^ 48 * 1000000000 * 2 ^ 40 ∧ k ≤ n ∧
      s < 0) :=
  ⟨⟨_, 0, 0, run live (by decide +kernel) (by decide +kernel)⟩, ⟨_, BitVec.ofInt 64 (-27), 1, run live (by decide +kernel) (by decide +kernel)⟩,
   ⟨_, 26, 1, run { live with tod := { adj := some { s := 5, n := 10, done := 0 } } } (by decide +kernel) (by decide +kernel)⟩,
   ⟨_, 26, 1, run { live with tod := { state := .holdover } } (by decide +kernel) (by decide +kernel)⟩,
   ⟨{ adj := some { s := -26, n := 1, done := 0 }, ns := 999999999 }, -26, 1, 1, (by decide +kernel)⟩⟩

theorem witness_GenCancelWithdrawsAndKeeps :
    (∃ h w d, passes h 0x0111 [] false d ∧ d.clk.pending = some w ∧ nowNs d < tickInst w.sec w.tick) ∧
    (∃ h, canEnd (.genCancel h) h 0x0111 [] false fun d => ∀ w, d.clk.pending = some w → tickInst w.sec w.tick ≤ nowNs d) :=
  ⟨⟨hdr 0, { gen := 1, sec := 5, tick := 0, entry := some 3 },
    posted 0x0111 [] { live with clk := { pending := some { gen := 1, sec := 5, tick := 0, entry := some 3 } } }, passes_now (by decide +kernel),
        (by decide +kernel), (by decide +kernel)⟩,
   ⟨_, run { live with clk := { pending := some { gen := 1, sec := 5, tick := 0, entry := none } }, tod := { sec := 5 } } (by decide +kernel)
     (fun w hw => by rw [← Option.some.inj (show some _ = some w from hw)]; decide +kernel)⟩⟩

/-- What `StagingRefusedWhileSwitchIsPending` asks of a command. -/
def refusedStaging (x : Hdr × Nat × Bytes × Bool) (c : Instr) (d : Dev) : Prop :=
  packetOf c = some x ∧ passes x.1 x.2.1 x.2.2.1 x.2.2.2 d ∧ d.clk.pending.isSome = true

/-- A device with a switch pending. -/
def switching : Dev := { live with clk := { pending := some { gen := 1, sec := 5, tick := 0, entry := none } } }

theorem witness_StagingRefusedWhileSwitchIsPending :
    (∃ c x d, refusedStaging x c d ∧ x.2.1 = 0x0112) ∧
    (∃ x src p d, refusedStaging x (.pubOstreamFmt x.1 src p) d ∧ blockFits src x.1 64) ∧
    (∃ x src p d, refusedStaging x (.pubTemplate x.1 src p) d ∧ blockFits src x.1 80) ∧
    (∃ x src b d, refusedStaging x (.oscConfig x.1 src b) d ∧ blockFits src x.1 128) ∧
    (∃ x src b d, refusedStaging x (.islConfig x.1 src b) d ∧ blockFits src x.1 64) :=
  ⟨⟨.genDiscardStaged (hdr 0), _, posted 0x0112 [] switching, ⟨rfl, passes_now (by decide +kernel), (by decide +kernel)⟩, rfl⟩,
   ⟨(hdr 11, _), hostBlock 64, fmt3, posted 0x0510 (BlockSrc.bytes (hostBlock 64)) switching, ⟨rfl, passes_now (by decide +kernel),
       (by decide +kernel)⟩, (by decide +kernel)⟩,
   ⟨(hdr 11, _), hostBlock 80, tpl3, posted 0x0511 (BlockSrc.bytes (hostBlock 80)) switching, ⟨rfl, passes_now (by decide +kernel),
       (by decide +kernel)⟩, (by decide +kernel)⟩,
   ⟨(hdr 11, _), hostBlock 128, oscBlock, posted 0x0610 (BlockSrc.bytes (hostBlock 128)) switching, ⟨rfl, passes_now (by decide +kernel),
       (by decide +kernel)⟩, (by decide +kernel)⟩,
   ⟨(hdr 11, _), hostBlock 64, islBlock, posted 0x0620 (BlockSrc.bytes (hostBlock 64)) switching, ⟨rfl, passes_now (by decide +kernel),
       (by decide +kernel)⟩, (by decide +kernel)⟩⟩

theorem witness_GenerationAfterReset :
    (∃ d, d = deviceReset 3 live) ∧ (∃ d : Dev, d.clk.firstBuilt = false ∧ d.clk.pending = none) := ⟨⟨_, rfl⟩, ⟨live, (by decide +kernel),
        (by decide +kernel)⟩⟩

theorem witness_ReleaseCountsPowerCycles :
    (∃ s : State, s.dev.pwr.held = true ∧ s.dev.pwr.supplies = true ∧ s.dev.log.pcc = 0xFFFFFF) ∧
    (∃ s : State, s.dev.pwr.held = true ∧ s.dev.pwr.supplies = false) :=
  ⟨⟨{ dev := { pwr := { supplies := true }, log := { pcc := 0xFFFFFF } }, pending := [] }, (by decide +kernel)⟩, ⟨State.reset, (by decide +kernel)⟩⟩

/-- A device with ring 31 running between two entries. -/
def ringing : Dev := { live with pub := { rings := [(31, { en := true, run := true, size := 64, head := 62, tail := 2 })] } }

theorem witness_HeadWritesOutsideStopTheRing :
    (∃ (r : Fin 32) (v : W32) (d : Dev), let g := ringOf d r.val
      let h := v.toNat % 2 ^ 24
      isLive d = true ∧ g.run = true ∧ h < g.size ∧ (h + g.size - g.head) % g.size = g.depth) ∧
    (∃ (r : Fin 32) (v : W32) (d : Dev), let g := ringOf d r.val
      let h := v.toNat % 2 ^ 24
      isLive d = true ∧ g.run = true ∧ h < g.size ∧ (h + g.size - g.head) % g.size = g.depth + 1) ∧
    (∃ (r : Fin 32) (v : W32) (d : Dev), isLive d = true ∧ (ringOf d r.val).run = true ∧ v.toNat % 2 ^ 24 = (ringOf d r.val).size) ∧
    (∃ (r : Fin 32) (d : Dev), (ringOf d r.val).run = false) :=
  ⟨⟨31, 2, ringing, (by decide +kernel)⟩, ⟨31, 3, ringing, (by decide +kernel)⟩, ⟨31, 64, ringing, (by decide +kernel)⟩, ⟨31, live,
      (by decide +kernel)⟩⟩

theorem witness_FullMailboxesRejectWrites :
    (∃ p, ∃ m : Fin 16, ∃ d, pathOpen d p = true ∧ mbxReach p m.val = true ∧ mbxIn m.val = false) ∧
    (∃ p, ∃ m : Fin 16, ∃ d, pathOpen d p = true ∧ mbxReach p m.val = true ∧ mbxIn m.val = true ∧ (mboxOf d m.val).full = true) ∧
    (∃ p, ∃ m : Fin 16, ∃ d, pathOpen d p = true ∧ mbxReach p m.val = true ∧ mbxIn m.val = false ∧ (mboxOf d m.val).full = false) :=
  ⟨⟨.pf0, 7, live, (by decide +kernel)⟩, ⟨.pf1, 11, { live with cmd := { live.cmd with mailboxes := [(11, { full := true })] } },
      (by decide +kernel)⟩, ⟨.lbs, 15, live, (by decide +kernel)⟩⟩

theorem witness_UnmappedAndPartialAccesses :
    (∃ p, ∃ addr : W32, ∃ d, pathOpen d p = true ∧ isMapped p (addr.toNat / 4 * 4) = false) ∧
    (∃ p, ∃ addr : W32, ∃ d, ∃ en : BitVec 4, pathOpen d p = true ∧ isMapped p (addr.toNat / 4 * 4) = true ∧ isLb p = false ∧ en ≠ 15) :=
  ⟨⟨.lb, 0x1FFFFFC, live, (by decide +kernel)⟩, ⟨.pf1, 0x14, live, 14, (by decide +kernel)⟩⟩

theorem witness_FlagsClearByWritingOne :
    (∃ w i : Nat, i < w) ∧ (∃ d, pathOpen d .pf0 = true) ∧ (∃ d, pathOpen d .lb = true) ∧ (∃ d, pathOpen d .pf1 = true) ∧ (∃ d,
        pathOpen d .lbs = true) :=
  ⟨⟨9, 8, (by decide +kernel)⟩, ⟨live, (by decide +kernel)⟩, ⟨live, (by decide +kernel)⟩, ⟨live, (by decide +kernel)⟩, ⟨live, (by decide +kernel)⟩⟩

theorem witness_TamperZeroizes :
    (∃ (x : Byte) (d : Dev), x.toNat.land (tamperArmed d) ≠ 0 ∧ d.pwr.held = false ∧ d.pwr.run = .starting) ∧
    (∃ (x : Byte) (d : Dev), x.toNat.land (tamperArmed d) ≠ 0 ∧ d.pwr.held = false ∧ d.pwr.run ≠ .starting) ∧
    (∃ (x : Byte) (d : Dev), x.toNat.land (tamperArmed d) ≠ 0 ∧ d.pwr.held = true) ∧
    (∃ (x : Byte) (d : Dev), x.toNat.land (tamperArmed d) = 0) :=
  ⟨⟨1, { live with tmp := { enabled := 1, count := 0xFFFF }, pwr := { live.pwr with run := .starting } }, (by decide +kernel)⟩,
   ⟨0x10, { live with tmp := { enabled := 0x10 } }, (by decide +kernel)⟩, ⟨8, { tmp := { enabled := 8 } }, (by decide +kernel)⟩, ⟨0xFF, live,
       (by decide +kernel)⟩⟩

theorem witness_PresenceGuards :
    (∃ h, canEnd (.tmpClear h) h 0x0911 [] false fun d => d.tmp.presence = false) ∧
    (∃ h, ∃ mask : Byte, canEnd (.mtrClear h mask) h 0x0727 (pk mask) false fun d => d.tmp.presence = false) ∧
    (∃ h, ∃ sev : Byte, canEnd (.logClear h sev) h 0x0B04 (pk sev) false fun d => d.tmp.presence = false) ∧
    (∃ h loops, ∃ internal : Byte, canEnd (.tmpConfig h loops internal) h 0x0910 (cut loops 0 4 ++ pk internal) false fun d =>
      d.tmp.presence = false ∧ ((cut loops 0 4).any loopBad) = false ∧ internal &&& 0x8F = 0 ∧
      tmpWeakens d (tmpEnables loops internal) (tmpFilters loops) = true) :=
  ⟨⟨_, run live (by decide +kernel) (by decide +kernel)⟩, ⟨_, 0xFF, run live (by decide +kernel) (by decide +kernel)⟩, ⟨_, 5,
      run live (by decide +kernel) (by decide +kernel)⟩,
   ⟨_, [0, 0, 0, 0], 0, run { live with tmp := { enabled := 1 } } (by decide +kernel) (by decide +kernel)⟩⟩

theorem witness_LogRecordLayout : ∃ d : Dev, d.log.mramMin = 0 ∧ d.log.buffer.length < 4096 := ⟨{ live with log := { mramMin := 0 } },
    (by decide +kernel)⟩

theorem witness_RepliesContinueInEntries :
    ∃ (op st : Nat) (reply : Bytes) (i : Nat) (e : Bytes), op < 65536 ∧ st < 65536 ∧ reply.length = 720 ∧
      (replyEntries op 0 0 st 0 reply)[i]? = some e ∧ i = 14 :=
  ⟨0xFFFF, 0xFFFF, List.replicate 720 0, 14, (replyEntries 0xFFFF 0 0 0xFFFF 0 (List.replicate 720 0)).getD 14 [], (by decide +kernel),
      (by decide +kernel), (by decide +kernel), (by decide +kernel), rfl⟩

/-! ### Ill-formed commands are refused -/

/-- A command packet with this header. -/
def packetWith (chan : Nat) (path : Path) : Instr := .genStatus { hdr 0 with chan := chan, path := path }

theorem wf_channels : (packetWith 29 .pf0).wf = false ∧ (packetWith 28 .pf0).wf = true := by decide

theorem wf_paths :
    (packetWith 0 .pf1).wf = false ∧ (packetWith 8 .pf0).wf = false ∧ (packetWith 16 .pf1).wf = false ∧ (packetWith 20 .lb).wf = false ∧
    (packetWith 7 .pf0).wf = true ∧ (packetWith 15 .pf1).wf = true ∧ (packetWith 19 .lb).wf = true ∧ (packetWith 23 .lbs).wf = true := by decide

/-- A sentence of a second. -/
def sentence (month day hour minute second year : Nat) : Instr :=
  .todSerInSentence { valid := true, year := year, month := month, day := day, hour := hour, minute := minute, second := second, afterMs := 10 }

theorem wf_sentences :
    (sentence 12 31 23 59 60 9999).wf = true ∧ (sentence 0 1 0 0 0 0).wf = false ∧ (sentence 13 1 0 0 0 0).wf = false ∧
    (sentence 1 0 0 0 0 0).wf = false ∧ (sentence 1 32 0 0 0 0).wf = false ∧ (sentence 1 1 24 0 0 0).wf = false ∧
    (sentence 1 1 0 60 0 0).wf = false ∧ (sentence 1 1 0 0 61 0).wf = false ∧ (sentence 1 1 0 0 0 10000).wf = false := by decide

theorem wf_lists :
    (Instr.timeLeapSet (hdr 0) (List.replicate 256 { t := 0, off := 0 })).wf = false ∧
    (Instr.portMcastList (hdr 0) 0 0 (List.replicate 256 0)).wf = false ∧ (Instr.almLimitWrite (hdr 0) 1 (List.replicate 31 0)).wf = false ∧
    (Instr.lchWrite (hdr 0) 0 (List.replicate 33 0)).wf = false ∧ (Instr.capSkew (hdr 0) 0 (List.replicate 256 0)).wf = false ∧
    (Instr.localSample []).wf = false ∧ (Instr.auxSeq (hdr 0) 0 (List.replicate 33 0)).wf = false ∧
    (Instr.auxInjected (hdr 0) 0 0 (List.replicate 33 0)).wf = false ∧ (Instr.keyAttest (hdr 0) 0 [] 0).wf = false ∧
    (Instr.tmpConfig (hdr 0) [0, 0, 0] 0).wf = false ∧ (Instr.sysNop (hdr 0) (List.replicate 49 0)).wf = false := by decide +kernel

/-! ### The spec's own numbers -/

/-- Ticks of chapter 1: tick 1 begins at 277,777 ns, tick 2 at 555,555 ns, tick 936 at 260,000,000 ns, tick 1,080 at 300,000,000 ns. -/
theorem test_tick_starts :
    tickStartNs 1 = 277777 ∧ tickStartNs 2 = 555555 ∧ tickStartNs 936 = 260000000 ∧ tickStartNs 1080 = 300000000 ∧ tickOfNs 260000000 = 936 :=
        by decide

/-- Table 2-12: X is a midnight, the insertion takes effect at T = X + 38. -/
def leaps : List LeapEntry := [{ t := 37, off := 37 }, { t := 1767225638, off := 38 }]

theorem test_leap_second :
    utcOf leaps 1767225636 = (1767225599, false) ∧ utcOf leaps 1767225637 = (1767225600, true) ∧ utcOf leaps 1767225638 = (1767225600, false) := by
  decide +kernel

theorem test_leap_flags :
    leapFlags leaps 1767225576 = (false, false, false) ∧ leapFlags leaps 1767225577 = (true, false, false) ∧
    leapFlags leaps 1767225637 = (true, false, false) ∧ leapFlags leaps 1767225638 = (false, true, false) ∧
    leapFlags leaps 1767312038 = (false, false, false) := by decide +kernel

/-- Channel 50,809 of chapter 5. -/
def ent50809 : DirEntry := { q0 := 0x1200845000200000, q1 := 0x0004000C48618700, q2 := 0x0003540000000000, q3 := 0x0000000000000041 }

theorem test_directory_entry :
    ent50809.type = 1 ∧ ent50809.format = 2 ∧ ent50809.stream = 2117 ∧ ent50809.pos = 2 ∧ ent50809.scale = 4 ∧ ent50809.limit = 12 ∧
    ent50809.pubsel = 3 ∧ hrateOf ent50809.hrate = 50 ∧ ent50809.est = true ∧ writeFault ent50809 = none := by decide +kernel

/-- The conversions of chapter 4: FREQ -12 at 50 Hz is 49.988 Hz, DFREQ 5 is 0.05 Hz/s, and a phasor of 0x8000 is absent. -/
theorem test_conversions :
    convert { ent0 with q0 := 0x2500000000000000 } { k := 0, b := 0, theta0 := 0, mask := 0, flags := 0, res := 0, const := 0 } [0xFF, 0xF4] =
      0x4048FE76C8B43958 ∧
    convert { ent0 with q0 := 0x3500000000000000 } { k := 0, b := 0, theta0 := 0, mask := 0, flags := 0, res := 0, const := 0 } [0, 5] =
      0x3FA999999999999A ∧
    convert { ent0 with q0 := 0x1200000000000000 } { k := 0, b := 0, theta0 := 0, mask := 0, flags := 0, res := 0, const := 0 } [0x80, 0, 0, 0] =
      0x7FF8000100000000 := by decide +kernel

/-- The phase A voltage of chapter 4: 57,735 at -10,472 with K = 4 V is 115,469.5 - j 200,000.2 V, here as the two binary32 values nearest to
230,940 cos(-1.0472) and 230,940 sin(-1.0472). -/
theorem test_polar_phasor :
    convert { ent0 with q0 := 0x1200000000000000 } { k := 0x4010000000000000, b := 0, theta0 := 0, mask := 0, flags := 0, res := 0, const := 0 }
      [0xE1, 0x87, 0xD7, 0x18] = 0x47E186C1C843500C := by decide +kernel

/-- The group delays of chapter 13: (by decide +kernel) 25 and R 64 give 235.458 µs, and 241.858 µs with the median stage. -/
theorem test_group_delays : groupDelay 25 64 false / 1000 = 235458 ∧ groupDelay 25 64 true / 1000 = 241858 := by decide +kernel

/-- The landing plan of chapter 6: a PMU of 24 channels at 50 frames/s takes 100 positions of 2 blocks for a MAX_WAIT of 2 s. -/
theorem test_landing_plan :
    landPlan { live with staged := { streams := [(1, { strm .c37Udp with count := 24 })], os := [(3, { ost with maxWait := 2000000 })],
                                     membs := [(0, { ostream := 3, stream := 1, sel := 0, wait := true, decimate := false })] } } =
      [(1, { depth := 100, bpr := 2, base := 0 })] := by decide +kernel

/-- The shards of chapter 7: 400 blocks of 84 bytes in frames of 8,954 bytes. -/
theorem test_shards : (intoShards (fun _ : Nat => 84) 16 8954 (List.replicate 400 0)).map List.length = [106, 106, 106, 82] := by decide +kernel

/-- Table 19-11: the second write to mailbox 0 is rejected, and MBX_STAT_0 reads EMPTY_EV and REJECT once the message is taken. -/
theorem test_mailbox_status : mbxStat { emptyEv := true, reject := true } = 0x28 := by decide

/-- Table 19-11: SYS_IDENTIFY answers through mailbox 4 with OPCODE 0x0101, SEQ 7, PLEN 27 and STATUS OK. -/
theorem test_identify :
    (match exec (.sysIdentify (openHdr 0)) { dev := postedOpen 0x0101 live, pending := [] } with
      | .next t => (mboxOf t.dev 4).replies.map fun e => (leAt e 0 2, leAt e 4 4, leAt e 8 2, leAt e 10 2)
      | _ => []) = [(0x0101, 7, 27, 0)] := by decide +kernel

/-- A step takes the front command and leaves the rest. -/
theorem test_step_takes_the_front :
    (match step { dev := live, pending := [.memoryTestError, .tickStart] } with | .next t => t.pending.length | _ => 0) = 1 := by decide +kernel

end Sys2Proof.Tests
end

section
/-!
Proofs of the statements of chapter 0: the wheel (R2), counters and values of several words (R12, R13) and flags registers (R11).
-/
namespace Sys2Proof.Proofs.Scope

open Sys2Proof Sys2Proof.Machine Sys2Proof.Laws

/-! ### The wheel (R2) -/

/-- A tick has begun at a nanosecond where its start, rounded down, is not after it. -/
theorem tickStartNs_le_iff (k ns : Nat) : tickStartNs k ≤ ns ↔ k * 2500000 ≤ 9 * ns + 8 := by
  unfold tickStartNs
  omega

/-- The tick that holds a nanosecond is the last one that has begun. -/
theorem tickOfNs_eq_iff (ns k : Nat) : tickOfNs ns = k ↔ tickStartNs k ≤ ns ∧ ns < tickStartNs (k + 1) := by
  rw [← Nat.not_le, tickStartNs_le_iff, tickStartNs_le_iff]
  unfold tickOfNs
  omega

/-- A tick lasts 277,777 or 277,778 ns. -/
theorem tickStartNs_succ_sub (k : Nat) :
    tickStartNs (k + 1) - tickStartNs k = 277777 ∨ tickStartNs (k + 1) - tickStartNs k = 277778 := by
  unfold tickStartNs
  omega

/-- Settles O44: both roundings are those of k × 2,500,000 / 9, so the wheel is linear arithmetic. -/
theorem ticksDivideTheSecond : Obligations.TicksDivideTheSecond := by
  unfold Obligations.TicksDivideTheSecond
  refine ⟨fun _ _ => rfl, rfl, rfl, fun k _ => tickStartNs_succ_sub k, fun ns k _ _ => tickOfNs_eq_iff ns k, fun ns h => ?_⟩
  unfold tickOfNs
  omega

/-! ### Counters (R12) -/

/-- A counter's key tells its block, port and index. -/
theorem cntKey_inj {b p i b' p' i' : Nat} (hp : p < 256) (hp' : p' < 256) (hi : i < 256) (hi' : i' < 256)
    (h : cntKey b' p' i' = cntKey b p i) : (b', p', i') = (b, p, i) := by
  unfold cntKey at h
  simp only [Prod.mk.injEq]
  omega

/-- A counted event adds to its own counter, modulo 2^48. -/
theorem mget_bumpAt_same (d : Dev) (b p i n : Nat) :
    mget 0 (bumpAt d b p i n).cnt (cntKey b p i) = mget 0 d.cnt (cntKey b p i) + BitVec.ofNat 48 n :=
  mget_mput_same 0 d.cnt (cntKey b p i) _

/-- A counted event leaves the counters under every other key alone. -/
theorem mget_bumpAt_other (d : Dev) {b p i k : Nat} (n : Nat) (h : k ≠ cntKey b p i) :
    mget 0 (bumpAt d b p i n).cnt k = mget 0 d.cnt k :=
  mget_mput_other 0 d.cnt _ h

/-! ### What a register read leaves: its data and the shadows (R13) -/

/-- The data that the last read returned, and the shadow of each access path. -/
def readSide (d : Dev) : W32 × (Path → Shadow) := (d.gbl.lastRead, shadowOf d)

theorem readSide_ext {d e : Dev} (hr : e.gbl.lastRead = d.gbl.lastRead) (h0 : e.gbl.pf0.shadow = d.gbl.pf0.shadow)
    (h1 : e.gbl.pf1.shadow = d.gbl.pf1.shadow) (hl : e.gbl.lbShadow = d.gbl.lbShadow) : readSide e = readSide d := by
  refine Prod.ext hr (funext fun p => ?_)
  cases p with
  | pf0 => exact h0
  | pf1 => exact h1
  | lb | lbs => exact hl

theorem readSide_setFunc {d : Dev} {b : Bool} {f : Func} (h : f.shadow = (funcOf d b).shadow) :
    readSide (setFunc d b f) = readSide d := by
  cases b with
  | false => exact readSide_ext rfl h rfl rfl
  | true => exact readSide_ext rfl rfl h rfl

@[simp] theorem readSide_withSummary (b on : Bool) (d : Dev) : readSide (withSummary b on d) = readSide d := readSide_setFunc rfl
@[simp] theorem readSide_withWindows (a b : Bool) (d : Dev) : readSide (withWindows a b d) = readSide d := readSide_ext rfl rfl rfl rfl
@[simp] theorem readSide_withIntN (b : Bool) (d : Dev) : readSide (withIntN b d) = readSide d := readSide_ext rfl rfl rfl rfl

@[simp] theorem readSide_sendMsix (b : Bool) (v : Nat) (d : Dev) : readSide (sendMsix b v d) = readSide d := by
  obtain ⟨p, h⟩ | h | h := sendMsix_cases b v d <;> rw [h]
  · exact readSide_setFunc rfl
  · exact readSide_ext rfl rfl rfl rfl

@[simp] theorem readSide_settleFunc (b : Bool) (d : Dev) : readSide (settleFunc b d) = readSide d := by
  obtain ⟨e, rfl, h | h⟩ := settleFunc_cases b d <;> simp [h]

@[simp] theorem readSide_settleIntN (d : Dev) : readSide (settleIntN d) = readSide d := by
  unfold settleIntN
  split
  · simp
  · split <;> simp

/-- Following the interrupt outputs changes neither the data read nor a shadow. -/
@[simp] theorem readSide_settle (d : Dev) : readSide (settle d) = readSide d := by
  unfold settle
  dsimp only
  rw [readSide_settleIntN, readSide_withWindows]
  split <;> simp

@[simp] theorem readSide_accessOk (p : Path) (d : Dev) : readSide (accessOk p d) = readSide d := by
  unfold accessOk
  split
  · exact readSide_ext rfl rfl rfl rfl
  · rfl

@[simp] theorem readSide_keepHalf (p : Path) (d : Dev) : readSide (keepHalf p d) = readSide d := by
  unfold keepHalf
  split
  · exact readSide_ext rfl rfl rfl rfl
  · rfl

/-! ### Shadows -/

@[simp] theorem shadowOf_readAs (v : Nat) (d : Dev) : shadowOf (readAs v d) = shadowOf d := by
  funext p
  cases p <;> rfl

@[simp] theorem shadowOf_setShadow_same (p : Path) (x : Shadow) (d : Dev) : shadowOf (setShadow p x d) p = x := by
  cases p <;> rfl

/-- Of the other paths, only the other local-bus window shares a local-bus window's shadow (R507). -/
theorem shadowOf_setShadow_other {p q : Path} (x : Shadow) (d : Dev) (hq : q ≠ p) (hl : ¬ (isLb p = true ∧ isLb q = true)) :
    shadowOf (setShadow p x d) q = shadowOf d q := by
  cases p with
  | pf0 => cases q with
    | pf0 => exact absurd rfl hq
    | pf1 | lb | lbs => rfl
  | pf1 => cases q with
    | pf1 => exact absurd rfl hq
    | pf0 | lb | lbs => rfl
  | lb | lbs => cases q with
    | pf0 | pf1 => rfl
    | lb | lbs => exact absurd ⟨rfl, rfl⟩ hl

/-- A latching read adds the further words, given the advanced SEQ, to those of the path's shadow. -/
theorem latchRead_words (p : Path) (a : Nat) (low : Nat → Nat) (more : Nat → List (Nat × Nat)) (d : Dev) :
    (shadowOf (latchRead p a low more d) p).words =
      (more (mget 0 (shadowOf d p).seq a + 1).toNat).foldl (fun m e => mput 0 m e.1 (BitVec.ofNat 32 e.2)) (shadowOf d p).words := by
  rw [latchRead, shadowOf_readAs, shadowOf_setShadow_same]

/-! ### Counters read in two words (R12, R13) -/

/-- SEQ and count bits 23 to 0 fill the low word. -/
theorem lowWord_lt (c : W48) (n : Byte) : c.toNat % 2 ^ 24 * 256 + n.toNat < 2 ^ 32 := by
  have hn := n.isLt
  omega

/-- SEQ and count bits 47 to 24 fill the high word. -/
theorem highWord_lt (c : W48) (n : Byte) : n.toNat * 2 ^ 24 + c.toNat / 2 ^ 24 < 2 ^ 32 := by
  have hn := n.isLt
  have hc := c.isLt
  omega

section
variable {p : Path} {a : Nat} {v : W48} {d : Dev}

/-- The low word holds the count's bits 23 to 0 and the advanced SEQ. -/
theorem counterRead_lastRead :
    (counterRead p a v d).gbl.lastRead.toNat = v.toNat % 2 ^ 24 * 256 + (mget 0 (shadowOf d p).seq a + 1).toNat :=
  (BitVec.toNat_ofNat _ 32).trans (Nat.mod_eq_of_lt (lowWord_lt v _))

/-- The high word is latched in the shadow of the path, with the same SEQ. -/
theorem counterRead_latches :
    (mget 0 (shadowOf (counterRead p a v d) p).words (a + 4)).toNat =
      (mget 0 (shadowOf d p).seq a + 1).toNat * 2 ^ 24 + v.toNat / 2 ^ 24 := by
  rw [counterRead, latchRead_words, List.foldl_cons, List.foldl_nil, mget_mput_same, BitVec.toNat_ofNat,
    Nat.mod_eq_of_lt (highWord_lt v _)]

/-- A counter's read leaves the shadows of the other paths as they were. -/
theorem counterRead_shadow_other {q : Path} (hq : q ≠ p) (hl : ¬ (isLb p = true ∧ isLb q = true)) :
    shadowOf (counterRead p a v d) q = shadowOf d q := by
  rw [counterRead, latchRead, shadowOf_readAs, shadowOf_setShadow_other _ _ hq hl]

/-- A word of the shadow is read whole. -/
theorem shadowRead_lastRead : (shadowRead p a d).gbl.lastRead = mget 0 (shadowOf d p).words a := by
  simp only [shadowRead, readAs, BitVec.ofNat_toNat, BitVec.setWidth_eq]

/-- A read of a counter's low word reads the counter. -/
theorem readWord_counter_low (hm : isMapped p a = true) (hc : counterAt d p a = some (v, true)) :
    readWord p a d = counterRead p a v d := by
  simp [readWord, hm, lowRead, hc]

/-- A read of a counter's high word reads the shadow. -/
theorem readWord_counter_high (hm : isMapped p a = true) (hc : counterAt d p a = some (v, false)) :
    readWord p a d = shadowRead p a d := by
  simp [readWord, hm, lowRead, isHighWord, hc]

end

/-- A read on an open path gives the data and leaves the shadows that the register's own read does. -/
theorem multiwordLowRead_readSide {p : Path} {addr : W32} {s : State} (ho : pathOpen s.dev p = true) :
    ∃ t, exec (.multiwordLowRead p addr) s = .next t ∧ readSide t.dev = readSide (readWord p (addr.toNat / 4 * 4) s.dev) := by
  refine ⟨{ s with dev := settle (readAccess p addr s.dev) }, rfl, ?_⟩
  rw [readSide_settle, readAccess, if_pos ho, readSide_accessOk, readSide_keepHalf]

/-- Settles O45: `readSide` carries what the counter's own read does through the end of the access and the interrupt outputs. -/
theorem countersWrapAndReadWhole : Obligations.CountersWrapAndReadWhole := by
  unfold Obligations.CountersWrapAndReadWhole
  refine ⟨fun d b p i n => ⟨mget_bumpAt_same d b p i n, fun b' p' i' hp hp' hi hi' hne =>
    mget_bumpAt_other d n fun h => hne (cntKey_inj hp hp' hi hi' h)⟩, ?_⟩
  intro s p addr v a ho hm hc n
  obtain ⟨t, hx, ht⟩ := multiwordLowRead_readSide (addr := addr) ho
  rw [readWord_counter_low hm hc] at ht
  obtain ⟨hdata, hshadow⟩ := Prod.ext_iff.mp ht
  refine ⟨t, hx, (congrArg BitVec.toNat hdata).trans counterRead_lastRead,
    fun q hq hl => (congrFun hshadow q).trans (counterRead_shadow_other hq hl), ?_⟩
  intro u addr' w hu ha ho' hm' hc'
  obtain ⟨t', hx', ht'⟩ := multiwordLowRead_readSide (addr := addr') ho'
  rw [ha, readWord_counter_high hm' hc'] at ht'
  obtain ⟨hdata', hshadow'⟩ := Prod.ext_iff.mp ht'
  have hword : mget 0 (shadowOf u.dev p).words (a + 4) = mget 0 (shadowOf (counterRead p a v s.dev) p).words (a + 4) := by
    rw [hu]
    exact congrArg (fun f => mget 0 (f p).words (a + 4)) hshadow
  refine ⟨t', hx', ?_, ?_⟩
  · calc t'.dev.gbl.lastRead.toNat = (mget 0 (shadowOf u.dev p).words (a + 4)).toNat :=
          congrArg BitVec.toNat (hdata'.trans shadowRead_lastRead)
      _ = n * 2 ^ 24 + v.toNat / 2 ^ 24 := by rw [hword, counterRead_latches]
  · calc shadowOf t'.dev p = shadowOf (shadowRead p (a + 4) u.dev) p := congrFun hshadow' p
      _ = shadowOf u.dev p := congrFun (shadowOf_readAs _ _) p
      _ = shadowOf t.dev p := hu

/-! ### Flags registers (R11) -/

/-- A write of 1 clears the bit, a write of 0 leaves it. -/
theorem getLsbD_rw1c {w i : Nat} (f : BitVec w) (v : Nat) (h : i < w) : (rw1c f v).getLsbD i = (f.getLsbD i && !v.testBit i) := by
  simp only [rw1c, BitVec.getLsbD_and, BitVec.getLsbD_not, BitVec.getLsbD_ofNat, h, decide_true, Bool.true_and]

/-- The offset holds a whole-word register in the map of a path, no mailbox, and one that the local bus sees as well. -/
def plainRegister (p : Path) (a : Nat) : Bool := isMapped p a && (mbxAt p a).isNone && !pcieOnly a

/-- A whole-word write of such a register, on an open path, has the register's effect and nothing else. -/
theorem registerWrite_plain {p : Path} {addr v : W32} {s : State} (ho : pathOpen s.dev p = true)
    (hr : plainRegister p (addr.toNat / 4 * 4) = true) :
    exec (.registerWrite p addr v 15) s = .next { s with dev := settle (accessOk p
      (if isSecure p then writePf1 p (addr.toNat / 4 * 4) v.toNat s.dev else writePf0 p (addr.toNat / 4 * 4) v.toNat s.dev)) } := by
  simp only [plainRegister, Bool.and_eq_true, Option.isNone_iff_eq_none, Bool.not_eq_true'] at hr
  obtain ⟨⟨hm, hb⟩, hp⟩ := hr
  have hw : writeAccess p addr v 15 s.dev = writeWord p (addr.toNat / 4 * 4) v.toNat s.dev := by simp [writeAccess, ho]
  have he : exec (.registerWrite p addr v 15) s = .next { s with dev := settle (writeAccess p addr v 15 s.dev) } := rfl
  rw [he, hw]
  simp [writeWord, hm, hb, hp]

/-- A write through PF0 or the non-secure window. -/
theorem registerWrite_pf0 {p : Path} {addr v : W32} {s : State} {e : Dev} (a : Nat) (hp : p = .pf0 ∨ p = .lb)
    (ho : pathOpen s.dev p = true) (ha : addr.toNat / 4 * 4 = a) (hr : plainRegister .pf0 a = true)
    (he : writePf0 p a v.toNat s.dev = e) :
    exec (.registerWrite p addr v 15) s = .next { s with dev := settle (accessOk p e) } := by
  subst ha he
  obtain rfl | rfl := hp <;> exact registerWrite_plain ho hr

/-- A write through PF1 or the secure window. -/
theorem registerWrite_pf1 {p : Path} {addr v : W32} {s : State} {e : Dev} (a : Nat) (hp : p = .pf1 ∨ p = .lbs)
    (ho : pathOpen s.dev p = true) (ha : addr.toNat / 4 * 4 = a) (hr : plainRegister .pf1 a = true)
    (he : writePf1 p a v.toNat s.dev = e) :
    exec (.registerWrite p addr v 15) s = .next { s with dev := settle (accessOk p e) } := by
  subst ha he
  obtain rfl | rfl := hp <;> exact registerWrite_plain ho hr

section
variable {p : Path} {v : Nat} (d : Dev)

/-- The flags of a trunk port. -/
theorem writePf0_trunkFlags {n : Nat} (hn : n < 8) :
    writePf0 p (0x40004 + 0x4000 * n) v d = setPort d n { portOf d n with flags := rw1c (portOf d n).flags v } := by
  have hport : (0x40004 + 0x4000 * n - 0x40000) / 0x4000 = n := by omega
  have hoff : (0x40004 + 0x4000 * n) % 0x4000 = 4 := by omega
  simp only [writePf0, Bool.and_eq_true, decide_eq_true_eq, hport, hoff]
  iterate 7 rw [if_neg (by omega)]
  rw [if_pos (by omega), writePort, if_pos rfl]

/-- The flags of a station port. -/
theorem writePf0_stationFlags {n : Nat} (hn : n < 4) :
    writePf0 p (0x60004 + 0x2000 * n) v d =
      setPort d (8 + n) { portOf d (8 + n) with flags := rw1c (portOf d (8 + n)).flags v } := by
  have hport : (0x60004 + 0x2000 * n - 0x60000) / 0x2000 = n := by omega
  have hoff : (0x60004 + 0x2000 * n) % 0x2000 = 4 := by omega
  simp only [writePf0, Bool.and_eq_true, decide_eq_true_eq, hport, hoff]
  iterate 8 rw [if_neg (by omega)]
  rw [if_pos (by omega), writePort, if_pos rfl]

end

theorem trunkFlags_plain : ∀ n : Fin 8, plainRegister .pf0 (0x40004 + 0x4000 * n.val) = true := by decide
theorem stationFlags_plain : ∀ n : Fin 4, plainRegister .pf0 (0x60004 + 0x2000 * n.val) = true := by decide

/-- The ports' flags lie at word offsets below 2^32. -/
theorem toNat_portAddr {base size n : Nat} (hb : base % 4 = 0) (hs : size % 4 = 0) (h : base + size * n < 2 ^ 32) :
    (BitVec.ofNat 32 (base + size * n)).toNat / 4 * 4 = base + size * n := by
  rw [BitVec.toNat_ofNat, Nat.mod_eq_of_lt h]
  exact Nat.div_mul_cancel (Nat.dvd_add (Nat.dvd_of_mod_eq_zero hb) ((Nat.dvd_of_mod_eq_zero hs).mul_right n))

/-- Settles O55: each address is a plain register's, and the map's write of that offset is the flags' own; a port's flags by its number. -/
theorem flagsClearByWritingOne : Obligations.FlagsClearByWritingOne := by
  unfold Obligations.FlagsClearByWritingOne
  refine ⟨fun w i f v h => getLsbD_rw1c f v h, fun p v s hp ho => ?_, fun p v s hp ho => ?_⟩
  · refine ⟨?gbl, ?tod, ?alm, ?ing, ?aln, ?pub, ?est, ?osc, ?isl, ?lmf, ?aux, ?mtr, ?lch, ?cap, ?log, ?hrd, ?pwr, fun n => ?trunk,
      fun n => ?station⟩
    case gbl => exact registerWrite_pf0 0x24 hp ho rfl (by decide) rfl
    case tod => exact registerWrite_pf0 0x1050 hp ho rfl (by decide) rfl
    case alm => exact registerWrite_pf0 0x2004 hp ho rfl (by decide) rfl
    case ing => exact registerWrite_pf0 0x80004 hp ho rfl (by decide) rfl
    case aln => exact registerWrite_pf0 0xA0004 hp ho rfl (by decide) rfl
    case pub => exact registerWrite_pf0 0xC0004 hp ho rfl (by decide) rfl
    case est => exact registerWrite_pf0 0xE0004 hp ho rfl (by decide) rfl
    case osc => exact registerWrite_pf0 0xE1004 hp ho rfl (by decide) rfl
    case isl => exact registerWrite_pf0 0xE2004 hp ho rfl (by decide) rfl
    case lmf => exact registerWrite_pf0 0x10000C hp ho rfl (by decide) rfl
    case aux => exact registerWrite_pf0 0x101008 hp ho rfl (by decide) rfl
    case mtr => exact registerWrite_pf0 0x120004 hp ho rfl (by decide) rfl
    case lch => exact registerWrite_pf0 0x140004 hp ho rfl (by decide) rfl
    case cap => exact registerWrite_pf0 0x141004 hp ho rfl (by decide) rfl
    case log => exact registerWrite_pf0 0x160004 hp ho rfl (by decide) rfl
    case hrd => exact registerWrite_pf0 0x180004 hp ho rfl (by decide) rfl
    case pwr => exact registerWrite_pf0 0x1A1004 hp ho rfl (by decide) rfl
    case trunk =>
      exact registerWrite_pf0 _ hp ho (toNat_portAddr rfl rfl (by omega)) (trunkFlags_plain n) (writePf0_trunkFlags s.dev n.isLt)
    case station =>
      exact registerWrite_pf0 _ hp ho (toNat_portAddr rfl rfl (by omega)) (stationFlags_plain n) (writePf0_stationFlags s.dev n.isLt)
  · exact registerWrite_pf1 0x1C0004 hp ho rfl (by decide) rfl

end Sys2Proof.Proofs.Scope
end

section
/-!
Proofs of the statements of chapter 1: generations (R20 to R25), the wheel and the clock locks (R26, R527).
-/
namespace Sys2Proof.Proofs.Generations

open Sys2Proof Sys2Proof.Machine Sys2Proof.Safety Sys2Proof.Laws

/-! ### From an effect to the step's next state -/

section
variable {i : Instr} {w : Dev → Prop} {eff : Dev → Dev}

/-- An event that the live device meets takes the effect that it has there. -/
theorem does_of_runLive {f : Dev → Dev} (hx : ∀ s, exec i s = runLive f s) (hl : ∀ d, w d → isLive d = true)
    (he : ∀ d, w d → f d = eff d) : does i w eff := by
  intro s hw
  rw [hx, runLive_next (hl _ hw), he _ hw]

/-- A packet completes with the answer that its body gives. -/
theorem ends_of_body {h : Hdr} {op : Nat} {params : Bytes} {hb : Bool} {st : Status} {reply : Dev → Bytes} {body : Dev → Answer}
    (hx : ∀ s, exec i s = cmd h op params hb body s) (he : ∀ d, w d → body d = (eff d, some (st, reply d))) :
    ends i h op params hb st w reply eff :=
  fun s hp hw => (hx s).trans (cmd_ends hp (he _ hw))

end

/-! ### What taking and counting a packet leaves alone -/

section
variable (h : Hdr) (op : Nat) (params : Bytes) (d : Dev)

@[simp] theorem takePacket_clk : (takePacket h d).clk = d.clk := by
  unfold takePacket
  split
  · rfl
  · split <;> rfl

@[simp] theorem takePacket_tod : (takePacket h d).tod = d.tod := by
  unfold takePacket
  split
  · rfl
  · split <;> rfl

@[simp] theorem started_clk : (started h op params d).clk = d.clk := takePacket_clk h d
@[simp] theorem started_tod : (started h op params d).tod = d.tod := takePacket_tod h d

/-- Starting a packet takes no time. -/
@[simp] theorem nowNs_started : nowNs (started h op params d) = nowNs d := by
  unfold nowNs
  rw [started_tod]

end

/-! ### Refusal while a switch is pending (R22) -/

section
variable {d : Dev} (hs : stagedShut d = true)
include hs

/-- The first check of every staging command. -/
theorem checks_shut {l : List (Bool × Status)} {eff : Dev → Answer} :
    checks ((stagedShut d, .generationConflict) :: l) eff d = reject .generationConflict d := by
  simp [checks, hs]

theorem stageWith_shut {bad : Bool} {ks ls : List Nat} {f : Gen → Gen} :
    stageWith bad ks ls f d = reject .generationConflict d := checks_shut hs

/-- A table load is refused whether or not the engine has the table. -/
theorem engLoad_shut {h : Hdr} {tables : Nat → Option EngTable} {p : LoadP} {start : Dev → Dev} :
    engLoad h tables p start d = reject .generationConflict d := by
  unfold engLoad
  split <;> exact checks_shut hs

end

/-- The staging opcodes without a parameter block, and GEN_DISCARD_STAGED. -/
abbrev stagingOps : List Nat :=
  [0x0401, 0x0402, 0x0403, 0x0410, 0x0411, 0x0412, 0x0414, 0x0501, 0x0502, 0x0503, 0x0504, 0x0512, 0x0513, 0x0517, 0x0601, 0x0602, 0x0603,
    0x0611, 0x0612, 0x0621, 0x0622, 0x0630, 0x0112]

/-- A staging command without a parameter block answers GENERATION_CONFLICT while a switch is pending. -/
theorem staging_refused {c : Instr} {h : Hdr} {op : Nat} {params : Bytes} {hb : Bool} {s : State} (hc : packetOf c = some (h, op, params, hb))
    (hop : op ∈ stagingOps) (hp : passes h op params hb s.dev) (hs : stagedShut (started h op params s.dev) = true) :
    exec c s = .next { s with dev := settle (finish h op params .generationConflict [] (started h op params s.dev)) } := by
  cases c with
  | ingStreamKey | ingStreamRemove | dirWrite | dirLoad | dirClear | dirScaleWrite | alnOstreamDef | alnOstreamRemove | alnMemberSet
  | alnMemberClear | pubTemplateRemove | pubCfgImage | pubHistPlan | estConfig | estClear | oscClear | islClear | almLimitWrite
  | genDiscardStaged =>
    cases hc
    exact cmdWith_ends hp (checks_shut hs)
  | estLoad | oscLoad | islLoad =>
    cases hc
    exact cmdWith_ends hp (engLoad_shut hs)
  | ingStreamDef =>
    -- only a definition that was taken is noted as redefined
    cases hc
    refine cmdWith_ends hp ?_
    simp only [stageWith_shut hs, reject]
    rfl
  | _ => cases hc <;> exact absurd hop (by decide)

/-- Settles O48: every staging command tests the pending switch before its own parameters, those with a block once it has been read. -/
theorem stagingRefusedWhileSwitchIsPending : Obligations.StagingRefusedWhileSwitchIsPending := by
  unfold Obligations.StagingRefusedWhileSwitchIsPending
  intro c h op params hb s hc hp hpend hcase
  have hs : stagedShut (started h op params s.dev) = true := by rw [stagedShut, started_clk, hpend]
  obtain hop | ⟨src, x, rfl, hf⟩ | ⟨src, x, rfl, hf⟩ | ⟨src, x, rfl, hf⟩ | ⟨src, x, rfl, hf⟩ := hcase
  case inl => exact staging_refused hc hop hp hs
  all_goals
    cases hc
    exact cmdWith_ends hp ((withBlock_fits hf).trans (stageWith_shut hs))

/-! ### GEN_CANCEL (R25) -/

theorem startFactoring_frame (d : Dev) : ∃ x, startFactoring d = { d with est := x } := ⟨_, rfl⟩

/-- A request to refactorise writes the estimator's block alone. -/
theorem requestFactor_frame (d : Dev) : ∃ x, requestFactor d = { d with est := x } := by
  unfold requestFactor
  split
  · exact ⟨_, rfl⟩
  · exact startFactoring_frame d

/-- Discarding the estimator's preparation writes the estimator's block alone. -/
theorem estCancel_frame (d : Dev) : ∃ x, estCancel d = { d with est := x } := by
  unfold estCancel
  dsimp only
  split
  · exact requestFactor_frame _
  · split
    · exact startFactoring_frame _
    · exact ⟨_, rfl⟩

/-- The staged generation without the engines' preparation work. -/
def unprepared (g : Gen) : Gen := { g with osc := { g.osc with prep := {} }, isl := { g.isl with prep := {} } }

/-- What the withdrawal of a switch writes: the pending switch, and preparation work of the units. -/
theorem dropSwitch_frame (d : Dev) : ∃ a x, dropSwitch d =
    { d with clk := { d.clk with pending := none }, aln := a, est := x, alm := { d.alm with plan := none }, staged := unprepared d.staged } := by
  obtain ⟨x, hx⟩ := estCancel_frame (alnWithdraw { d with clk := { d.clk with pending := none } })
  unfold dropSwitch
  rw [hx]
  exact ⟨_, x, rfl⟩

/-- A launch entry that ends CANCELLED: the entry and its count are written, no other entry. -/
theorem cancelEntry_frame (i : Nat) (d : Dev) : ∃ l n, cancelEntry i d = { d with lch := l, cnt := n } ∧
    (∀ j, i ≠ j → mfind l.entries j = mfind d.lch.entries j) ∧
    (∀ x, mfind d.lch.entries i = some x → mfind l.entries i = some { x with status := .cancelled }) := by
  unfold cancelEntry
  cases hf : mfind d.lch.entries i with
  | none => exact ⟨d.lch, d.cnt, rfl, fun _ _ => rfl, fun _ hx => absurd hx (by simp)⟩
  | some y =>
    refine ⟨_, _, rfl, fun j hj => mfind_mset_other _ _ (Ne.symm hj), fun x hx => ?_⟩
    obtain rfl := Option.some.inj hx
    exact mfind_mset_same _ _ _

section
variable {d : Dev} {w : Switch}

/-- A cancel before the switch tick begins. -/
theorem cancelSwitch_before (hw : d.clk.pending = some w) (ht : nowNs d < tickInst w.sec w.tick) :
    cancelSwitch d = okay (w.entry.elim (dropSwitch d) fun i => cancelEntry i (dropSwitch d)) := by
  have hc : cancellable d = some w := by simp [cancellable, hw, ht]
  obtain ⟨gen, sec, tick, entry⟩ := w
  unfold cancelSwitch
  rw [hc]
  cases entry <;> rfl

/-- A cancel with no switch pending, or one whose switch tick has begun. -/
theorem cancelSwitch_late (ht : ∀ w, d.clk.pending = some w → tickInst w.sec w.tick ≤ nowNs d) :
    cancelSwitch d = reject .nothingToAbort d := by
  have hc : cancellable d = none := by
    simp only [cancellable, Option.filter_eq_none_iff, decide_eq_true_eq, Nat.not_lt]
    exact ht
  unfold cancelSwitch
  rw [hc]

end

/-- Settles O47: the effect of the withdrawal is read off the frames of `dropSwitch` and `cancelEntry`. -/
theorem genCancelWithdrawsAndKeeps : Obligations.GenCancelWithdrawsAndKeeps := by
  unfold Obligations.GenCancelWithdrawsAndKeeps
  refine ⟨fun h w s hp hw ht => ?_, fun h => ends_of_body (fun _ => rfl) fun d hd => cancelSwitch_late hd⟩
  intro d
  have hbody := cancelSwitch_before (d := d) (by rw [started_clk, hw]) (by rw [nowNs_started]; exact ht)
  refine ⟨_, cmd_ends hp hbody, ?_⟩
  obtain ⟨a, x, hdrop⟩ := dropSwitch_frame d
  cases he : w.entry with
  | none =>
    rw [Option.elim_none, hdrop]
    exact ⟨rfl, rfl, rfl, rfl, rfl, rfl, rfl, rfl, fun _ _ => rfl, fun _ _ hj => absurd hj (by simp)⟩
  | some i =>
    obtain ⟨l, n, hcancel, hother, hsame⟩ := cancelEntry_frame i (dropSwitch d)
    rw [hdrop] at hother hsame
    rw [Option.elim_some, hcancel, hdrop]
    refine ⟨rfl, rfl, rfl, rfl, rfl, rfl, rfl, rfl, fun j hj => hother j fun hij => hj (congrArg some hij), fun j y hj hy => ?_⟩
    obtain rfl := Option.some.inj hj
    exact hsame y hy

/-! ### The wheel and the clock locks -/

/-- With no count of a second that has ended, none is due and every count stays. -/
theorem filter_isOver_none {d : Dev} {l : List (Nat × Tally)} (h : (l.any fun e => isOver d e.2) = false) :
    (l.filter fun e => isOver d e.2) = [] ∧ (l.filter fun e => !isOver d e.2) = l := by
  have hrun := List.any_eq_false.mp h
  exact ⟨List.filter_eq_nil_iff.mpr hrun, List.filter_eq_self.mpr fun e he => by simpa using hrun e he⟩

/-- A summary with nothing due. -/
theorem perSecondSummary_none : does .perSecondSummary
    (fun d => isLive d = true ∧ (d.clk.tallies.any fun e => isOver d e.2) = false ∧ d.clk.closed = [])
    (fun d => { d with clk := { d.clk with closed := [], tallies := d.clk.tallies } }) :=
  does_of_runLive (fun _ => rfl) (fun _ hw => hw.1) fun d ⟨_, hover, hclosed⟩ => by
    obtain ⟨hdue, hkept⟩ := filter_isOver_none hover
    simp only [hclosed, hdue, hkept]
    rfl

/-- A summary of one count, of a second that has ended. -/
theorem perSecondSummary_one (k : Nat) (t : Tally) : does .perSecondSummary
    (fun d => isLive d = true ∧ isOver d t = true ∧ d.clk.tallies = [(k, t)] ∧ d.clk.closed = [])
    (fun d => sumGroup [(k, t)] t.sec (sumOne k t { d with clk := { d.clk with closed := [], tallies := [] } })) :=
  does_of_runLive (fun _ => rfl) (fun _ hw => hw.1) fun d ⟨_, hover, htally, hclosed⟩ => by
    simp [hclosed, htally, hover, List.eraseDups_cons]

/-- Settles O1: each clause is the model's effect where the clause's condition decides its branches. -/
theorem clockAndGenerationCommandsComplete : Obligations.ClockAndGenerationCommandsComplete := by
  unfold Obligations.ClockAndGenerationCommandsComplete
  refine ⟨?tick, ?tickKept, perSecondSummary_none, perSecondSummary_one, fun h gen sec tick => ?switch, fun h w => ?cancel,
    fun h => ?discard, fun h => ?status, fun h code => ?snapshot, fun domain => ?unlock, fun domain t => ?relock,
    fun domain t => ?timeout, fun domain => ?restored, ?restoredLb⟩
  case tick =>
    refine does_of_runLive (fun _ => rfl) (fun _ hw => hw.1) fun d ⟨_, hrun⟩ => ?_
    simp only [tickStart, hrun, if_true, dataTick]
  case tickKept =>
    refine does_of_runLive (fun _ => rfl) (fun _ hw => hw.1) fun d ⟨_, hrun, hpow⟩ => ?_
    simp only [tickStart, hrun, hpow, Bool.false_eq_true, if_false, if_true]
  case switch =>
    refine ends_of_body (fun _ => rfl) fun d ⟨hgen, hpend, hret, hnow, hdorm, htick⟩ => checks_pass ?_
    have hfree : switchConflict gen sec tick.toNat d = false := by simp [switchConflict, hgen, hpend, hret, hdorm, hnow]
    simp [hfree, htick]
  case cancel =>
    refine ends_of_body (fun _ => rfl) fun d ⟨hpend, hnow, hentry⟩ => (cancelSwitch_before hpend hnow).trans ?_
    rw [hentry]
    rfl
  case discard => exact ends_of_body (fun _ => rfl) fun d hopen => checks_pass (by simp [hopen])
  case status => exact ends_of_body (fun _ => rfl) fun _ _ => rfl
  case snapshot => exact ends_of_body (fun _ => rfl) fun d hok => checks_pass (by simp [hok])
  case unlock =>
    exact does_of_runLive (fun _ => rfl) (fun _ hw => hw.1) fun d ⟨_, hlock⟩ => if_pos hlock
  case relock =>
    -- outside domains 0, 2 and 4 no work waits for the relock
    refine does_of_runLive (fun _ => rfl) (fun _ hw => hw.1) fun d ⟨_, hstall, hdom⟩ => ?_
    simp only [List.mem_cons, List.not_mem_nil, or_false, not_or] at hdom
    obtain ⟨h0, h2, h4⟩ := hdom
    simp only [hstall, h0, h2, h4, decide_false, Bool.or_false, Bool.false_and, Bool.false_eq_true, if_false]
    rfl
  case timeout =>
    refine does_of_runLive (fun _ => rfl) (fun _ hw => hw.1) fun d ⟨_, hstall⟩ => ?_
    simp only [hstall]
  case restored =>
    refine does_of_runLive (fun _ => rfl) (fun _ hw => hw.1) fun d ⟨_, hdorm, hdom⟩ => ?_
    have h5 : ¬ domain.val < 5 := by omega
    have h6 : domain.val ≠ 6 := by omega
    simp [hdorm, h5, h6]
  case restoredLb =>
    refine does_of_runLive (fun _ => rfl) (fun _ hw => hw) fun d _ => ?_
    simp [stoppedDomains]

/-! ### After a reset (R21) -/

/-- Before the first switch a change of any size fits the staged generation. -/
theorem canStage_first {ks ls : List Nat} {d : Dev} (hf : d.clk.firstBuilt = false) (hp : d.clk.pending = none) : canStage ks ls d :=
  ⟨hp, fun hb => absurd (hf.symm.trans hb) (by decide)⟩

/-- Settles O49: a device reset wipes the generations whatever its cause, and the limits of R20 hold from the first switch on. -/
theorem generationAfterReset : Obligations.GenerationAfterReset := by
  unfold Obligations.GenerationAfterReset
  refine ⟨fun d hd => ?_, fun ks ls f d hf hp => stageWith_ok rfl (canStage_first hf hp)⟩
  obtain rfl | ⟨cause, e, rfl⟩ := hd
  all_goals exact ⟨rfl, rfl, rfl, rfl, rfl, rfl, rfl, rfl, rfl, rfl⟩

end Sys2Proof.Proofs.Generations
end

section
/-!
Proofs of the statements of chapter 2: the cycle of CLK_TOD (R43) and the phase adjustment (R47).
-/
namespace Sys2Proof.Proofs.TimeReference

open Sys2Proof Sys2Proof.Machine Sys2Proof.Safety Sys2Proof.Laws Sys2Proof.Proofs.Generations

/-! ### Idling (R43) -/

/-- CLK_TOD stands still while the device is held in reset. -/
theorem todCycle_held {d : Dev} (h : d.pwr.held = true) : todCycle d = d := if_pos h

theorem step_idle {s : State} (h : s.pending = []) : step s = .next { s with dev := todCycle s.dev } := by
  unfold step
  rw [h]

/-- Settles O30: with no command at the front only the cycle of CLK_TOD is left, and in reset that cycle changes nothing. -/
theorem emptyQueueIdles : Obligations.EmptyQueueIdles := by
  unfold Obligations.EmptyQueueIdles
  intro s hs
  refine ⟨step_idle hs, fun hheld => ?_⟩
  rw [step_idle hs, todCycle_held hheld]

/-! ### What an adjustment has applied (R47) -/

/-- The slew limit of 200 ppm: |S| / N is at most 0.000,4 ns per cycle. -/
abbrev withinSlew (s : Int) (n : Nat) : Prop := s.natAbs * 10000 ≤ 4 * n * 65536

/-- Within the slew limit the whole step is at most 1 ns for each of its cycles. -/
theorem natAbs_step_le {s : Int} {n : Nat} (h : withinSlew s n) : (s * 2 ^ 24).natAbs ≤ n * 2 ^ 40 := by
  omega

/-- The cycles before the last one apply no more than the step. -/
theorem natAbs_shares_le (x : Int) {n k : Nat} (hk : k ≤ n) : (Int.tdiv x n * k).natAbs ≤ x.natAbs := by
  rw [Int.natAbs_mul, Int.natAbs_tdiv, Int.natAbs_natCast, Int.natAbs_natCast]
  exact (Nat.mul_le_mul_left _ hk).trans (Nat.div_mul_le_self _ _)

theorem adjApplied_before {a : Adjust} {k : Nat} (h : k < a.n) : adjApplied a k = Int.tdiv (a.s * 2 ^ 24) a.n * k :=
  if_neg (Nat.not_le.mpr h)

theorem adjApplied_end (a : Adjust) : adjApplied a a.n = a.s * 2 ^ 24 := if_pos (Nat.le_refl _)

/-- No part of an adjustment is larger than the whole. -/
theorem natAbs_adjApplied_le_step (a : Adjust) {k : Nat} (hk : k ≤ a.n) : (adjApplied a k).natAbs ≤ (a.s * 2 ^ 24).natAbs := by
  obtain hlt | rfl := Nat.lt_or_eq_of_le hk
  · rw [adjApplied_before hlt]
    exact natAbs_shares_le _ hk
  · rw [adjApplied_end]

/-- Within the slew limit an adjustment has moved the counter by at most 1 ns for each cycle done. -/
theorem natAbs_adjApplied_le_cycles {a : Adjust} (hs : withinSlew a.s a.n) {k : Nat} (hk : k ≤ a.n) :
    (adjApplied a k).natAbs ≤ k * 2 ^ 40 := by
  obtain hlt | rfl := Nat.lt_or_eq_of_le hk
  · rw [adjApplied_before hlt, Int.natAbs_mul, Int.natAbs_tdiv, Int.natAbs_natCast, Int.natAbs_natCast, Nat.mul_comm]
    exact Nat.mul_le_mul_left _ (Nat.div_le_of_le_mul (natAbs_step_le hs))
  · rw [adjApplied_end]
    exact natAbs_step_le hs

/-! ### Cycles of the counter -/

/-- The counter holds every value below 2^48 seconds. -/
theorem fineCount_setFine (t : Tod) {v : Nat} (h : v < 2 ^ 48 * 1000000000 * 2 ^ 40) : fineCount (setFine t v) = v := by
  simp only [fineCount, setFine, instNs, secNs, BitVec.toNat_ofNat]
  omega

@[simp] theorem fineCount_withAdj (t : Tod) (x : Option Adjust) : fineCount { t with adj := x } = fineCount t := rfl

/-- Cycles with an adjustment in force add its share of them to the counter. -/
theorem countCycles_adjust {t : Tod} {a : Adjust} {done : Nat} (h : t.adj = some { a with done := done }) (k : Nat) :
    countCycles t k =
      { setFine t (((fineCount t + k * t.inc.toNat : Nat) : Int) + (adjApplied a (done + k) - adjApplied a done)).toNat with
        adj := if done + k ≥ a.n then none else some { a with done := done + k } } := by
  unfold countCycles
  rw [h]
  rfl

/-- The counter `k` cycles into an adjustment of `t`'s: it has added TOD_INC for each cycle, and the adjustment's part. -/
structure AdjustedFor (t : Tod) (a : Adjust) (k : Nat) (u : Tod) : Prop where
  count : (fineCount u : Int) = fineCount t + k * t.inc.toNat + adjApplied a k
  inc   : u.inc = t.inc
  adj   : u.adj = if k ≥ a.n then none else some { a with done := k }

section
variable {t : Tod} {a : Adjust}

theorem adjustedFor_zero (hadj : t.adj = some { a with done := 0 }) (hn : 0 < a.n) : AdjustedFor t a 0 t where
  count := by rw [adjApplied_before hn]; simp
  inc := rfl
  adj := by rw [if_neg (Nat.not_le.mpr hn), hadj]

variable (hinc : 2 ^ 40 ≤ t.inc.toNat) (hs : withinSlew a.s a.n)
  (hroom : fineCount t + a.n * t.inc.toNat + a.s.natAbs * 2 ^ 24 < 2 ^ 48 * 1000000000 * 2 ^ 40)
include hinc hs hroom

/-- While an adjustment is in force the counter neither falls below zero nor wraps. -/
theorem adjusted_in_range {k : Nat} (hk : k ≤ a.n) :
    0 ≤ (fineCount t : Int) + k * t.inc.toNat + adjApplied a k ∧
    (fineCount t : Int) + k * t.inc.toNat + adjApplied a k < 2 ^ 48 * 1000000000 * 2 ^ 40 := by
  have hslow := natAbs_adjApplied_le_cycles hs hk
  have hlow : k * 2 ^ 40 ≤ k * t.inc.toNat := Nat.mul_le_mul_left _ hinc
  have hpart := natAbs_adjApplied_le_step a hk
  have hhigh : k * t.inc.toNat ≤ a.n * t.inc.toNat := Nat.mul_le_mul_right _ hk
  omega

/-- One more cycle adds TOD_INC and the adjustment's share of that cycle. -/
theorem AdjustedFor.succ {k : Nat} {u : Tod} (hu : AdjustedFor t a k u) (hk : k < a.n) : AdjustedFor t a (k + 1) (countCycles u 1) := by
  obtain ⟨hcount, hinc', hadj⟩ := hu
  rw [if_neg (Nat.not_le.mpr hk)] at hadj
  obtain ⟨hlow, hhigh⟩ := adjusted_in_range hinc hs hroom (k := k + 1) hk
  have hsum : ((fineCount u + 1 * u.inc.toNat : Nat) : Int) + (adjApplied a (k + 1) - adjApplied a k) =
      fineCount t + ((k + 1 : Nat) : Int) * t.inc.toNat + adjApplied a (k + 1) := by
    rw [hinc']
    push_cast
    linarith only [hcount]
  rw [countCycles_adjust hadj, hsum]
  refine ⟨?_, hinc', rfl⟩
  rw [fineCount_withAdj, fineCount_setFine _ (by omega), Int.toNat_of_nonneg hlow]

/-- After `k` of its cycles the counter is `k` cycles into the adjustment. -/
theorem adjustedFor_iterate (hadj : t.adj = some { a with done := 0 }) (hn : 0 < a.n) {k : Nat} (hk : k ≤ a.n) :
    AdjustedFor t a k ((fun x => countCycles x 1)^[k] t) := by
  induction k with
  | zero => exact adjustedFor_zero hadj hn
  | succ k ih =>
    rw [Function.iterate_succ_apply']
    exact (ih (Nat.le_of_succ_le hk)).succ hinc hs hroom hk

end

/-! ### The request's refusals (R47) -/

/-- The first of an opcode's own checks that fails gives the status. -/
theorem checks_fail {l : List (Bool × Status)} {eff : Dev → Answer} {d : Dev} {c : Bool × Status} (hc : l.find? Prod.fst = some c) :
    checks l eff d = reject c.2 d := by
  simp [checks, hc]

/-- The own checks of TIME_PHASE_ADJUST, in order. -/
def phaseChecks (sz : W64) (n : W32) (d : Dev) : List (Bool × Status) :=
  [(n = 0 || 4 * n.toNat * 65536 < sz.toInt.natAbs * 10000, .badParam), (d.tod.adj.isSome, .busy),
    (!decide (d.tod.state = .freerun), .notPermitted)]

/-- TIME_PHASE_ADJUST is refused with the status of its first check that fails, and changes nothing. -/
theorem timePhaseAdjust_refused (h : Hdr) {sz : W64} {n : W32} {st : Status} {w : Dev → Prop}
    (hc : ∀ d, w d → (phaseChecks sz n d).find? Prod.fst = some (true, st)) :
    ends (.timePhaseAdjust h sz n) h 0x0203 (pk sz ++ pk n) false st w (fun _ => []) id :=
  ends_of_body (fun _ => rfl) fun d hd => checks_fail (hc d hd)

/-- The checks after the slew limit decide where the request keeps to it. -/
theorem phaseChecks_slow {sz : W64} {n : W32} (hn : n ≠ 0) (hs : withinSlew sz.toInt n.toNat) (d : Dev) :
    (phaseChecks sz n d).find? Prod.fst =
      [(d.tod.adj.isSome, Status.busy), (!decide (d.tod.state = .freerun), .notPermitted)].find? Prod.fst := by
  refine List.find?_cons_of_neg ?_
  simpa using ⟨hn, hs⟩

/-- Settles O46: the refusals are the request's checks in order, and in force an induction over its cycles gives the counter. -/
theorem phaseAdjustmentsApplyExactly : Obligations.PhaseAdjustmentsApplyExactly := by
  unfold Obligations.PhaseAdjustmentsApplyExactly
  refine ⟨fun h sz n => ?steep, fun h sz n => ?busy, fun h sz n => ?state, fun sz n hs => ?limit,
    fun t sz n k hn _ hs hadj _ hinc hroom hk => ?inForce⟩
  case steep => exact timePhaseAdjust_refused h fun d hbad => by simpa [phaseChecks] using hbad
  case busy =>
    refine timePhaseAdjust_refused h fun d ⟨hn, hs, hbusy⟩ => ?_
    simp [phaseChecks_slow hn hs, hbusy]
  case state =>
    refine timePhaseAdjust_refused h fun d ⟨hn, hs, hfree, hstate⟩ => ?_
    obtain hunset | hholdover := hstate
    · simp [phaseChecks_slow hn hs, hfree, hunset]
    · simp [phaseChecks_slow hn hs, hfree, hholdover]
  case limit =>
    have := n.isLt
    omega
  case inForce =>
    obtain ⟨hcount, -, hu⟩ := adjustedFor_iterate (a := { s := sz, n := n, done := 0 }) hinc hs hroom hadj hn hk
    refine ⟨fun hlt => ?_, fun heq => ?_⟩
    · rw [hcount, hu, adjApplied_before hlt, if_neg (Nat.not_le.mpr hlt), mul_comm (Int.tdiv _ _)]
      exact ⟨rfl, rfl⟩
    · subst heq
      rw [hcount, hu, if_pos (Nat.le_refl _)]
      exact ⟨congrArg _ (adjApplied_end _), rfl⟩

end Sys2Proof.Proofs.TimeReference
end

section
/-!
Proofs of the statements of chapter 5: the directory entry's 32 bytes (R143, R157, R160).
-/
namespace Sys2Proof.Proofs.ChannelDirectory

open Sys2Proof Sys2Proof.Machine

/-! ### Little-endian bytes -/

@[simp] theorem length_leBytes (n v : Nat) : (leBytes n v).length = n := by
  induction n generalizing v with
  | zero => rfl
  | succ n ih => simp [leBytes, ih]

/-- What `n` bytes hold of a number is the number modulo `256 ^ n`. -/
theorem fromLe_leBytes (n v : Nat) : fromLe (leBytes n v) = v % 256 ^ n := by
  induction n generalizing v with
  | zero => simp [leBytes, fromLe, Nat.mod_one]
  | succ n ih =>
    have hbyte : (BitVec.ofNat 8 v).toNat = v % 256 := BitVec.toNat_ofNat v 8
    rw [leBytes, fromLe, ih, hbyte, pow_succ', Nat.mod_mul]

/-- A number is read back, up to its bytes' width, from behind whatever stands before them. -/
theorem leAt_leBytes (pre : Bytes) (n v : Nat) (post : Bytes) :
    leAt (pre ++ (leBytes n v ++ post)) pre.length n = v % 256 ^ n := by
  rw [leAt, List.drop_left, List.take_left' (length_leBytes n v), fromLe_leBytes]

@[simp] theorem length_pk {w : Nat} (v : BitVec w) : (pk v).length = w / 8 := length_leBytes _ _

/-- A word of whole bytes loses no bit in its packing. -/
theorem ofNat_leAt_pk (pre : Bytes) {w n : Nat} (hw : w = 8 * n) (v : BitVec w) (post : Bytes) :
    BitVec.ofNat w (leAt (pre ++ (pk v ++ post)) pre.length n) = v := by
  subst hw
  have hlt : v.toNat < 256 ^ n := by simpa [pow_mul] using v.isLt
  rw [pk, Nat.mul_div_cancel_left n (by decide), leAt_leBytes, Nat.mod_eq_of_lt hlt, BitVec.ofNat_toNat, BitVec.setWidth_eq]

/-! ### A string cut into pieces -/

/-- A string that is not empty gives its first piece and the pieces of its rest. -/
theorem chunksOf_succ (k n : Nat) {b : Bytes} (h : b ≠ []) :
    chunksOf k (n + 1) b = padTo k (b.take k) :: chunksOf k n (b.drop k) := by
  rw [chunksOf]
  exact h

/-- Pieces of `k` bytes laid end to end are what the string is cut into. -/
theorem chunksOf_flatten {k : Nat} (hk : 0 < k) (l : List Bytes) (hl : ∀ b ∈ l, b.length = k) :
    chunksOf k l.length l.flatten = l := by
  induction l with
  | nil => rfl
  | cons b l ih =>
    have hb : b.length = k := hl b List.mem_cons_self
    have hne : b ++ l.flatten ≠ [] := by
      refine List.append_ne_nil_of_left_ne_nil (List.ne_nil_of_length_pos ?_) _
      omega
    have hpad : padTo k b = b := by simp [padTo, hb]
    rw [List.length_cons, List.flatten_cons, chunksOf_succ k _ hne, List.take_left' hb,
      List.drop_left' hb, hpad, ih fun c hc => hl c (List.mem_cons_of_mem b hc)]

/-! ### The entry's layout (R143) -/

@[simp] theorem length_entryBytes (e : DirEntry) : e.bytes.length = 32 := by
  simp [DirEntry.bytes]

/-- The four words stand in order, each in eight bytes of its own. -/
theorem dirEntryOf_bytes (e : DirEntry) : dirEntryOf e.bytes = e := by
  obtain ⟨q0, q1, q2, q3⟩ := e
  rw [dirEntryOf, DirEntry.mk.injEq]
  refine ⟨?_, ?_, ?_, ?_⟩
  · simpa [DirEntry.bytes] using ofNat_leAt_pk (n := 8) [] rfl q0 (pk q1 ++ pk q2 ++ pk q3)
  · simpa [DirEntry.bytes] using ofNat_leAt_pk (n := 8) (pk q0) rfl q1 (pk q2 ++ pk q3)
  · simpa [DirEntry.bytes] using ofNat_leAt_pk (n := 8) (pk q0 ++ pk q1) rfl q2 (pk q3)
  · simpa [DirEntry.bytes] using ofNat_leAt_pk (n := 8) (pk q0 ++ pk q1 ++ pk q2) rfl q3 []

/-- Settles O60: each word is read back from its own bytes, and blocks of 32 bytes are cut where they were joined. -/
theorem directoryEntriesSurvive : Obligations.DirectoryEntriesSurvive := by
  unfold Obligations.DirectoryEntriesSurvive
  refine ⟨fun e => ⟨length_entryBytes e, dirEntryOf_bytes e⟩, fun l => ?_⟩
  have hcut : chunksOf 32 l.length (l.map DirEntry.bytes).flatten = l.map DirEntry.bytes := by
    simpa using chunksOf_flatten (k := 32) (by decide) (l.map DirEntry.bytes)
  calc (chunksOf 32 l.length (l.map DirEntry.bytes).flatten).map dirEntryOf
      _ = l.map (dirEntryOf ∘ DirEntry.bytes) := by rw [hcut, List.map_map]
      _ = l := by simp [Function.comp_def, dirEntryOf_bytes]

end Sys2Proof.Proofs.ChannelDirectory
end

section
/-!
Proofs of the statements of chapter 7: HEAD writes and stopped rings (R220, R222).
-/
namespace Sys2Proof.Proofs.HostRings

open Sys2Proof Sys2Proof.Machine Sys2Proof.Laws

/-! ### What discarding records leaves alone (R223) -/

section
variable (d : Dev)

@[simp] theorem tally_pub (kind inst n arg : Nat) : (tally kind inst n arg d).pub = d.pub := by
  unfold tally
  dsimp only
  split
  · split <;> rfl
  · rfl

@[simp] theorem capFree_pub (n : Nat) : (capFree n d).pub = d.pub := by
  unfold capFree
  dsimp only
  split <;> rfl

@[simp] theorem capLost_pub (head : Bytes) : (capLost head d).pub = d.pub := by
  unfold capLost
  dsimp only
  split
  · split <;> simp
  · rfl

@[simp] theorem capDone_pub (head : Bytes) : (capDone head d).pub = d.pub := by
  unfold capDone
  dsimp only
  split
  · split <;> simp
  · rfl

@[simp] theorem recDropped_pub (x : HostRec) : (recDropped x d).pub = d.pub := by
  unfold recDropped
  split <;> simp

@[simp] theorem queueGrew_rings (q depth : Nat) : (queueGrew q depth d).pub.rings = d.pub.rings := by
  unfold queueGrew
  dsimp only
  split <;> split <;> rfl

@[simp] theorem bufferRec_pub (x : LogRec) : (bufferRec x d).pub = d.pub := by
  unfold bufferRec
  dsimp only
  split
  · rfl
  · split <;> rfl

end

/-- A ring without its counts and stamps of discarded records, which are all that a discard writes there. -/
def undropped (g : Ring) : Ring := { g with drops := [], firstDrop := {}, lastDrop := {} }

section
variable {d e : Dev} {r : Nat}

theorem ringOf_of_rings (h : e.pub.rings = d.pub.rings) : ringOf e r = ringOf d r := by
  unfold ringOf
  rw [h]

@[simp] theorem ringOf_log (x : Log) : ringOf { d with log := x } r = ringOf d r := rfl
@[simp] theorem ringOf_bump (b i : Nat) : ringOf (bump d b i) r = ringOf d r := rfl
@[simp] theorem ringOf_setFlag_pub (i : Nat) : ringOf (setFlag 0x0A i d) r = ringOf d r := rfl

@[simp] theorem ringOf_recDropped (x : HostRec) : ringOf (recDropped x d) r = ringOf d r :=
  ringOf_of_rings (congrArg Pub.rings (recDropped_pub d x))

@[simp] theorem ringOf_settle : ringOf (settle d) r = ringOf d r := ringOf_of_rings (congrArg Pub.rings (settle_lines d).pub)

theorem undropped_setRing {q : Nat} {x : Ring} (h : undropped x = undropped (ringOf d q)) :
    undropped (ringOf (setRing d q x) r) = undropped (ringOf d r) := by
  obtain rfl | hr := eq_or_ne r q
  · rw [ringOf_setRing, h]
  · rw [ringOf_setRing_other d x hr]

@[simp] theorem undropped_ringDrop (q type : Nat) : undropped (ringOf (ringDrop q type d) r) = undropped (ringOf d r) := by
  unfold ringDrop
  dsimp only
  rw [ringOf_of_rings (congrArg Pub.rings (tally_pub _ _ _ _ _))]
  exact undropped_setRing rfl

/-- A record enqueued on any feeder queue: it may discard another one, which its ring counts. -/
@[simp] theorem undropped_feed (q : Nat) (x : HostRec) : undropped (ringOf (feed q x d) r) = undropped (ringOf d r) := by
  unfold feed
  dsimp only
  split
  · split
    · exact congrArg undropped (ringOf_of_rings (queueGrew_rings _ _ _))
    · rw [ringOf_recDropped, undropped_ringDrop]
      split <;> rfl
  · split
    · exact congrArg undropped (ringOf_of_rings (congrArg Pub.rings (capDone_pub d _)))
    · rfl

@[simp] theorem undropped_postRecord (type : Nat) (head : Bytes) (more : List Bytes) :
    undropped (ringOf (postRecord type head more d) r) = undropped (ringOf d r) := undropped_feed _ _

@[simp] theorem ringOf_bufferRec (x : LogRec) : ringOf (bufferRec x d) r = ringOf d r :=
  ringOf_of_rings (congrArg Pub.rings (bufferRec_pub d x))

/-- A record of the log may be one for a ring too, and so may discard another one. -/
@[simp] theorem undropped_logEv (code p1 p2 p3 : Nat) : undropped (ringOf (logEv code p1 p2 p3 d) r) = undropped (ringOf d r) := by
  unfold logEv logFull
  dsimp only
  split <;> split <;> simp

/-- A record abandoned is gone from its ring, which counts it. -/
theorem undropped_abandonPart : undropped (ringOf (abandonPart r d) r) = { undropped (ringOf d r) with part := none } := by
  unfold abandonPart
  split
  · rw [ringOf_recDropped, undropped_ringDrop, ringOf_setRing]
    rfl
  · next hpart =>
      rw [← hpart]
      rfl

/-! ### A HEAD write to a running ring (R220, R222) -/

/-- The HEAD would pass TAIL, or is no entry of the ring at all. -/
def outsideUnread (g : Ring) (h : Nat) : Prop := g.size ≤ h ∨ g.depth < (h + g.size - g.head) % g.size

/-- A ring stopped by a HEAD write, before its partly written record is abandoned. -/
def stoppedAt (h : Nat) (g : Ring) : Ring := { g with run := false, err := true, head := h }

section
variable {v : Nat} (hrun : (ringOf d r).run = true)
include hrun

/-- A HEAD between HEAD and TAIL returns the entries before it. -/
theorem ringHead_between (hv : ¬ outsideUnread (ringOf d r) (v % 2 ^ 24)) :
    ringHead r v d = setRing d r { ringOf d r with
      head := v % 2 ^ 24, notice := false, since := if v % 2 ^ 24 = (ringOf d r).head then (ringOf d r).since else opNs d } :=
  (if_neg (by simp [hrun])).trans (if_neg (by simpa [outsideUnread] using hv))

/-- Any other HEAD stops the ring, logs it and abandons the record being written. -/
theorem ringHead_outside (hv : outsideUnread (ringOf d r) (v % 2 ^ 24)) :
    ringHead r v d = abandonPart r (logEv 0x0A03 r (v % 2 ^ 24) 0 (setFlag 0x0A 2 (setRing d r (stoppedAt (v % 2 ^ 24) (ringOf d r))))) :=
  (if_neg (by simp [hrun])).trans (if_pos (by simpa [outsideUnread] using hv))

/-- What is left of a ring that a HEAD write stops. -/
theorem undropped_ringHead_outside (hv : outsideUnread (ringOf d r) (v % 2 ^ 24)) :
    undropped (ringOf (ringHead r v d) r) = { undropped (stoppedAt (v % 2 ^ 24) (ringOf d r)) with part := none } := by
  rw [ringHead_outside hrun hv, undropped_abandonPart, undropped_logEv, ringOf_setFlag_pub, ringOf_setRing]

end

end

/-! ### A stopped ring (R222) -/

/-- Nothing is written to a stopped ring, whether a record is partly written or waits. -/
theorem ringRecordWrite_stopped {r : Fin 32} {s : State} (hstop : (ringOf s.dev r.val).run = false) :
    exec (.ringRecordWrite r) s = .next { s with dev := settle s.dev } := by
  have hclosed : ringWrites s.dev r = false := by simp [ringWrites, hstop]
  change execRingRecordWrite r s = _
  simp only [execRingRecordWrite, runLive, run, onDev, whenDo]
  cases isLive s.dev with
  | false => rfl
  | true => cases (ringOf s.dev r).part <;> simp [hstop, hclosed]

/-- Settles O52: logging and abandoning write nothing of a ring but its counts of discards, so `undropped` shows how it stopped. -/
theorem headWritesOutsideStopTheRing : Obligations.HeadWritesOutsideStopTheRing := by
  unfold Obligations.HeadWritesOutsideStopTheRing
  refine ⟨fun r v s hl hrun => ⟨fun hs hd => ?between, fun hv => ?outside⟩, fun r s hstop => ringRecordWrite_stopped hstop⟩
  case between =>
    have hv : ¬ outsideUnread (ringOf s.dev r.val) (v.toNat % 2 ^ 24) := not_or.mpr ⟨Nat.not_le.mpr hs, Nat.not_lt.mpr hd⟩
    exact (runLive_next hl).trans (by rw [ringHead_between hrun hv])
  case outside =>
    refine ⟨_, runLive_next hl, ?_⟩
    rw [ringOf_settle]
    have hfield {α : Type} (f : Ring → α) := congrArg f (undropped_ringHead_outside hrun hv)
    exact ⟨hfield Ring.run, hfield Ring.err, hfield Ring.head, hfield Ring.tail, hfield Ring.part⟩

end Sys2Proof.Proofs.HostRings
end

section
/-!
Proofs of the statements of chapter 15: tampers (R421, R422) and what needs presence (R400, R420, R428, R472).
-/
namespace Sys2Proof.Proofs.KeysAndTamper

open Sys2Proof Sys2Proof.Machine Sys2Proof.Safety Sys2Proof.Laws Sys2Proof.Proofs.Generations Sys2Proof.Proofs.TimeReference

/-- A fold keeps what each of its steps keeps. -/
theorem foldl_keeps {α β γ : Type} (p : β → γ) {f : β → α → β} (h : ∀ b a, p (f b a) = p b) (l : List α) (b : β) :
    p (l.foldl f b) = p b :=
  List.foldlRecOn l f (motive := fun e => p e = p b) rfl fun e he a _ => (h e a).trans he

/-! ### Logging leaves the data blocks alone -/

section
variable (d : Dev)

@[simp] theorem dataBlocks_bufferRec (x : LogRec) : dataBlocks (bufferRec x d) = dataBlocks d := by
  unfold bufferRec
  dsimp only
  split
  · rfl
  · split <;> rfl

@[simp] theorem dataBlocks_logFull (src code : Nat) (sev : Sev) (p1 p2 p3 : Nat) (summary : Bool) :
    dataBlocks (logFull src code sev p1 p2 p3 summary d) = dataBlocks d := by
  unfold logFull
  dsimp only
  split <;> split <;> simp

@[simp] theorem dataBlocks_logEv (code p1 p2 p3 : Nat) : dataBlocks (logEv code p1 p2 p3 d) = dataBlocks d :=
  dataBlocks_logFull d _ _ _ _ _ _ _

/-! ### Starting and ending a command leave the data blocks alone (R437, R440) -/

@[simp] theorem dataBlocks_hostWrite (a : W64) (b : Bytes) : dataBlocks (hostWrite a b d) = dataBlocks d := by
  unfold hostWrite
  split <;> rfl

@[simp] theorem dataBlocks_cqWrite (n : Nat) (e : Bytes) : dataBlocks (cqWrite n d e) = dataBlocks d := by
  simp [cqWrite]

@[simp] theorem dataBlocks_sendMsix (b : Bool) (v : Nat) : dataBlocks (sendMsix b v d) = dataBlocks d := by
  obtain ⟨p, h⟩ | h | h := sendMsix_cases b v d <;> simp [h]

@[simp] theorem dataBlocks_queueReply (n : Nat) (l : List Bytes) : dataBlocks (queueReply n l d) = dataBlocks d := by
  unfold queueReply
  dsimp only
  split <;> simp [foldl_keeps dataBlocks fun d e => dataBlocks_cqWrite d n e]

@[simp] theorem dataBlocks_sendReply (h : Hdr) (op st : Nat) (order : W32) (reply : Bytes) :
    dataBlocks (sendReply h op st order reply d) = dataBlocks d := by
  unfold sendReply
  dsimp only
  split
  · simp
  · split
    · simp
    · split <;> simp

@[simp] theorem dataBlocks_digestStep (h : Hdr) (op : Nat) (params : Bytes) (st : Status) :
    dataBlocks (digestStep h op params st d) = dataBlocks d := by
  unfold digestStep
  split <;> rfl

@[simp] theorem dataBlocks_replayStep (st : Status) : dataBlocks (replayStep st d) = dataBlocks d := by
  unfold replayStep
  dsimp only
  split <;> simp

@[simp] theorem dataBlocks_finishOne (h : Hdr) (op : Nat) (params : Bytes) (st : Status) (reply : Bytes) :
    dataBlocks (finishOne h op params st reply d) = dataBlocks d := by
  unfold finishOne
  dsimp only
  split <;> split <;> split <;> simp

@[simp] theorem dataBlocks_endAborts (chan : Nat) (seq : W32) : dataBlocks (endAborts chan seq d) = dataBlocks d := by
  refine foldl_keeps dataBlocks (fun d w => ?_) _ _
  split <;> simp

@[simp] theorem dataBlocks_takePacket (h : Hdr) : dataBlocks (takePacket h d) = dataBlocks d := by
  unfold takePacket
  split
  · simp
  · split <;> simp

@[simp] theorem dataBlocks_startCmd (h : Hdr) (op : Nat) (params : Bytes) : dataBlocks (startCmd h op params d) = dataBlocks d := rfl

@[simp] theorem dataBlocks_refuseUndefined (n : Nat) : dataBlocks (refuseUndefined n d) = dataBlocks d := by
  induction n generalizing d with
  | zero => rfl
  | succ n ih =>
    unfold refuseUndefined
    split
    · rfl
    · dsimp only
      rw [ih]
      split
      · simp
      · split
        · simp
        · split <;> simp

@[simp] theorem dataBlocks_finish (h : Hdr) (op : Nat) (params : Bytes) (st : Status) (reply : Bytes) :
    dataBlocks (finish h op params st reply d) = dataBlocks d := by
  simp [finish, refuseWaiting]

@[simp] theorem dataBlocks_localAnswer (h : Hdr) (op : Nat) (params : Bytes) (st : Status) (reply : Bytes) :
    dataBlocks (localAnswer h op params st reply d) = dataBlocks d := by
  unfold localAnswer
  split
  · simp
  · dsimp only
    split <;> simp [bothDone, endForward]

@[simp] theorem dataBlocks_finishExec (e : Executing) (st : Status) (reply : Bytes) :
    dataBlocks (finishExec e st reply d) = dataBlocks d := dataBlocks_localAnswer d _ _ _ _ _

end

/-! ### The blocks of the keys, of tampers and of power -/

/-- The blocks that a tamper writes. -/
def secured (d : Dev) : Key × Tmp × Pwr := (d.key, d.tmp, d.pwr)

/-- They are among the data blocks. -/
theorem secured_of_dataBlocks {d e : Dev} (h : dataBlocks e = dataBlocks d) : secured e = secured d :=
  calc secured e = secured (dataBlocks e) := rfl
    _ = secured (dataBlocks d) := by rw [h]
    _ = secured d := rfl

section
variable (d : Dev)

@[simp] theorem secured_settle : secured (settle d) = secured d :=
  Prod.ext (settle_lines d).key (Prod.ext (settle_lines d).tmp (settle_lines d).pwr)

@[simp] theorem secured_logEv (code p1 p2 p3 : Nat) : secured (logEv code p1 p2 p3 d) = secured d :=
  secured_of_dataBlocks (dataBlocks_logEv d code p1 p2 p3)

@[simp] theorem secured_tally (kind inst n arg : Nat) : secured (tally kind inst n arg d) = secured d :=
  secured_of_dataBlocks (dataBlocks_tally kind inst n arg d)

@[simp] theorem secured_bump (b i : Nat) : secured (bump d b i) = secured d := rfl
@[simp] theorem secured_emit (o : Output) : secured (emit o d) = secured d := rfl
@[simp] theorem secured_hrd (x : Hrd) : secured { d with hrd := x } = secured d := rfl
@[simp] theorem secured_tod (x : Tod) : secured { d with tod := x } = secured d := rfl
@[simp] theorem secured_setPort (p : Nat) (x : Port) : secured (setPort d p x) = secured d := rfl
@[simp] theorem secured_portFlag (p i : Nat) : secured (portFlag p i d) = secured d := rfl
@[simp] theorem secured_portCnt (p i : Nat) : secured (portCnt p i d) = secured d := rfl
@[simp] theorem secured_portLog (p low a b : Nat) : secured (portLog p low a b d) = secured d := secured_logEv d _ _ _ _

/-- KEY_FLAGS is part of the key block. -/
theorem secured_setFlag_key (i : Nat) :
    secured (setFlag 0x17 i d) = ({ (secured d).1 with flags := setBit (secured d).1.flags i }, (secured d).2) := rfl

/-- The run state is part of the power block. -/
theorem secured_run (r : Run) (c : Cmd) :
    secured { d with pwr := { d.pwr with run := r }, cmd := c } =
      ((secured d).1, (secured d).2.1, { (secured d).2.2 with run := r }) := rfl

/-! ### The users of a lost key (R92, R124, R209, R316) -/

@[simp] theorem secured_saUnusable (p dir sc an cause : Nat) : secured (saUnusable p dir sc an cause d) = secured d := by
  simp [saUnusable]

@[simp] theorem secured_portSasLost (slot cause p : Nat) : secured (portSasLost slot cause p d) = secured d := by
  refine (foldl_keeps secured (fun d _ => ?rx) _ _).trans ?tx
  case rx => exact foldl_keeps secured (fun d _ => secured_saUnusable d ..) _ d
  case tx => exact foldl_keeps secured (fun d _ => secured_saUnusable d ..) _ _

@[simp] theorem secured_quarStreams (slot cause : Nat) : secured (quarStreams slot cause d) = secured d :=
  foldl_keeps secured (fun d _ => secured_logEv (setFlag 0x07 4 (setStream _ _ d)) _ _ _ _) _ d

@[simp] theorem secured_quarTemplates (slot cause : Nat) : secured (quarTemplates slot cause d) = secured d :=
  foldl_keeps secured (fun d _ => secured_logEv (setFlag 0x0A 4 (setTpl _ _ d)) _ _ _ _) _ d

@[simp] theorem secured_quarGoose (slot cause : Nat) : secured (quarGoose slot cause d) = secured d :=
  foldl_keeps secured (fun d _ => secured_logEv (setFlag 0x02 5 (setGoose _ _ d)) _ _ _ _) _ d

/-- Every user of a lost key acts on its own block. -/
@[simp] theorem secured_keyLost (slot cause : Nat) : secured (keyLost slot cause d) = secured d := by
  simp [keyLost, foldl_keeps secured fun d p => secured_portSasLost d slot cause p]

/-! ### The zeroize line (R421) -/

/-- The key block with the vault and KS cleared, the identity key lost and the zeroization flagged. -/
def zeroized (k : Key) : Key :=
  { k with ks := none, slots := [], ke := [], identity := false, vault := .zeroized, drbgReqs := 0, flags := setBit k.flags 4 }

theorem secured_zeroizeVault :
    secured (zeroizeVault d) =
      ({ d.key with slots := [], ke := [], identity := false, vault := .zeroized, drbgReqs := 0 }, d.tmp, d.pwr) :=
  foldl_keeps secured (fun d n => secured_keyLost d n 0) _ _

/-- The zeroize line clears the keys, whatever their users do. -/
theorem secured_zeroizeLine : secured (zeroizeLine d) = (zeroized d.key, d.tmp, d.pwr) := by
  rw [zeroizeLine, secured_setFlag_key, keyCnt, secured_bump, secured_zeroizeVault]
  rfl

/-- A message dropped before its commit word leaves nothing in the key block. -/
theorem secured_dropUpdate (st : Status) : secured (dropUpdate st d) = ({ d.key with update := none }, d.tmp, d.pwr) := by
  unfold dropUpdate
  split
  next hnone => rw [← hnone]; rfl
  next u _ =>
    dsimp only
    split
    · refine (secured_of_dataBlocks (dataBlocks_finishExec _ _ _ _)).trans ?_
      split <;> rfl
    · split <;> rfl

/-! ### Entering TAMPERED (R422, R423) -/

@[simp] theorem secured_depart (cause : Nat) : secured (depart cause d) = secured d := by
  unfold depart
  split
  · rw [goingDown, secured_emit, secured_hrd, secured_hrd]
  · rfl

/-- A frame of a link that falls is counted, at most, for its template. -/
@[simp] theorem secured_tplCount (f : TxFrame) (sent : Bool) : secured (tplCount f sent d) = secured d := by
  unfold tplCount
  split <;> rfl

@[simp] theorem secured_egressDrop (p cnt : Nat) : secured (egressDrop p cnt d) = secured d :=
  secured_tally (setFlag 0x0A 1 (bump d 0x0A cnt)) _ _ _ _

@[simp] theorem secured_linkFall (p : Nat) (entered : Link) (c : LinkCut) : secured (linkFall p entered c d) = secured d := by
  have hleft (d : Dev) (f : TxFrame) :
      secured (if f.kind = 3 then d else tplCount f false (egressDrop p 9 d)) = secured d := by
    split <;> simp
  unfold linkFall
  dsimp only
  simp only [secured_portLog, secured_portFlag, secured_portCnt, foldl_keeps secured hleft]
  split <;> split <;> simp

@[simp] theorem secured_lanesIdle : secured (lanesIdle d) = secured d := by
  refine foldl_keeps secured (fun d p => ?_) _ d
  dsimp only
  split <;> simp

/-- The outputs go off and the device halts; of these blocks that writes the run state alone. -/
theorem secured_enterTampered :
    secured (enterTampered d) = ((secured d).1, (secured d).2.1, { (secured d).2.2 with run := .tampered }) := by
  rw [enterTampered, secured_run, outputsOff, secured_emit, secured_lanesIdle, secured_tod, secured_depart]

end

/-! ### TAMPER_DETECTED (R421, R422) -/

/-- A tamper out of reset, before the halt: the update in progress is dropped, the keys are cleared, the record is written. -/
def tamperActed (k c : Nat) (d : Dev) : Dev :=
  let e := zeroizeLine (dropUpdate .aborted (latchTamper k c d))
  logTamper k c e.tmp.last.toNat e

theorem secured_tamperActed (k c : Nat) (d : Dev) :
    secured (tamperActed k c d) = (zeroized { d.key with update := none }, (latchTamper k c d).tmp, d.pwr) := by
  have hdrop := secured_dropUpdate (latchTamper k c d) .aborted
  refine (secured_logEv _ _ _ _ _).trans ((secured_zeroizeLine _).trans ?_)
  exact congrArg (fun x : Key × Tmp × Pwr => (zeroized x.1, x.2)) hdrop

/-- A tamper out of reset: before alignment-ready the device halts. -/
def tamperLive (k c : Nat) (d : Dev) : Dev :=
  let e := tamperActed k c d
  if decide (e.pwr.run = .starting) then enterTampered e else e

theorem secured_tamperLive (k c : Nat) (d : Dev) :
    secured (tamperLive k c d) = (zeroized { d.key with update := none }, (latchTamper k c d).tmp,
      if d.pwr.run = .starting then { d.pwr with run := .tampered } else d.pwr) := by
  have hacted := secured_tamperActed k c d
  have hpwr : (tamperActed k c d).pwr = d.pwr := congrArg (fun x : Key × Tmp × Pwr => x.2.2) hacted
  unfold tamperLive
  dsimp only
  rw [hpwr]
  by_cases hrun : d.pwr.run = .starting
  · rw [if_pos (decide_eq_true hrun), if_pos hrun, secured_enterTampered, hacted]
  · rw [if_neg (by simpa using hrun), if_neg hrun, hacted]

/-- The keys are cleared, the sources are latched, and nothing of power is written but the run state. -/
theorem settle_tamperLive_blocks (k c : Nat) (d : Dev) :
    (settle (tamperLive k c d)).key = zeroized { d.key with update := none } ∧
    (settle (tamperLive k c d)).tmp = (latchTamper k c d).tmp ∧
    (settle (tamperLive k c d)).pwr = if d.pwr.run = .starting then { d.pwr with run := .tampered } else d.pwr := by
  have hend := (secured_settle _).trans (secured_tamperLive k c d)
  simpa only [secured, Prod.mk.injEq] using hend

/-- A tamper, by whether an armed source is active and whether the device is held in reset. -/
def tamperEffect (x : Byte) (d : Dev) : Dev :=
  let k := x.toNat.land (tamperArmed d)
  if k = 0 then d
  else if d.pwr.held then tamperHeld k (tamperContext d) d
  else tamperLive k (tamperContext d) d

section
variable {x : Byte} {s : State}

/-- The event's effect. -/
theorem tamperDetected_next : exec (.tamperDetected x) s = .next { s with dev := settle (tamperEffect x s.dev) } := rfl

/-- Sources that are not armed have no effect. -/
theorem tamperDetected_unarmed (hk : x.toNat.land (tamperArmed s.dev) = 0) :
    exec (.tamperDetected x) s = .next { s with dev := settle s.dev } := by
  rw [tamperDetected_next, tamperEffect, if_pos hk]

/-- In reset the always-on domain acts alone. -/
theorem tamperDetected_held (hk : x.toNat.land (tamperArmed s.dev) ≠ 0) (hh : s.dev.pwr.held = true) :
    exec (.tamperDetected x) s =
      .next { s with dev := settle (tamperHeld (x.toNat.land (tamperArmed s.dev)) (tamperContext s.dev) s.dev) } := by
  rw [tamperDetected_next, tamperEffect, if_neg hk, if_pos hh]

/-- Out of reset the keys are cleared and the tamper is logged, and before alignment-ready the device halts. -/
theorem tamperDetected_live (hk : x.toNat.land (tamperArmed s.dev) ≠ 0) (hh : s.dev.pwr.held = false) :
    exec (.tamperDetected x) s =
      .next { s with dev := settle (tamperLive (x.toNat.land (tamperArmed s.dev)) (tamperContext s.dev) s.dev) } := by
  rw [tamperDetected_next, tamperEffect, if_neg hk, if_neg (by simp [hh])]

end

/-- TMP_COUNT counts up to 65,535 and stays there. -/
theorem toNat_countUp (c : W16) : (if c = 0xFFFF then c else c + 1).toNat = min 65535 (c.toNat + 1) := by
  split <;> bv_omega

/-- What the always-on domain writes in reset: KS, and the tamper block with the sources latched. -/
theorem tamperHeld_frame (k c : Nat) (d : Dev) :
    ∃ y : Tmp, tamperHeld k c d = { d with key := { d.key with ks := none }, tmp := y } ∧ y.latch = d.tmp.latch ||| BitVec.ofNat 8 k := by
  unfold tamperHeld
  dsimp only
  split
  · exact ⟨_, rfl, rfl⟩
  · exact ⟨_, rfl, rfl⟩

/-- Settles O56: no user of a cleared key, no command's end and no record writes the key, tamper and power blocks, so `secured` of the state
after a tamper shows the cleared keys, the latched sources and the run state. -/
theorem tamperZeroizes : Obligations.TamperZeroizes := by
  unfold Obligations.TamperZeroizes
  refine ⟨fun x s hk hh => ⟨_, tamperDetected_live hk hh, ?live⟩, fun x s hk hh => ⟨_, tamperDetected_held hk hh, ?held⟩,
    fun x s hk => tamperDetected_unarmed hk⟩
  case live =>
    obtain ⟨hkey, htmp, hpwr⟩ := settle_tamperLive_blocks (x.toNat.land (tamperArmed s.dev)) (tamperContext s.dev) s.dev
    rw [hkey, htmp, hpwr]
    exact ⟨rfl, rfl, rfl, rfl, rfl, rfl, rfl, toNat_countUp _, fun h => by simp [h], fun h => by simp [h]⟩
  case held =>
    have hlines := settle_lines (tamperHeld (x.toNat.land (tamperArmed s.dev)) (tamperContext s.dev) s.dev)
    obtain ⟨y, hframe, hlatch⟩ := tamperHeld_frame (x.toNat.land (tamperArmed s.dev)) (tamperContext s.dev) s.dev
    dsimp only
    rw [hlines.key, hlines.tmp, hlines.pwr, hlines.log, hframe]
    exact ⟨rfl, hlatch, rfl, rfl⟩

/-! ### What needs presence (R428) -/

section
variable {b : Bool} {st : Status} {l : List (Bool × Status)} {eff : Dev → Answer} {d : Dev}

/-- A first check that fails gives the status. -/
theorem checks_head (hb : b = true) : checks ((b, st) :: l) eff d = reject st d :=
  checks_fail (List.find?_cons_of_pos hb)

/-- A first check that passes leaves the answer to the others. -/
theorem checks_tail (hb : b = false) : checks ((b, st) :: l) eff d = checks l eff d := by
  simp [checks, hb]

/-- Without presence, a check of presence that stands first refuses the command. -/
theorem checks_needPresence (hp : d.tmp.presence = false) :
    checks ((!d.tmp.presence, .presenceRequired) :: l) eff d = reject .presenceRequired d :=
  checks_head (by simp [hp])

end

/-- Settles O57: the check of presence stands first, and in TMP_CONFIG after that of the parameters. -/
theorem presenceGuards : Obligations.PresenceGuards := by
  unfold Obligations.PresenceGuards
  refine ⟨fun h => ?tmpClear, fun h mask => ?mtrClear, fun h sev => ?logClear, fun h loops internal => ?tmpConfig,
    fun _ _ => rfl, fun _ _ => rfl⟩
  case tmpClear => exact ends_of_body (fun _ => rfl) fun _ hp => checks_needPresence hp
  case mtrClear => exact ends_of_body (fun _ => rfl) fun _ hp => checks_needPresence hp
  case logClear => exact ends_of_body (fun _ => rfl) fun _ hp => checks_needPresence hp
  case tmpConfig =>
    refine ends_of_body (fun _ => rfl) fun d ⟨hp, hloops, hint, hweak⟩ => (checks_tail ?params).trans (checks_head ?presence)
    case params => rw [hloops, hint]; rfl
    case presence => rw [hweak, hp]; rfl

end Sys2Proof.Proofs.KeysAndTamper
end

section
/-!
Proofs of the statements of chapter 16: the acceptance and the checks of command packets (R436 to R444), forwarding (R483, R484), replies (R435),
mailboxes (R449) and what a step runs.
-/
namespace Sys2Proof.Proofs.Commands

open Sys2Proof Sys2Proof.Machine Sys2Proof.Safety Sys2Proof.Laws Sys2Proof.Proofs.Scope Sys2Proof.Proofs.ChannelDirectory
  Sys2Proof.Proofs.KeysAndTamper

/-! ### What a step runs -/

/-- Settles O29: `step` is defined by the front of the queue. -/
theorem stepRunsTheFrontCommand : Obligations.StepRunsTheFrontCommand := by
  unfold Obligations.StepRunsTheFrontCommand
  intro c rest s hs
  rw [step, hs]

/-! ### The ways a packet's acceptance goes (R437, R438, R441, Table 16-4) -/

section
variable {h : Hdr} {op : Nat} {params : Bytes} {hb : Bool} {block : Dev → BlockRead} {body : Dev → Answer} {d : Dev}

/-- Out of its turn a packet leaves the device as it is. -/
theorem acceptCmd_out_of_turn (hc : canAccept d h op params = false) : acceptCmd h op params hb block body d = d := by
  simp [acceptCmd, hc]

/-- An abort that has named the packet comes before every check. -/
theorem acceptCmd_aborted (hc : canAccept d h op params = true) (ha : abortNamed d h = true) :
    acceptCmd h op params hb block body d = finish h op params .aborted [] (started h op params d) := by
  simp [acceptCmd, hc, ha, started]

/-- The header's check comes before that of SEQ. -/
theorem acceptCmd_header_bad (hc : canAccept d h op params = true) (ha : abortNamed d h = false) (hh : headerBad h = true) :
    acceptCmd h op params hb block body d = finish h op params .badParam [] (started h op params d) := by
  simp [acceptCmd, hc, ha, hh, started]

/-- A packet out of sequence is answered with the SEQ expected. -/
theorem acceptCmd_seq_bad {e : W32} (hc : canAccept d h op params = true) (ha : abortNamed d h = false) (hh : headerBad h = false)
    (hs : seqBad d h = some e) :
    acceptCmd h op params hb block body d = finish h op params .badParam (seqReply e) (started h op params d) := by
  simp [acceptCmd, hc, ha, hh, hs, started]

/-- A packet in sequence ends with the first check of Table 16-2 that it fails. -/
theorem acceptCmd_fault {st : Status} (hc : canAccept d h op params = true) (ha : abortNamed d h = false) (hh : headerBad h = false)
    (hs : seqBad d h = none) (hf : acceptFault d h op params hb = some st) :
    acceptCmd h op params hb block body d = finish h op params st [] (started h op params d) := by
  simp [acceptCmd, hc, ha, hh, hs, hf, started]

/-- A header that fails its check is the fault of the packet. -/
theorem acceptFault_header (hh : headerBad h = true) : acceptFault d h op params hb = some .badParam := if_pos hh

/-- A packet without a fault has a good header. -/
theorem headerBad_of_no_fault (hf : acceptFault d h op params hb = none) : headerBad h = false := by
  by_contra hh
  rw [acceptFault_header (by simpa using hh)] at hf
  cases hf

/-- A packet that passes every check executes by its TARGET. -/
theorem acceptCmd_executes (hc : canAccept d h op params = true) (ha : abortNamed d h = false) (hs : seqBad d h = none)
    (hf : acceptFault d h op params hb = none) :
    acceptCmd h op params hb block body d = executeCmd h op params block body (started h op params d) := by
  simp [acceptCmd, hc, ha, headerBad_of_no_fault hf, hs, hf, started]

/-- A packet command's next state, where the acceptance comes out alike for every block and body. -/
theorem exec_of_acceptCmd {c : Instr} {s : State} {e : Dev} (hp : packetOf c = some (h, op, params, hb))
    (he : ∀ block body, acceptCmd h op params hb block body s.dev = e) : exec c s = .next { s with dev := settle e } := by
  obtain ⟨block, body, hx⟩ := packet_runs c hp
  rw [hx, ← he block body]
  rfl

end

/-- Settles O36: `acceptCmd` asks for the turn first. -/
theorem packetsOutOfTurnHaveNoEffect : Obligations.PacketsOutOfTurnHaveNoEffect := by
  unfold Obligations.PacketsOutOfTurnHaveNoEffect
  exact fun c h op params hb s hp hc => exec_of_acceptCmd hp fun _ _ => acceptCmd_out_of_turn hc

/-- Settles O40: an abort that has named the packet comes before every check. -/
theorem abortedBeforeAcceptance : Obligations.AbortedBeforeAcceptance := by
  unfold Obligations.AbortedBeforeAcceptance
  exact fun c h op params hb s hp hc ha => exec_of_acceptCmd hp fun _ _ => acceptCmd_aborted hc ha

/-- Settles O38: a bad header has BAD_PARAM as its fault, any other fault is tested once the header and SEQ have passed. -/
theorem failedChecksRefuse : Obligations.FailedChecksRefuse := by
  unfold Obligations.FailedChecksRefuse
  intro c h op params hb s st hp hc ha hseq hf
  refine exec_of_acceptCmd hp fun _ _ => ?_
  cases hh : headerBad h with
  | true =>
    obtain rfl : Status.badParam = st := Option.some.inj ((acceptFault_header hh).symm.trans hf)
    exact acceptCmd_header_bad hc ha hh
  | false => exact acceptCmd_fault hc ha hh (hseq.resolve_left (by simp [hh])) hf

/-! ### What acceptance asks (R437) -/

/-- There is room for a command: the device and its software run, the channel is idle, and neither the number in execution nor a fence holds it. -/
theorem roomFor_iff {d : Dev} {chan : Nat} {fenced : Bool} :
    roomFor d chan fenced = true ↔
      isLive d = true ∧ (if d.cmd.loader then (chan == 8 || chan == 20) && d.cmd.executing.isEmpty else d.cmd.fwUp) = true ∧
      d.cmd.fwRestarting = false ∧ stalledIn d 4 = false ∧ executingOn d chan = none ∧ d.cmd.executing.length < 4 ∧ d.cmd.fence = false ∧
      (fenced = true → d.cmd.executing = []) := by
  cases fenced <;> simp [roomFor, and_assoc]

/-- A channel has a command next where its next packet holds the command's header, opcode and parameters. -/
theorem channelReady_iff {d : Dev} {h : Hdr} {op : Nat} {params : Bytes} :
    channelReady d h op params = true ↔
      ∃ x, nextOn d h.chan = some x ∧ packetHdr h.chan x.1 x.2 = h ∧ packetOp x.2 = op ∧ cut x.2 16 params.length = params := by
  simp [channelReady, Option.any_eq_true, and_assoc]

/-- A channel has the turn where no ready channel comes before it, by class and then by the round; the replay's channel always has it. -/
theorem turnOf_iff {d : Dev} {chan : Nat} :
    turnOf d chan = true ↔
      (chan ≠ 24 → ∀ c ∈ readyChans d, classOf chan < classOf c ∨ (classOf chan = classOf c ∧ roundOf d chan ≤ roundOf d c)) := by
  simp [turnOf, Decidable.or_iff_not_imp_left]

/-- Settles O37: the parts of `canAccept`, each said by its own lemma. -/
theorem acceptanceRule : Obligations.AcceptanceRule := by
  unfold Obligations.AcceptanceRule
  intro d h op params hc
  simp only [canAccept, Bool.and_eq_true] at hc
  obtain ⟨⟨hroom, hready⟩, hturn⟩ := hc
  obtain ⟨hlive, -, hrestart, -, hidle, hfour, hfence, halone⟩ := roomFor_iff.mp hroom
  exact ⟨hidle, hfour, hfence, hlive, hrestart, halone, channelReady_iff.mp hready, turnOf_iff.mp hturn⟩

/-! ### Packets out of sequence (R441) -/

/-- A fetched packet out of sequence: counted and logged, and kept with the SEQ that was expected; the next one expected follows its own. -/
theorem cmdFetch_out_of_sequence {pair : Fin 16} {packet : Bytes} {s : State} (hlive : isLive s.dev = true)
    (hen : (pairOf s.dev pair.val).en = true) (hrun : (pairOf s.dev pair.val).stopped = false)
    (hwork : (pairOf s.dev pair.val).sqHead ≠ (pairOf s.dev pair.val).sqTail) (hroom : (pairOf s.dev pair.val).fetched.length < 992)
    (hlink : s.dev.gbl.linkUp = true) (hd3 : (funcOf s.dev (8 ≤ pair.val)).d3hot = false) (hclk : stalledIn s.dev 4 = false)
    (hfixed : (pairOf s.dev pair.val).seqFixed = true) (hseq : packetSeq packet ≠ (pairOf s.dev pair.val).seqNext) :
    exec (.cmdFetch pair packet) s = .next { s with dev := settle (refuseWaiting (seqError pair.val (pairOf s.dev pair.val).seqNext
      (packetSeq packet) (setPair s.dev pair.val { pairOf s.dev pair.val with
        sqHead := ((pairOf s.dev pair.val).sqHead + 1) % sqSize (pairOf s.dev pair.val), seqFixed := true, seqNext := packetSeq packet + 1
        fetched := (pairOf s.dev pair.val).fetched ++
          [{ packet := cut packet 0 64, bad := some (pairOf s.dev pair.val).seqNext }] }))) } := by
  refine (runLive_next hlive).trans ?_
  dsimp only
  rw [if_neg (by simp [hen, hrun, hwork, hroom, hlink, hd3, hclk]), hfixed, bne_iff_ne.mpr hseq]
  rfl

/-- Settles O39: the SEQ check follows that of the header, and a fetch tells the packet's SEQ from the expected one. -/
theorem sequenceErrorsRefuse : Obligations.SequenceErrorsRefuse := by
  unfold Obligations.SequenceErrorsRefuse
  refine ⟨fun c h op params hb s e hp hc ha hh hs => ?_, fun pair packet s => ?_⟩
  · exact exec_of_acceptCmd hp fun _ _ => acceptCmd_seq_bad hc ha hh hs
  · exact cmdFetch_out_of_sequence

/-! ### The checks of Table 16-2 (R436, R438) -/

/-- What the header's check refuses. -/
theorem headerBad_iff {h : Hdr} : headerBad h = true ↔ 1 < h.flags.toNat ∨ h.status ≠ 0 ∨ h.order ≠ 0 := by
  have hflags : h.flags.toNat / 2 ≠ 0 ↔ 1 < h.flags.toNat := by omega
  rw [← hflags]
  simp [headerBad, or_assoc]

section
variable {d : Dev} {h : Hdr} {op : Nat} {params : Bytes} {hb : Bool} (hh : headerBad h = false)

/-- An opcode of the secure channels is not permitted on another one. -/
theorem permitted_of_secureOnly (hop : secureOnly op params = true) (hc : secureChan h.chan = false) : permitted d h op params = false := by
  simp [permitted, hop, hc]

include hh

/-- Step 4 of Table 16-2: the opcode may run on the channel. -/
theorem acceptFault_not_permitted (hp : permitted d h op params = false) : acceptFault d h op params hb = some .notPermitted := by
  simp [acceptFault, hh, hp]

variable (hp : permitted d h op params = true)
include hp

/-- Step 5 of Table 16-2: no host buffer through a local-bus mailbox. -/
theorem acceptFault_wrong_channel (hbuf : hb = true) (hv : viaLocalBus h = true) : acceptFault d h op params hb = some .wrongChannel := by
  simp [acceptFault, hh, hp, hbuf, hv]

variable (hv : hb = false ∨ viaLocalBus h = false)
include hv

/-- Step 6 of Table 16-2: PLEN is the opcode's, and the bytes behind the parameters are 0. -/
theorem acceptFault_length (hl : h.plen.toNat ≠ params.length ∨ h.pad = false) : acceptFault d h op params hb = some .badLength := by
  have hbuf : (hb && viaLocalBus h) = false := Bool.and_eq_false_iff.mpr hv
  have hlen : (h.plen.toNat != params.length || !h.pad) = true := by simpa using hl
  simp only [acceptFault, hh, hp, hbuf, hlen, Bool.not_true, Bool.false_eq_true, if_false, if_true]

variable (hl : h.plen.toNat = params.length) (hpad : h.pad = true) (ht : isLocal h = false)
include hl hpad ht

/-- Step 7 of Table 16-2: TARGET is one of R436's. -/
theorem acceptFault_target (hbig : 2 < h.target.toNat) : acceptFault d h op params hb = some .badParam := by
  have hbuf : (hb && viaLocalBus h) = false := Bool.and_eq_false_iff.mpr hv
  simp [acceptFault, hh, hp, hbuf, hl, hpad, ht, hbig]

/-- Step 7 of Table 16-2: CMD_ABORT and the groups 0x09xx and 0x0Axx never go to the peer, and nothing does while the lane is not up. -/
theorem acceptFault_forwarding (hsmall : h.target.toNat ≤ 2)
    (hop : op = 0x0102 ∨ op / 256 = 0x09 ∨ op / 256 = 0x0A ∨ d.hrd.lane ≠ .up) : acceptFault d h op params hb = some .notPermitted := by
  have hbuf : (hb && viaLocalBus h) = false := Bool.and_eq_false_iff.mpr hv
  have hbar : (op == 0x0102 || op / 256 == 0x09 || op / 256 == 0x0A || !decide (d.hrd.lane = .up)) = true := by
    simpa [or_assoc] using hop
  simp only [acceptFault, hh, hp, hbuf, hl, hpad, ht, hbar, Nat.not_lt.mpr hsmall, bne_self_eq_false, Bool.or_self, Bool.not_true,
    Bool.false_eq_true, if_false, if_true]

end

/-- A command that the peer did not send and that has a TARGET is not for this unit alone. -/
theorem isLocal_false {h : Hdr} (hc : h.chan < 25) (ht : h.target ≠ 0) : isLocal h = false := by
  rw [isLocal, beq_false_of_ne ht, decide_eq_false (Nat.not_le.mpr hc), Bool.or_self]

/-- Settles O42: each clause is one step of Table 16-2, the steps before it passed. -/
theorem acceptanceChecks : Obligations.AcceptanceChecks := by
  unfold Obligations.AcceptanceChecks
  refine ⟨fun d h op params hb hbad => acceptFault_header (headerBad_iff.mpr hbad), fun d h op params hb hflags hstatus horder => ?_⟩
  have hh : headerBad h = false := by
    rw [← Bool.not_eq_true, headerBad_iff]
    simp [hstatus, horder, hflags]
  refine ⟨fun hop hc => acceptFault_not_permitted hh (permitted_of_secureOnly hop hc),
    fun hp hbuf hv => acceptFault_wrong_channel hh hp hbuf hv,
    fun hp hv => ⟨acceptFault_length hh hp hv, fun hl hpad hc => ⟨fun hbig => ?_, fun ht hop => ?_⟩⟩⟩
  · exact acceptFault_target hh hp hv hl hpad (isLocal_false hc (by rintro h0; simp [h0] at hbig)) hbig
  · refine acceptFault_forwarding hh hp hv hl hpad (isLocal_false hc ?_) ?_ hop
    all_goals rcases ht with ht | ht <;> simp [ht]

/-! ### Forwarding (R436, R483, R484) -/

/-- The parameter block of a packet command, as its acceptance reads it (R434). -/
def packetBlock (c : Instr) (h : Hdr) : Dev → BlockRead :=
  match blockOf c with
  | none => noBlock
  | some (src, len, given) => fun d => (blockFault h src len, paramBytes h src len given d)

/-- A packet command's shared machinery reads the block that `blockOf` names. -/
theorem packet_runs_with_block {c : Instr} {h : Hdr} {op : Nat} {params : Bytes} {hb : Bool} (hp : packetOf c = some (h, op, params, hb)) :
    ∃ body, ∀ s, exec c s = cmdWith h op params hb (packetBlock c h) body s := by
  cases c <;> cases hp <;> exact ⟨_, fun _ => rfl⟩

section
variable {h : Hdr} {op : Nat} {params : Bytes} {block : Dev → BlockRead} {body : Dev → Answer} {d : Dev} (hl : isLocal h = false)
include hl

/-- A block that cannot be read ends a command that is to be forwarded. -/
theorem executeCmd_block_fault {st : Status} {b : Bytes} (hb : block d = (some st, b)) :
    executeCmd h op params block body d = finish h op params st [] d := by
  simp [executeCmd, hl, hb]

/-- A command for the peer alone, or for the peer first, is sent with its block and waits. -/
theorem executeCmd_forwards {b : Bytes} (hb : block d = (none, b)) (ht : h.target = 1 ∨ (h.target = 2 ∧ (op = 0x0110 ∨ op = 0x0111))) :
    executeCmd h op params block body d = refuseWaiting (forwardCmd h op params b (h.target = 2) d) := by
  obtain ht | ⟨ht, hop⟩ := ht
  · simp [executeCmd, hl, hb, ht]
  · have hpeer : peerFirstOp op = true := by simpa [peerFirstOp] using hop
    simp [executeCmd, hl, hb, ht, hpeer]

end

/-- Settles O41: what passes the checks and is for the peer is sent with its block, unless the block cannot be read; the body does not run. -/
theorem forwardedCommandsWaitForThePeer : Obligations.ForwardedCommandsWaitForThePeer := by
  unfold Obligations.ForwardedCommandsWaitForThePeer
  intro c h op params hb s hp hc ha hs hf hchan ht
  dsimp only
  have hl : isLocal h = false := isLocal_false hchan (by rcases ht with ht | ⟨ht, -⟩ <;> simp [ht])
  obtain ⟨body, hx⟩ := packet_runs_with_block hp
  have hexec : exec c s =
      .next { s with dev := settle (executeCmd h op params (packetBlock c h) body (started h op params s.dev)) } := by
    rw [hx, ← acceptCmd_executes hc ha hs hf]
    rfl
  rw [hexec]
  unfold packetBlock
  cases blockOf c with
  | none => rw [executeCmd_forwards hl rfl ht]
  | some x =>
    dsimp only
    cases blockFault h x.1 x.2.1 with
    | none => rw [executeCmd_forwards hl rfl ht]
    | some st => rw [executeCmd_block_fault hl rfl]

/-! ### What completion, settling and the start of a command leave alone -/

/-- The blocks that commands configure or that carry data are none of those that the interrupt outputs write. -/
theorem OnlyLines.dataBlocks_eq {d e : Dev} (h : OnlyLines d e) : dataBlocks e = dataBlocks d := by
  simp only [dataBlocks, h.clk, h.pwr, h.tod, h.ports, h.ing, h.dir, h.aln, h.est, h.osc, h.isl, h.alm, h.lch, h.lmf, h.aux, h.mtr, h.key,
    h.tmp, h.cur, h.staged, h.old, h.snap]

/-- Settles O43: completion, start and logging by their own lemmas, settling by what the interrupt outputs write. -/
theorem bookkeepingTouchesNoOtherBlock : Obligations.BookkeepingTouchesNoOtherBlock := by
  unfold Obligations.BookkeepingTouchesNoOtherBlock
  refine ⟨fun h op params st reply d => dataBlocks_finish d h op params st reply, fun h op params d => ?_, fun d => ?_,
    fun code p1 p2 p3 d => dataBlocks_logEv d code p1 p2 p3⟩
  · rw [started, dataBlocks_startCmd, dataBlocks_takePacket]
  · have hlines := settle_lines d
    exact ⟨OnlyLines.dataBlocks_eq hlines, hlines.cmd, hlines.log, hlines.cnt, hlines.pub, hlines.cap, hlines.hrd, hlines.clk⟩

/-! ### Mailboxes (R449) -/

section
variable {p : Path} {m : Nat} {d : Dev}

/-- An open path writes to the mailboxes that it reaches. -/
theorem mbxAccess_reached {f : Dev → Dev} (ho : pathOpen d p = true) (hr : mbxReach p m = true) : mbxAccess p m f d = f d := by
  simp [mbxAccess, ho, hr]

/-- A data word is rejected by an outbound mailbox and by a FULL one. -/
theorem mbxWrite_rejected {i : Nat} {v : W32} (hx : mbxIn m = false ∨ (mboxOf d m).full = true) :
    mbxWrite p m i v d = mbxReject p m d := by
  rcases hx with hx | hx <;> simp [mbxWrite, hx]

/-- POST is rejected by a FULL inbound mailbox. -/
theorem mbxPost_rejected (hin : mbxIn m = true) (hfull : (mboxOf d m).full = true) : mbxPost p m d = mbxReject p m d := by
  simp [mbxPost, hin, hfull]

/-- TAKE of an EMPTY mailbox is ignored. -/
theorem mbxTake_empty (hfull : (mboxOf d m).full = false) : mbxTake p m d = accessOk p d := by
  simp [mbxTake, hfull]

/-- On the local bus a rejected write, latched and counted, ends with LB_ERR_N. -/
theorem mbxReject_lb (hp : isLb p = true) : mbxReject p m d = lbEnd true (mbxCnt 3 (setMbox d m { mboxOf d m with reject := true })) := by
  simp [mbxReject, hp]

/-- On PCIe it ends with a Completer Abort. -/
theorem mbxReject_pcie (hp : isLb p = false) :
    mbxReject p m d = pcieError (decide (p = .pf1)) 0 false (mbxCnt 3 (setMbox d m { mboxOf d m with reject := true })) := by
  simp [mbxReject, hp]

/-! The errors leave the command block and the count of rejected writes as they are. -/

theorem lbEnd_cmd (failed : Bool) : (lbEnd failed d).cmd = d.cmd := by cases failed <;> rfl

theorem pcieError_cmd (pf1 : Bool) (kind : Nat) : (pcieError pf1 kind false d).cmd = d.cmd := rfl

theorem lbEnd_cnt (failed : Bool) : mget 0 (lbEnd failed d).cnt (cntKey 3 0 3) = mget 0 d.cnt (cntKey 3 0 3) := by
  cases failed
  · rfl
  · exact mget_bumpAt_other _ 1 (by decide)

theorem pcieError_cnt (pf1 : Bool) (kind : Nat) :
    mget 0 (pcieError pf1 kind false d).cnt (cntKey 3 0 3) = mget 0 d.cnt (cntKey 3 0 3) :=
  mget_bumpAt_other _ 1 (by decide)

/-- A non-fatal error stands first in the function's AER. -/
theorem pcieError_aer (pf1 : Bool) (kind : Nat) :
    (funcOf (pcieError pf1 kind false d) pf1).aer = (kind, false) :: (funcOf d pf1).aer := by cases pf1 <;> rfl

/-- Of the command block, a rejected write changes the mailbox's REJECT alone. -/
theorem mbxReject_cmd : (mbxReject p m d).cmd = (setMbox d m { mboxOf d m with reject := true }).cmd := by
  cases hp : isLb p with
  | true => rw [mbxReject_lb hp, lbEnd_cmd]; rfl
  | false => rw [mbxReject_pcie hp, pcieError_cmd]; rfl

/-- A rejected write counts. -/
theorem mbxReject_cnt : mget 0 (mbxReject p m d).cnt (cntKey 3 0 3) = mget 0 d.cnt (cntKey 3 0 3) + 1 := by
  have hcount : mget 0 (mbxCnt 3 (setMbox d m { mboxOf d m with reject := true })).cnt (cntKey 3 0 3) = mget 0 d.cnt (cntKey 3 0 3) + 1 :=
    mget_bumpAt_same _ 3 0 3 1
  cases hp : isLb p with
  | true => rw [mbxReject_lb hp, lbEnd_cnt, hcount]
  | false => rw [mbxReject_pcie hp, pcieError_cnt, hcount]

/-- A mailbox is part of the command block. -/
theorem mboxOf_of_cmd {e : Dev} (h : e.cmd = d.cmd) (n : Nat) : mboxOf e n = mboxOf d n := by
  unfold mboxOf
  rw [h]

end

/-- Settles O53: which writes are rejected, and what a rejected write does to the mailboxes, its counter and the path. -/
theorem fullMailboxesRejectWrites : Obligations.FullMailboxesRejectWrites := by
  unfold Obligations.FullMailboxesRejectWrites
  refine ⟨fun p m i v s ho hr => ?rejected, fun p m d => ?effect, fun p m s ho hr hout hfull => ?take⟩
  case rejected =>
    intro x hx
    refine ⟨?data, fun hin => ?post⟩
    case data =>
      rw [← mbxWrite_rejected (i := i.val) (v := v) hx, ← mbxAccess_reached (f := mbxWrite p m.val i.val v) ho hr]
      rfl
    case post =>
      have hfull : x.full = true := hx.resolve_left (by simp [hin])
      rw [← mbxPost_rejected hin hfull, ← mbxAccess_reached (f := mbxPost p m.val) ho hr]
      rfl
  case effect =>
    refine ⟨?same, fun n hn => ?other, mbxReject_cnt, fun hp => ?lb, fun hp => ?pcie⟩
    case same => rw [mboxOf_of_cmd mbxReject_cmd, mboxOf_setMbox]
    case other => rw [mboxOf_of_cmd mbxReject_cmd, mboxOf_setMbox_other _ _ hn]
    case lb => rw [mbxReject_lb hp]; rfl
    case pcie => rw [mbxReject_pcie hp, pcieError_aer]; rfl
  case take =>
    rw [← mbxTake_empty hfull, ← mbxAccess_reached (f := mbxTake p m.val) ho hr]
    rfl

/-! ### The entries of a reply (R435) -/

/-- The pieces of a reply that go out in one entry each. -/
def replyPieces (reply : Bytes) : List Bytes := if reply.length ≤ 48 then [reply] else chunksOf 48 15 reply

theorem length_padTo {n : Nat} {b : Bytes} (h : b.length ≤ n) : (padTo n b).length = n := by
  simp [padTo, h]

theorem padTo_of_length {n : Nat} {b : Bytes} (h : b.length = n) : padTo n b = b := by
  simp [padTo, h]

/-- A string is cut into pieces of `k` bytes, the last of which may be padded. -/
theorem length_of_mem_chunksOf {k n : Nat} {b c : Bytes} (hc : c ∈ chunksOf k n b) : c.length = k := by
  induction n generalizing b with
  | zero => cases hc
  | succ n ih =>
    obtain rfl | hb := eq_or_ne b []
    · cases hc
    · rw [chunksOf_succ k n hb, List.mem_cons] at hc
      obtain rfl | hc := hc
      · exact length_padTo (List.length_take_le k b)
      · exact ih hc

/-- Pieces that may be enough are as many as the string needs. -/
theorem length_chunksOf {k : Nat} (hk : 0 < k) (n : Nat) {b : Bytes} (hb : b.length ≤ k * n) :
    (chunksOf k n b).length = (b.length + (k - 1)) / k := by
  induction n generalizing b with
  | zero =>
    have h0 : b.length = 0 := by omega
    rw [chunksOf, h0]
    exact (Nat.div_eq_of_lt (by omega)).symm
  | succ n ih =>
    obtain rfl | hne := eq_or_ne b []
    · exact (Nat.div_eq_of_lt (by simp [hk])).symm
    · have hpos : 0 < b.length := List.length_pos_of_ne_nil hne
      have hmul : k * (n + 1) = k * n + k := Nat.mul_succ k n
      have hrest : (b.drop k).length ≤ k * n := by rw [List.length_drop]; omega
      rw [chunksOf_succ k n hne, List.length_cons, ih hrest, List.length_drop]
      obtain hle | hlt := Nat.le_total b.length k
      · have hone : (b.length + (k - 1)) / k = 1 := Nat.div_eq_of_lt_le (by omega) (by omega)
        rw [Nat.sub_eq_zero_of_le hle, Nat.div_eq_of_lt (by omega), hone]
      · rw [← Nat.add_div_right _ hk]
        congr 1
        omega

/-- The pieces laid end to end begin with the string. -/
theorem take_flatten_chunksOf {k n : Nat} {b : Bytes} (hb : b.length ≤ k * n) : ((chunksOf k n b).flatten).take b.length = b := by
  induction n generalizing b with
  | zero =>
    have h0 : b = [] := List.eq_nil_of_length_eq_zero (by omega)
    subst h0
    rfl
  | succ n ih =>
    obtain rfl | hne := eq_or_ne b []
    · rfl
    · have hmul : k * (n + 1) = k * n + k := Nat.mul_succ k n
      rw [chunksOf_succ k n hne, List.flatten_cons]
      obtain hle | hlt := Nat.le_total b.length k
      · rw [List.take_of_length_le hle, padTo, List.append_assoc, List.take_left]
      · have hfirst : (b.take k).length = k := List.length_take_of_le hlt
        rw [padTo_of_length hfirst, List.take_append, hfirst, List.take_of_length_le (hfirst.trans_le hlt), ← List.length_drop,
          ih (by rw [List.length_drop]; omega), List.take_append_drop]

section
variable {reply : Bytes}

theorem length_of_mem_replyPieces {c : Bytes} (hc : c ∈ replyPieces reply) : c.length ≤ 48 := by
  unfold replyPieces at hc
  split at hc
  case isTrue hle => rwa [List.mem_singleton.mp hc]
  case isFalse => exact (length_of_mem_chunksOf hc).le

theorem length_replyPieces (hr : reply.length ≤ 720) : (replyPieces reply).length = max 1 ((reply.length + 47) / 48) := by
  unfold replyPieces
  split
  case isTrue => rw [List.length_singleton]; omega
  case isFalse => rw [length_chunksOf (by decide) 15 hr]; omega

/-- The padded pieces laid end to end begin with the reply. -/
theorem take_flatten_replyPieces (hr : reply.length ≤ 720) :
    (((replyPieces reply).map (padTo 48)).flatten).take reply.length = reply := by
  unfold replyPieces
  split
  case isTrue => simp [padTo]
  case isFalse =>
    rw [List.map_congr_left fun c hc => padTo_of_length (length_of_mem_chunksOf hc), List.map_id']
    exact take_flatten_chunksOf hr

end

/-- The flags of an entry: bit 6 CONT, bit 7 MORE. -/
theorem bit_replyFlags : ∀ cont more : Bool, bit ((64 * b2n cont + 128 * b2n more) % 256) 6 = cont ∧
    bit ((64 * b2n cont + 128 * b2n more) % 256) 7 = more := by decide

section
variable {op : Nat} {target : Byte} {seq : W32} {st : Nat} {order : W32} {i n total : Nat} {piece : Bytes}

/-- An entry's header as numbers one after the other, and its body. -/
theorem replyEntry_fields :
    replyEntry op target seq st order i n total piece =
      leBytes 2 op ++ (leBytes 1 (64 * b2n (i != 0) + 128 * b2n (i + 1 < n)) ++ (leBytes 1 target.toNat ++ (leBytes 4 seq.toNat ++
        (leBytes 2 (if i = 0 then total else min 48 (total - 48 * i)) ++ (leBytes 2 st ++ (leBytes 4 order.toNat ++ padTo 48 piece)))))) := by
  simp [replyEntry, leBytes]

/-- A header's field is read back from its own bytes: what stands before it is `pre`, what follows it `post`. -/
theorem leAt_of_fields {e pre post : Bytes} {off k v : Nat} (he : e = pre ++ (leBytes k v ++ post)) (hoff : pre.length = off) :
    leAt e off k = v % 256 ^ k := by
  rw [he, ← hoff, leAt_leBytes]

theorem leAt_replyEntry_op : leAt (replyEntry op target seq st order i n total piece) 0 2 = op % 65536 :=
  leAt_of_fields (pre := []) replyEntry_fields rfl

theorem leAt_replyEntry_flags :
    leAt (replyEntry op target seq st order i n total piece) 2 1 = (64 * b2n (i != 0) + 128 * b2n (i + 1 < n)) % 256 :=
  leAt_of_fields (pre := leBytes 2 op) replyEntry_fields rfl

theorem leAt_replyEntry_target : leAt (replyEntry op target seq st order i n total piece) 3 1 = target.toNat :=
  (leAt_of_fields (pre := leBytes 2 op ++ leBytes 1 _) replyEntry_fields rfl).trans (Nat.mod_eq_of_lt target.isLt)

theorem leAt_replyEntry_seq : leAt (replyEntry op target seq st order i n total piece) 4 4 = seq.toNat :=
  (leAt_of_fields (pre := leBytes 2 op ++ leBytes 1 _ ++ leBytes 1 _) replyEntry_fields rfl).trans (Nat.mod_eq_of_lt seq.isLt)

theorem leAt_replyEntry_plen :
    leAt (replyEntry op target seq st order i n total piece) 8 2 = (if i = 0 then total else min 48 (total - 48 * i)) % 65536 :=
  leAt_of_fields (pre := leBytes 2 op ++ leBytes 1 _ ++ leBytes 1 _ ++ leBytes 4 _) replyEntry_fields rfl

theorem leAt_replyEntry_status : leAt (replyEntry op target seq st order i n total piece) 10 2 = st % 65536 :=
  leAt_of_fields (pre := leBytes 2 op ++ leBytes 1 _ ++ leBytes 1 _ ++ leBytes 4 _ ++ leBytes 2 _) replyEntry_fields rfl

theorem leAt_replyEntry_order : leAt (replyEntry op target seq st order i n total piece) 12 4 = order.toNat :=
  (leAt_of_fields (pre := leBytes 2 op ++ leBytes 1 _ ++ leBytes 1 _ ++ leBytes 4 _ ++ leBytes 2 _ ++ leBytes 2 _) replyEntry_fields
    rfl).trans (Nat.mod_eq_of_lt order.isLt)

theorem length_replyEntry (hp : piece.length ≤ 48) : (replyEntry op target seq st order i n total piece).length = 64 := by
  simp [replyEntry_fields, length_padTo hp]

theorem drop_replyEntry : (replyEntry op target seq st order i n total piece).drop 16 = padTo 48 piece := by
  simp [replyEntry_fields, leBytes]

end

/-- The entry at an index is that of the piece at the index. -/
theorem getElem?_replyEntries {op : Nat} {target : Byte} {seq : W32} {st : Nat} {order : W32} {reply e : Bytes} {i : Nat}
    (he : (replyEntries op target seq st order reply)[i]? = some e) :
    ∃ piece, piece.length ≤ 48 ∧
      e = replyEntry op target seq st order i (replyPieces reply).length reply.length piece := by
  have hmap : (replyEntries op target seq st order reply)[i]? = (replyPieces reply)[i]?.map fun piece =>
      replyEntry op target seq st order i (replyPieces reply).length reply.length piece := by
    simp [replyEntries, replyPieces, List.getElem?_zipIdx, Function.comp_def]
  obtain ⟨piece, hpiece, rfl⟩ := Option.map_eq_some_iff.mp (hmap.symm.trans he)
  exact ⟨piece, length_of_mem_replyPieces (List.mem_of_getElem? hpiece), rfl⟩

theorem length_replyEntries (op : Nat) (target : Byte) (seq : W32) (st : Nat) (order : W32) (reply : Bytes) :
    (replyEntries op target seq st order reply).length = (replyPieces reply).length := by
  simp [replyEntries, replyPieces]

/-- The bodies of the entries are the padded pieces. -/
theorem bodies_replyEntries (op : Nat) (target : Byte) (seq : W32) (st : Nat) (order : W32) (reply : Bytes) :
    ((replyEntries op target seq st order reply).map fun e => e.drop 16) = (replyPieces reply).map (padTo 48) := by
  have hsplit : (replyPieces reply).map (padTo 48) = ((replyPieces reply).zipIdx.map Prod.fst).map (padTo 48) := by simp
  rw [hsplit, List.map_map]
  simp [replyEntries, replyPieces, Function.comp_def, drop_replyEntry]

/-- Settles O59: the entries are the pieces behind their headers, each header's fields are read back from their own bytes, and the pieces are cut
where they were joined. -/
theorem repliesContinueInEntries : Obligations.RepliesContinueInEntries := by
  unfold Obligations.RepliesContinueInEntries
  intro op target seq st order reply hop hst hr
  dsimp only
  rw [length_replyEntries, bodies_replyEntries, length_replyPieces hr]
  refine ⟨rfl, by omega, fun i e he => ?_, take_flatten_replyPieces hr⟩
  obtain ⟨piece, hpiece, rfl⟩ := getElem?_replyEntries he
  rw [length_replyPieces hr]
  obtain ⟨hcont, hmore⟩ := bit_replyFlags (i != 0) (i + 1 < max 1 ((reply.length + 47) / 48))
  refine ⟨length_replyEntry hpiece, ?_, ?_, ?_, ?_, ?_, ?_, ?_, fun hi => ?_⟩
  · rw [leAt_replyEntry_op, Nat.mod_eq_of_lt hop]
  · rw [leAt_replyEntry_target]
  · rw [leAt_replyEntry_seq]
  · rw [leAt_replyEntry_status, Nat.mod_eq_of_lt hst]
  · rw [leAt_replyEntry_order]
  · rw [leAt_replyEntry_flags, hcont]
    cases i <;> rfl
  · rw [leAt_replyEntry_flags, hmore]
  · rw [leAt_replyEntry_plen, if_neg hi, Nat.mod_eq_of_lt (by omega)]

end Sys2Proof.Proofs.Commands
end

section
/-!
Proofs of the statements of chapter 17: the power-cycle count (R464) and the layout of an event-log record (R463, Table 17-1).
-/
namespace Sys2Proof.Proofs.EventLog

open Sys2Proof Sys2Proof.Machine Sys2Proof.Safety Sys2Proof.Laws Sys2Proof.Proofs.ChannelDirectory Sys2Proof.Proofs.KeysAndTamper

/-! ### Posting a record for the host leaves the log alone (R217, R223, R228) -/

section
variable (d : Dev)

@[simp] theorem tally_log (kind inst n arg : Nat) : (tally kind inst n arg d).log = d.log := by
  unfold tally
  dsimp only
  split
  · split <;> rfl
  · rfl

@[simp] theorem setFlag_pub_log (i : Nat) : (setFlag 0x0A i d).log = d.log := rfl

@[simp] theorem ringDrop_log (r type : Nat) : (ringDrop r type d).log = d.log := by simp [ringDrop]

@[simp] theorem capFree_log (n : Nat) : (capFree n d).log = d.log := by
  unfold capFree
  dsimp only
  split <;> rfl

@[simp] theorem capLost_log (head : Bytes) : (capLost head d).log = d.log := by
  unfold capLost
  dsimp only
  split
  · split <;> simp
  · rfl

@[simp] theorem capDone_log (head : Bytes) : (capDone head d).log = d.log := by
  unfold capDone
  dsimp only
  split
  · split <;> simp
  · rfl

@[simp] theorem recDropped_log (x : HostRec) : (recDropped x d).log = d.log := by
  unfold recDropped
  split <;> simp

@[simp] theorem queueGrew_log (q depth : Nat) : (queueGrew q depth d).log = d.log := by
  unfold queueGrew
  dsimp only
  split <;> split <;> rfl

@[simp] theorem feed_log (r : Nat) (x : HostRec) : (feed r x d).log = d.log := by
  unfold feed
  dsimp only
  split
  · split
    · simp
    · rw [recDropped_log, ringDrop_log]
      split <;> rfl
  · split <;> simp

@[simp] theorem postRecord_log (type : Nat) (head : Bytes) (more : List Bytes) : (postRecord type head more d).log = d.log :=
  feed_log d _ _

end

/-! ### Creating a record (R463, R465, R467) -/

/-- The record that a source block creates. -/
def recOf (src code : Nat) (sev : Sev) (p1 p2 p3 : Nat) (summary : Bool) (d : Dev) : LogRec :=
  { code := BitVec.ofNat 16 code, sev := sev, timeValid := !unsetTime d, pfw := d.pwr.pfw, summary := summary,
    source := BitVec.ofNat 8 src, pcc := aonPcc d, opt := aonOpt d, seq := d.log.seq,
    p1 := BitVec.ofNat 32 p1, p2 := BitVec.ofNat 32 p2, p3 := BitVec.ofNat 32 p3, crcOk := true }

/-- With room in the buffer a record goes to its end, and SEQ stays. -/
theorem bufferRec_room {r : LogRec} {d : Dev} (hroom : d.log.buffer.length < 4096) :
    (bufferRec r d).log.buffer = d.log.buffer ++ [r] ∧ (bufferRec r d).log.seq = d.log.seq := by
  unfold bufferRec
  dsimp only
  rw [if_pos hroom]
  exact ⟨rfl, rfl⟩

/-- The power-cycle count is none of what a record entering the buffer writes. -/
theorem bufferRec_pcc (r : LogRec) (d : Dev) : (bufferRec r d).log.pcc = d.log.pcc := by
  unfold bufferRec
  dsimp only
  split
  · rfl
  · split <;> rfl

/-- A device with SEQ advanced and the record counted, and the record sent to the host where it is severe enough. -/
def hostCopied (r : LogRec) (d : Dev) : Dev :=
  let e := bump { d with log := { d.log with seq := d.log.seq + 1 } } 0x13 0
  if sevNum r.sev ≥ e.log.hostMin then postRecord 6 r.bytes [] (bump e 0x13 9) else bump e 0x13 10

/-- The host's copy changes nothing of the log, in which SEQ has advanced. -/
theorem hostCopied_log (r : LogRec) (d : Dev) : (hostCopied r d).log = { d.log with seq := d.log.seq + 1 } := by
  unfold hostCopied
  dsimp only
  split
  · rw [postRecord_log]
    rfl
  · rfl

section
variable (src code : Nat) (sev : Sev) (p1 p2 p3 : Nat) (summary : Bool) (d : Dev)

/-- A record created goes to the host and, where it is severe enough, to the buffer. -/
theorem logFull_eq :
    let r := recOf src code sev p1 p2 p3 summary d
    logFull src code sev p1 p2 p3 summary d =
      if sevNum sev ≥ (hostCopied r d).log.mramMin then bufferRec r (hostCopied r d) else hostCopied r d := rfl

/-- Where every severity is stored and the buffer has room, the record goes to the buffer's end. -/
theorem logFull_stored {d : Dev} (hmin : d.log.mramMin = 0) (hroom : d.log.buffer.length < 4096) :
    (logFull src code sev p1 p2 p3 summary d).log.buffer = d.log.buffer ++ [recOf src code sev p1 p2 p3 summary d] ∧
    (logFull src code sev p1 p2 p3 summary d).log.seq = d.log.seq + 1 := by
  have hlog := hostCopied_log (recOf src code sev p1 p2 p3 summary d) d
  have hstored : sevNum sev ≥ (hostCopied (recOf src code sev p1 p2 p3 summary d) d).log.mramMin := by simp [hlog, hmin]
  obtain ⟨hbuf, hseq⟩ := bufferRec_room (r := recOf src code sev p1 p2 p3 summary d)
    (d := hostCopied (recOf src code sev p1 p2 p3 summary d) d) (by rwa [hlog])
  rw [logFull_eq, if_pos hstored, hbuf, hseq, hlog]
  exact ⟨rfl, rfl⟩

/-- The power-cycle count is none of what creating a record writes. -/
theorem logFull_pcc : (logFull src code sev p1 p2 p3 summary d).log.pcc = d.log.pcc := by
  have hpcc : (hostCopied (recOf src code sev p1 p2 p3 summary d) d).log.pcc = d.log.pcc := by rw [hostCopied_log]
  rw [logFull_eq]
  split
  · rw [bufferRec_pcc, hpcc]
  · exact hpcc

end

/-! ### Numbers laid out one after the other -/

/-- Numbers, each with its width in bytes, laid out little-endian one after the other. -/
def layout (l : List (Nat × Nat)) : Bytes := l.flatMap fun e => leBytes e.1 e.2

theorem length_layout (l : List (Nat × Nat)) : (layout l).length = (l.map Prod.fst).sum := by
  simp [layout, List.length_flatMap]

/-- The number at an index is read back, up to its width, from behind the widths of those before it. -/
theorem leAt_layout {l : List (Nat × Nat)} (i : Nat) {off k v : Nat} (hi : l[i]? = some (k, v))
    (hoff : ((l.take i).map Prod.fst).sum = off) : leAt (layout l) off k = v % 256 ^ k := by
  obtain ⟨hlt, hget⟩ := List.getElem?_eq_some_iff.mp hi
  have hsplit : layout l = layout (l.take i) ++ (leBytes k v ++ layout (l.drop (i + 1))) := by
    conv_lhs => rw [← List.take_append_drop i l, List.drop_eq_getElem_cons hlt, hget]
    simp [layout]
  rw [hsplit, ← hoff, ← length_layout, leAt_leBytes]

/-! ### The layout of a record (Table 17-1) -/

/-- The byte of severity and flags. -/
def flagsByte (r : LogRec) : Nat := sevNum r.sev + 8 * b2n r.timeValid + 16 * b2n r.pfw + 32 * b2n r.summary

/-- The rows of Table 17-1: the width and the value of each field. -/
def tableRows (r : LogRec) : List (Nat × Nat) :=
  [(2, r.code.toNat), (1, flagsByte r), (1, r.source.toNat), (3, r.pcc.toNat), (1, 0), (5, r.opt.toNat), (3, r.seq.toNat), (4, r.p1.toNat),
    (4, r.p2.toNat), (4, r.p3.toNat), (4, crc32 r.head)]

theorem bytes_eq_layout (r : LogRec) : r.bytes = layout (tableRows r) := by
  simp [LogRec.bytes, LogRec.head, layout, tableRows, flagsByte, leBytes]

theorem length_head (r : LogRec) : r.head.length = 28 := by simp [LogRec.head]

theorem take_bytes (r : LogRec) : r.bytes.take 28 = r.head := List.take_left' (length_head r)

/-- A row's field holds its value where the value fits its width. -/
theorem leAt_bytes {r : LogRec} (i : Nat) {off k v : Nat} (hi : (tableRows r)[i]? = some (k, v))
    (hoff : (((tableRows r).take i).map Prod.fst).sum = off) (hv : v < 256 ^ k) : leAt r.bytes off k = v := by
  rw [bytes_eq_layout, leAt_layout i hi hoff, Nat.mod_eq_of_lt hv]

/-- The fields of the byte of severity and flags. -/
theorem flagsByte_fields (r : LogRec) :
    flagsByte r < 256 ^ 1 ∧ flagsByte r % 8 = sevNum r.sev ∧ bit (flagsByte r) 3 = r.timeValid ∧ bit (flagsByte r) 4 = r.pfw ∧
      bit (flagsByte r) 5 = r.summary ∧ flagsByte r / 64 = 0 := by
  unfold flagsByte
  generalize r.timeValid = t
  generalize r.pfw = p
  generalize r.summary = s
  cases r.sev <;> revert t p s <;> decide

/-! ### A CRC-32 has 32 bits -/

theorem crc32Bit_lt {c : Nat} (hc : c < 2 ^ 32) : crc32Bit c < 2 ^ 32 := by
  unfold crc32Bit
  split
  · exact Nat.xor_lt_two_pow (by omega) (by decide)
  · omega

theorem crc32Byte_lt {c : Nat} (hc : c < 2 ^ 32) (b : Byte) : crc32Byte c b < 2 ^ 32 := by
  have hb : b.toNat < 2 ^ 32 := b.isLt.trans (by decide)
  have hx : c ^^^ b.toNat < 2 ^ 32 := Nat.xor_lt_two_pow hc hb
  unfold crc32Byte
  iterate 8 apply crc32Bit_lt
  exact hx

theorem crc32_lt (b : Bytes) : crc32 b < 2 ^ 32 :=
  Nat.xor_lt_two_pow (List.foldlRecOn b crc32Byte (motive := (· < 2 ^ 32)) (by decide) fun _ hc e _ => crc32Byte_lt hc e) (by decide)

/-- Every field of Table 17-1 is read back from its own bytes. -/
theorem leAt_bytes_rows (r : LogRec) :
    leAt r.bytes 0 2 = r.code.toNat ∧ leAt r.bytes 2 1 = flagsByte r ∧ leAt r.bytes 3 1 = r.source.toNat ∧ leAt r.bytes 4 3 = r.pcc.toNat ∧
    leAt r.bytes 7 1 = 0 ∧ leAt r.bytes 8 5 = r.opt.toNat ∧ leAt r.bytes 13 3 = r.seq.toNat ∧ leAt r.bytes 16 4 = r.p1.toNat ∧
    leAt r.bytes 20 4 = r.p2.toNat ∧ leAt r.bytes 24 4 = r.p3.toNat ∧ leAt r.bytes 28 4 = crc32 (r.bytes.take 28) :=
  ⟨leAt_bytes 0 rfl rfl r.code.isLt, leAt_bytes 1 rfl rfl (flagsByte_fields r).1, leAt_bytes 2 rfl rfl r.source.isLt,
    leAt_bytes 3 rfl rfl r.pcc.isLt, leAt_bytes 4 rfl rfl (by decide), leAt_bytes 5 rfl rfl r.opt.isLt, leAt_bytes 6 rfl rfl r.seq.isLt,
    leAt_bytes 7 rfl rfl r.p1.isLt, leAt_bytes 8 rfl rfl r.p2.isLt, leAt_bytes 9 rfl rfl r.p3.isLt,
    leAt_bytes 10 (by rw [take_bytes]; rfl) rfl (crc32_lt _)⟩

theorem length_bytes (r : LogRec) : r.bytes.length = 32 := by
  rw [bytes_eq_layout, length_layout]
  rfl

/-- Settles O58: a record's bytes are the rows of Table 17-1 laid out, and a record created is `recOf` of its event. -/
theorem logRecordLayout : Obligations.LogRecordLayout := by
  unfold Obligations.LogRecordLayout
  refine ⟨fun r => ?layout, rfl, fun code p1 p2 p3 d hmin hroom => ?event, fun code sev p1 p2 p3 d hmin hroom => ?summary⟩
  case layout =>
    obtain ⟨hcode, hflags, hsource, hpcc, hzero, hopt, hseq, hp1, hp2, hp3, hcrc⟩ := leAt_bytes_rows r
    obtain ⟨-, hsev, htime, hpfw, hsum, htop⟩ := flagsByte_fields r
    dsimp only
    rw [hflags]
    exact ⟨length_bytes r, hcode, hsev, htime, hpfw, hsum, htop, hsource, hpcc, hzero, hopt, hseq, hp1, hp2, hp3, hcrc⟩
  case event =>
    obtain ⟨hbuf, hseq⟩ := logFull_stored (code / 256) code (codeSev code) p1 p2 p3 false hmin hroom
    exact ⟨_, hbuf, rfl, rfl, rfl, rfl, rfl, rfl, rfl, rfl, hseq, rfl, rfl, rfl⟩
  case summary =>
    obtain ⟨hsum, -⟩ := logFull_stored (code / 256) code (codeSev code) p1 p2 p3 true hmin hroom
    obtain ⟨hwritten, -⟩ := logFull_stored 0xFF code sev p1 p2 p3 false hmin hroom
    exact ⟨_, hsum, rfl, _, hwritten, rfl, rfl⟩

/-! ### Reset and the power-cycle count: who else writes them (R464, R519) -/

/-- Whether the device is held in reset, and its power-cycle count. -/
def heldAndPcc (d : Dev) : Bool × BitVec 24 := (d.pwr.held, d.log.pcc)

section
variable (d : Dev)

@[simp] theorem heldAndPcc_logFull (src code : Nat) (sev : Sev) (p1 p2 p3 : Nat) (summary : Bool) :
    heldAndPcc (logFull src code sev p1 p2 p3 summary d) = heldAndPcc d :=
  Prod.ext (congrArg (fun x => x.2.2.held) (secured_of_dataBlocks (dataBlocks_logFull d ..))) (logFull_pcc ..)

@[simp] theorem heldAndPcc_logEv (code p1 p2 p3 : Nat) : heldAndPcc (logEv code p1 p2 p3 d) = heldAndPcc d := heldAndPcc_logFull d ..

@[simp] theorem heldAndPcc_setFlag (block i : Nat) : heldAndPcc (setFlag block i d) = heldAndPcc d := by
  unfold setFlag
  split <;> rfl

@[simp] theorem heldAndPcc_bump (b i : Nat) : heldAndPcc (bump d b i) = heldAndPcc d := rfl
@[simp] theorem heldAndPcc_bumpN (b i n : Nat) : heldAndPcc (bumpN d b i n) = heldAndPcc d := rfl
@[simp] theorem heldAndPcc_emit (o : Output) : heldAndPcc (emit o d) = heldAndPcc d := rfl
@[simp] theorem heldAndPcc_setPort (p : Nat) (x : Port) : heldAndPcc (setPort d p x) = heldAndPcc d := rfl
@[simp] theorem heldAndPcc_setStream (k : Nat) (x : StreamRun) : heldAndPcc (setStream k x d) = heldAndPcc d := rfl
@[simp] theorem heldAndPcc_setTpl (k : Nat) (x : TplRun) : heldAndPcc (setTpl k x d) = heldAndPcc d := rfl
@[simp] theorem heldAndPcc_setGoose (k : Nat) (x : Goose) : heldAndPcc (setGoose k x d) = heldAndPcc d := rfl
@[simp] theorem heldAndPcc_log {x : Log} (h : x.pcc = d.log.pcc) : heldAndPcc { d with log := x } = heldAndPcc d := congrArg (d.pwr.held, ·) h
@[simp] theorem heldAndPcc_cmd (x : Cmd) : heldAndPcc { d with cmd := x } = heldAndPcc d := rfl
@[simp] theorem heldAndPcc_hrd (x : Hrd) : heldAndPcc { d with hrd := x } = heldAndPcc d := rfl
@[simp] theorem heldAndPcc_key (x : Key) : heldAndPcc { d with key := x } = heldAndPcc d := rfl
@[simp] theorem heldAndPcc_tmp (x : Tmp) : heldAndPcc { d with tmp := x } = heldAndPcc d := rfl
@[simp] theorem heldAndPcc_tod (x : Tod) : heldAndPcc { d with tod := x } = heldAndPcc d := rfl
@[simp] theorem heldAndPcc_run (r : Run) (c : Cmd) : heldAndPcc { d with pwr := { d.pwr with run := r }, cmd := c } = heldAndPcc d := rfl
@[simp] theorem heldAndPcc_mtr (x : Mtr) : heldAndPcc { d with mtr := x } = heldAndPcc d := rfl

@[simp] theorem heldAndPcc_tally (kind inst n arg : Nat) : heldAndPcc (tally kind inst n arg d) = heldAndPcc d :=
  Prod.ext (congrArg (fun x => x.2.2.held) (secured_tally d ..)) (congrArg Log.pcc (tally_log d ..))

/-! ### What a lost key, a halt and a change of role do -/

@[simp] theorem heldAndPcc_portCnt (p i : Nat) : heldAndPcc (portCnt p i d) = heldAndPcc d := rfl
@[simp] theorem heldAndPcc_portFlag (p i : Nat) : heldAndPcc (portFlag p i d) = heldAndPcc d := rfl
@[simp] theorem heldAndPcc_portLog (p low a b : Nat) : heldAndPcc (portLog p low a b d) = heldAndPcc d := heldAndPcc_logEv d ..

@[simp] theorem heldAndPcc_saUnusable (p dir sc an cause : Nat) : heldAndPcc (saUnusable p dir sc an cause d) = heldAndPcc d := by
  simp [saUnusable]

@[simp] theorem heldAndPcc_portSasLost (slot cause p : Nat) : heldAndPcc (portSasLost slot cause p d) = heldAndPcc d := by
  refine (foldl_keeps heldAndPcc (fun d _ => ?rx) _ _).trans ?tx
  case rx => exact foldl_keeps heldAndPcc (fun d _ => heldAndPcc_saUnusable d ..) _ d
  case tx => exact foldl_keeps heldAndPcc (fun d _ => heldAndPcc_saUnusable d ..) _ _

@[simp] theorem heldAndPcc_quarStreams (slot cause : Nat) : heldAndPcc (quarStreams slot cause d) = heldAndPcc d :=
  foldl_keeps heldAndPcc (fun d _ => by simp) _ d

@[simp] theorem heldAndPcc_quarTemplates (slot cause : Nat) : heldAndPcc (quarTemplates slot cause d) = heldAndPcc d :=
  foldl_keeps heldAndPcc (fun d _ => by simp [quarTemplate]) _ d

@[simp] theorem heldAndPcc_quarGoose (slot cause : Nat) : heldAndPcc (quarGoose slot cause d) = heldAndPcc d :=
  foldl_keeps heldAndPcc (fun d _ => by simp [quarGooseOne]) _ d

@[simp] theorem heldAndPcc_keyLost (slot cause : Nat) : heldAndPcc (keyLost slot cause d) = heldAndPcc d := by
  simp [keyLost, foldl_keeps heldAndPcc fun d p => heldAndPcc_portSasLost d slot cause p]

@[simp] theorem heldAndPcc_zeroizeLine : heldAndPcc (zeroizeLine d) = heldAndPcc d := by
  simp [zeroizeLine, keyCnt, zeroizeVault, foldl_keeps heldAndPcc fun d n => heldAndPcc_keyLost d n 0]

@[simp] theorem heldAndPcc_depart (cause : Nat) : heldAndPcc (depart cause d) = heldAndPcc d := by
  unfold depart
  split
  · rw [goingDown, heldAndPcc_emit, heldAndPcc_hrd, heldAndPcc_hrd]
  · rfl

@[simp] theorem heldAndPcc_tplCount (f : TxFrame) (sent : Bool) : heldAndPcc (tplCount f sent d) = heldAndPcc d := by
  unfold tplCount
  split <;> rfl

@[simp] theorem heldAndPcc_linkFall (p : Nat) (entered : Link) (c : LinkCut) : heldAndPcc (linkFall p entered c d) = heldAndPcc d := by
  have hleft (d : Dev) (f : TxFrame) :
      heldAndPcc (if f.kind = 3 then d else tplCount f false (egressDrop p 9 d)) = heldAndPcc d := by
    split <;> simp [egressDrop]
  unfold linkFall
  dsimp only
  simp only [heldAndPcc_portLog, heldAndPcc_portFlag, heldAndPcc_portCnt, foldl_keeps heldAndPcc hleft]
  split <;> split <;> simp

@[simp] theorem heldAndPcc_lanesIdle : heldAndPcc (lanesIdle d) = heldAndPcc d := by
  refine foldl_keeps heldAndPcc (fun d p => ?_) _ d
  dsimp only
  split <;> simp

@[simp] theorem heldAndPcc_outputsOff : heldAndPcc (outputsOff d) = heldAndPcc d := by
  rw [outputsOff, heldAndPcc_emit, heldAndPcc_lanesIdle, heldAndPcc_tod]

@[simp] theorem heldAndPcc_enterTampered : heldAndPcc (enterTampered d) = heldAndPcc d := by
  rw [enterTampered, heldAndPcc_run, heldAndPcc_outputsOff, heldAndPcc_depart]

@[simp] theorem heldAndPcc_settlePtp : heldAndPcc (settlePtp d) = heldAndPcc d := rfl
@[simp] theorem heldAndPcc_setFrozen (lv : Option Levels) : heldAndPcc (setFrozen lv d) = heldAndPcc d := rfl

@[simp] theorem heldAndPcc_setRole (r : Role) (cause : Nat) : heldAndPcc (setRole r cause d) = heldAndPcc d := by
  unfold setRole
  dsimp only
  split
  · rfl
  · rw [heldAndPcc_settlePtp]
    split <;> simp

/-! ### The steps of start-up (R521 to R524) -/

/-- Of the log block it writes the records, the END mark, SEQ and the flags. -/
@[simp] theorem heldAndPcc_readLog : heldAndPcc (readLog d) = heldAndPcc d := by
  simp [readLog, apply_ite heldAndPcc]

@[simp] theorem heldAndPcc_loadPairing : heldAndPcc (loadPairing d) = heldAndPcc d := by
  unfold loadPairing
  split <;> rfl

/-- Of the power block loader mode writes the run state. -/
theorem heldAndPcc_enterLoader (cause : Nat) : heldAndPcc (enterLoader cause d) = heldAndPcc d := by
  rw [enterLoader, heldAndPcc_outputsOff, heldAndPcc_depart, heldAndPcc_logEv, heldAndPcc_run]

@[simp] theorem heldAndPcc_startImage : heldAndPcc (startImage d) = heldAndPcc d := heldAndPcc_logEv _ ..

@[simp] theorem heldAndPcc_resumeChange (n : LifeCycle) : heldAndPcc (resumeChange n d) = heldAndPcc d := by
  simp [resumeChange]

@[simp] theorem heldAndPcc_logTamper (s context at_ : Nat) : heldAndPcc (logTamper s context at_ d) = heldAndPcc d := heldAndPcc_logEv d ..

@[simp] theorem heldAndPcc_latchTamper (s context : Nat) : heldAndPcc (latchTamper s context d) = heldAndPcc d := rfl

@[simp] theorem heldAndPcc_tamperAtStart (lost : Bool) : heldAndPcc (tamperAtStart lost d) = heldAndPcc d := by
  unfold tamperAtStart
  split <;> simp [apply_ite heldAndPcc]

@[simp] theorem heldAndPcc_fitSchema : heldAndPcc (fitSchema d) = heldAndPcc d := by
  unfold fitSchema
  dsimp only
  split
  · simp
  · split <;> simp

@[simp] theorem heldAndPcc_keyRestore : heldAndPcc (keyRestore d) = heldAndPcc d := by
  unfold keyRestore
  dsimp only
  split
  · simp
  · split
    · simp
    · split <;> simp

/-- A circuit as a save holds it. -/
def circuitOfSave (r : MtrSave) (d : Dev) (c : Nat) : Dev :=
  setCirc c { circOf d c with regs := mget [] r.regs c, open_ := mfind r.opens c, gapDue := (mfind r.opens c).isSome } d

@[simp] theorem heldAndPcc_circuitOfSave (r : MtrSave) (c : Nat) : heldAndPcc (circuitOfSave r d c) = heldAndPcc d := rfl

/-- A pulse output as a save holds it. -/
def pulseOfSave (d : Dev) (e : Nat × Nat × Nat) : Dev := setPulse e.1 { pulseOf d e.1 with residue := e.2.1, owed := e.2.2 } d

@[simp] theorem heldAndPcc_pulseOfSave (e : Nat × Nat × Nat) : heldAndPcc (pulseOfSave d e) = heldAndPcc d := rfl

/-- The circuits and the pulse outputs as a save holds them. -/
def metersOfSave (r : MtrSave) (d : Dev) : Dev := r.pulses.foldl pulseOfSave ((List.range 8).foldl (circuitOfSave r) d)

@[simp] theorem heldAndPcc_metersOfSave (r : MtrSave) : heldAndPcc (metersOfSave r d) = heldAndPcc d :=
  (foldl_keeps heldAndPcc heldAndPcc_pulseOfSave _ _).trans (foldl_keeps heldAndPcc (fun d c => heldAndPcc_circuitOfSave d r c) _ _)

/-- Without a save that can be read the restore is logged as failed; else the meters are those of the newest one, and the restore is logged. -/
theorem meterRestore_cases :
    ∃ x, meterRestore d = logEv 0x1003 0 0 0 (setFlag 0x10 1 { d with mtr := x }) ∨
      ∃ (r : MtrSave) (y : Mtr) (bad : Nat),
        let e := bump (logEv 0x1001 r.seq.toNat r.cause (r.opt.toNat / 1000) { metersOfSave r { d with mtr := x } with mtr := y }) 0x10 7
        meterRestore d = e ∨ meterRestore d = logEv 0x1002 r.seq.toNat bad 0 (setFlag 0x10 0 (bump e 0x10 8)) := by
  refine ⟨{ d.mtr with saveOp := opNs d + d.mtr.savePeriod * secNs }, ?_⟩
  unfold meterRestore
  dsimp only
  split
  · exact .inl rfl
  · exact .inr ⟨_, _, _, ite_eq_or_eq _ _ _⟩

@[simp] theorem heldAndPcc_meterRestore : heldAndPcc (meterRestore d) = heldAndPcc d := by
  obtain ⟨x, h | ⟨r, y, bad, h | h⟩⟩ := meterRestore_cases d <;> simp [h]

@[simp] theorem heldAndPcc_serve : heldAndPcc (serve d) = heldAndPcc d := by
  unfold serve
  dsimp only
  split
  · rw [enterPairing, heldAndPcc_setRole, heldAndPcc_hrd, heldAndPcc_cmd]
  · rw [heldAndPcc_cmd]

@[simp] theorem heldAndPcc_startFirmware (lost : Bool) : heldAndPcc (startFirmware lost d) = heldAndPcc d := by
  unfold startFirmware
  split
  · simp
  · dsimp only
    split <;> simp

end

/-! ### The release of reset (R464, R521) -/

/-- The power-cycle count before a release: that of the newest copy in MRAM where the always-on domain has lost its supplies. -/
def restoredPcc (d : Dev) : BitVec 24 :=
  if d.pwr.aonLost then
    (newestCopy ((d.log.pccCopy, d.log.optCopy) :: ((d.mtr.saves.map Prod.snd).filter MtrSave.crcOk).map fun r => (r.pcc, r.opt))).1
  else d.log.pcc

theorem aonRestore_pcc (d : Dev) : (aonRestore d).log.pcc = restoredPcc d := by
  unfold aonRestore restoredPcc
  cases d.pwr.aonLost <;> rfl

theorem heldAndPcc_setLock (n : Nat) (on : Bool) (d : Dev) : heldAndPcc (setLock n on d) = heldAndPcc d := rfl

theorem heldAndPcc_setLocks (l : List Nat) (on : Bool) (d : Dev) : heldAndPcc (setLocks l on d) = heldAndPcc d :=
  foldl_keeps heldAndPcc (fun d n => heldAndPcc_setLock n on d) l d

/-- Reset is released and counted. -/
theorem heldAndPcc_release (x : StrapsIn) (d : Dev) : heldAndPcc (release x d) = (false, restoredPcc d + 1) := by
  rw [release, heldAndPcc_setLocks, ← aonRestore_pcc]
  rfl

/-- The device once reset is released and the log is read, before its image is checked. -/
def releasedDev (x : StrapsIn) (d : Dev) : Dev :=
  let e := readLog (release x d)
  loadPairing (logEv 0x1601 e.pwr.cause.toNat e.log.pcc.toNat (strapBits e) e)

/-- Start-up from the release of reset to where the firmware takes commands. -/
def startUp (x : StrapsIn) (d : Dev) : Dev :=
  match loaderCause (releasedDev x d) with
  | some c => enterLoader c (releasedDev x d)
  | none => startFirmware d.pwr.aonLost (startImage (releasedDev x d))

theorem heldAndPcc_startUp (x : StrapsIn) (d : Dev) : heldAndPcc (startUp x d) = (false, restoredPcc d + 1) := by
  have hreleased : heldAndPcc (releasedDev x d) = (false, restoredPcc d + 1) := by simp [releasedDev, heldAndPcc_release]
  unfold startUp
  split
  · rw [heldAndPcc_enterLoader, hreleased]
  · rw [heldAndPcc_startFirmware, heldAndPcc_startImage, hreleased]

/-- RESET_RELEASE acts on a device that is held and has its supplies. -/
theorem resetRelease_next {x : StrapsIn} {s : State} (hheld : s.dev.pwr.held = true) (hsup : s.dev.pwr.supplies = true) :
    exec (.resetRelease x) s = .next { s with dev := settle (startUp x s.dev) } := by
  change execResetRelease x s = _
  simp only [execResetRelease, run, onDev, hheld, hsup]
  rfl

theorem resetRelease_unpowered {x : StrapsIn} {s : State} (hsup : s.dev.pwr.supplies = false) :
    exec (.resetRelease x) s = .next { s with dev := settle s.dev } := by
  change execResetRelease x s = _
  simp [execResetRelease, run, onDev, hsup]

theorem heldAndPcc_settle (d : Dev) : heldAndPcc (settle d) = heldAndPcc d :=
  Prod.ext (congrArg Pwr.held (settle_lines d).pwr) (congrArg Log.pcc (settle_lines d).log)

/-- Settles O51: only the release writes whether the device is held and the power-cycle count, and no step of start-up after it does. -/
theorem releaseCountsPowerCycles : Obligations.ReleaseCountsPowerCycles := by
  unfold Obligations.ReleaseCountsPowerCycles
  refine ⟨fun x s hheld hsup => ⟨_, resetRelease_next hheld hsup, ?_⟩, fun x s _ hsup => resetRelease_unpowered hsup⟩
  exact Prod.ext_iff.mp ((heldAndPcc_settle _).trans (heldAndPcc_startUp x s.dev))

end Sys2Proof.Proofs.EventLog
end

section
/-!
Proofs of the statements of chapter 19: the interrupt lines follow their sources (R513, R516, R517), and accesses that the map discards (R502).
-/
namespace Sys2Proof.Proofs.HostInterfaces

open Sys2Proof Sys2Proof.Machine Sys2Proof.Safety Sys2Proof.Laws Sys2Proof.Proofs.Scope Sys2Proof.Proofs.TimeReference
  Sys2Proof.Proofs.Commands

/-! ### What the lines follow -/

/-- Two devices agree in everything that the summaries and INT_N are computed from. -/
structure SameSources (d e : Dev) : Prop where
  held : e.pwr.held = d.pwr.held
  role : e.hrd.role = d.hrd.role
  lbRunning : e.gbl.lbRunning = d.gbl.lbRunning
  cond : intCond e = intCond d
  enables : intEn e = intEn d
  mailboxes : e.cmd.mailboxes = d.cmd.mailboxes
  buffers : e.aux.bufs = d.aux.bufs
  lbEn : e.gbl.win.lbEn = d.gbl.win.lbEn
  lbEnS : e.gbl.winS.lbEn = d.gbl.winS.lbEn
  almChg : e.gbl.win.almChg = d.gbl.win.almChg

section
variable {c d e : Dev}

theorem SameSources.refl (d : Dev) : SameSources d d := by constructor <;> rfl

theorem SameSources.trans (h : SameSources c d) (k : SameSources d e) : SameSources c e where
  held := k.held.trans h.held
  role := k.role.trans h.role
  lbRunning := k.lbRunning.trans h.lbRunning
  cond := k.cond.trans h.cond
  enables := k.enables.trans h.enables
  mailboxes := k.mailboxes.trans h.mailboxes
  buffers := k.buffers.trans h.buffers
  lbEn := k.lbEn.trans h.lbEn
  lbEnS := k.lbEnS.trans h.lbEnS
  almChg := k.almChg.trans h.almChg

theorem SameSources.summaryOn_eq (h : SameSources d e) (p : Path) : summaryOn e p = summaryOn d p := by
  simp only [summaryOn, intStat, h.cond, h.enables]

theorem SameSources.lbSrc_eq (h : SameSources d e) (secure : Bool) : lbSrc e secure = lbSrc d secure := by
  simp only [lbSrc, mboxOf, winOf, h.summaryOn_eq, h.mailboxes, h.buffers, h.almChg, Bool.false_eq_true, if_false]

theorem SameSources.lbIrq_eq (h : SameSources d e) : lbIrq e = lbIrq d := by
  simp only [lbIrq, h.lbSrc_eq, h.lbEn, h.lbEnS]

/-- Lines that stand as they stood, over sources that do, still follow them. -/
theorem SameSources.linesFollow (h : SameSources d e) (hg : e.gbl = d.gbl) (hd : LinesFollow d) : LinesFollow e := by
  unfold LinesFollow
  rw [h.summaryOn_eq, h.summaryOn_eq, h.summaryOn_eq, h.summaryOn_eq, h.lbIrq_eq, h.held, h.role, hg]
  exact hd

/-- What writes only lines, and of the windows' registers only the summaries, leaves the sources. -/
theorem sameSources_of_lines (h : OnlyLines d e) (hw : e.gbl.win = { d.gbl.win with summary := e.gbl.win.summary })
    (hwS : e.gbl.winS = { d.gbl.winS with summary := e.gbl.winS.summary }) : SameSources d e where
  held := congrArg Pwr.held h.pwr
  role := congrArg Hrd.role h.hrd
  lbRunning := h.lb
  cond := funext fun p => funext fun b => intCond_lines h p b
  enables := funext fun p => match p with
    | .pf0 => h.en0
    | .pf1 => h.en1
    | .lb => (congrArg LbWin.intEn hw).trans rfl
    | .lbs => (congrArg LbWin.intEn hwS).trans rfl
  mailboxes := congrArg Cmd.mailboxes h.cmd
  buffers := congrArg Aux.bufs h.aux
  lbEn := (congrArg LbWin.lbEn hw).trans rfl
  lbEnS := (congrArg LbWin.lbEn hwS).trans rfl
  almChg := (congrArg LbWin.almChg hw).trans rfl

end

section
variable (d : Dev)

theorem sameSources_setFunc {b : Bool} {f : Func} (h : f.intEn = (funcOf d b).intEn) : SameSources d (setFunc d b f) :=
  sameSources_of_lines (setFunc_lines h) (by cases b <;> rfl) (by cases b <;> rfl)

theorem sameSources_withSummary (b on : Bool) : SameSources d (withSummary b on d) := sameSources_setFunc d rfl

theorem sameSources_sendMsix (b : Bool) (v : Nat) : SameSources d (sendMsix b v d) := by
  obtain ⟨p, h⟩ | h | h := sendMsix_cases b v d <;> rw [h]
  · exact sameSources_setFunc d rfl
  · constructor <;> rfl
  · exact SameSources.refl d

theorem sameSources_settleFunc (b : Bool) : SameSources d (settleFunc b d) := by
  obtain ⟨e, he, h | h⟩ := settleFunc_cases b d <;> rw [h, he]
  · exact sameSources_withSummary d b _
  · exact (sameSources_withSummary d b _).trans (sameSources_sendMsix _ b 0)

theorem sameSources_withWindows (on onS : Bool) : SameSources d (withWindows on onS d) :=
  sameSources_of_lines (withWindows_lines on onS d) rfl rfl

theorem sameSources_withIntN (on : Bool) : SameSources d (withIntN on d) :=
  sameSources_of_lines (withIntN_lines on d) rfl rfl

/-! ### Each function's summary (R516) -/

/-- The access path of a PCIe function. -/
def funcPath (b : Bool) : Path := if b then .pf1 else .pf0

/-- The summary that a function keeps is that of its path. -/
def FuncFollows (b : Bool) : Prop := (funcOf d b).summary = summaryOn d (funcPath b)

theorem summary_withSummary (b on : Bool) : (funcOf (withSummary b on d) b).summary = on := by cases b <;> rfl

theorem summary_withSummary_other (b on : Bool) : (funcOf (withSummary b on d) (!b)).summary = (funcOf d (!b)).summary := by
  cases b <;> rfl

theorem summary_withWindows (b on onS : Bool) : (funcOf (withWindows on onS d) b).summary = (funcOf d b).summary := by cases b <;> rfl

theorem summary_sendMsix (b c : Bool) (v : Nat) : (funcOf (sendMsix b v d) c).summary = (funcOf d c).summary := by
  obtain ⟨p, h⟩ | h | h := sendMsix_cases b v d <;> rw [h]
  · cases b <;> cases c <;> rfl
  · rfl

/-- Following a function's summary keeps that summary, whether or not a vector is sent. -/
theorem summary_settleFunc (b c : Bool) :
    (funcOf (settleFunc b d) c).summary = (funcOf (withSummary b (summaryOn d (funcPath b)) d) c).summary := by
  obtain ⟨e, he, h | h⟩ := settleFunc_cases b d <;> rw [h]
  · rw [he, funcPath]
  · rw [summary_sendMsix, he, funcPath]

theorem funcFollows_settleFunc (b : Bool) : FuncFollows (settleFunc b d) b := by
  rw [FuncFollows, summary_settleFunc, summary_withSummary, (sameSources_settleFunc d b).summaryOn_eq]

/-- Following one function's summary leaves the other's. -/
theorem FuncFollows.settleFunc_other {d : Dev} {b : Bool} (h : FuncFollows d (!b)) : FuncFollows (settleFunc b d) (!b) := by
  rw [FuncFollows, summary_settleFunc, summary_withSummary_other, (sameSources_settleFunc d b).summaryOn_eq, h]

/-- Following the windows' summaries leaves the functions'. -/
theorem FuncFollows.withWindows {d : Dev} {b : Bool} (h : FuncFollows d b) (on onS : Bool) : FuncFollows (withWindows on onS d) b := by
  rw [FuncFollows, summary_withWindows, (sameSources_withWindows d on onS).summaryOn_eq, h]

/-! ### INT_N (R513, R517) -/

/-- Following INT_N drives it, perhaps as it stood. -/
theorem settleIntN_drives : ∃ on, settleIntN d = withIntN on d := by
  unfold settleIntN
  split
  · exact ⟨true, rfl⟩
  · split
    · exact ⟨_, rfl⟩
    · exact ⟨d.gbl.intN, rfl⟩

end

section
variable {d : Dev}

theorem settleIntN_released (h : d.pwr.held = true ∨ d.hrd.role = .fenced) : settleIntN d = withIntN true d :=
  if_pos (by simpa using h)

theorem settleIntN_running (hh : d.pwr.held = false) (hr : d.hrd.role ≠ .fenced) (hl : d.gbl.lbRunning = true) :
    settleIntN d = withIntN (!lbIrq d) d := by
  simp [settleIntN, hh, hr, hl]

/-! ### The interrupt outputs follow -/

/-- Once the summaries follow, following INT_N has every line follow. -/
theorem linesFollow_settleIntN (hlb : d.gbl.win.summary = summaryOn d .lb) (hlbs : d.gbl.winS.summary = summaryOn d .lbs)
    (hf : d.pwr.held = false → FuncFollows d false ∧ FuncFollows d true) : LinesFollow (settleIntN d) := by
  obtain ⟨on, hon⟩ := settleIntN_drives d
  have hs : SameSources d (settleIntN d) := hon ▸ sameSources_withIntN d on
  unfold LinesFollow
  rw [hs.summaryOn_eq, hs.summaryOn_eq, hs.summaryOn_eq, hs.summaryOn_eq, hs.lbIrq_eq, hs.held, hs.role, hs.lbRunning]
  refine ⟨?lb, ?lbs, ?functions, fun h => ?released, fun hh hr hl => ?running⟩
  case lb => rw [hon]; exact hlb
  case lbs => rw [hon]; exact hlbs
  case functions => rw [hon]; exact hf
  case released => rw [settleIntN_released h]; rfl
  case running => rw [settleIntN_running hh hr hl]; rfl

/-- Once the functions' summaries follow, following the rest has every line follow. -/
theorem linesFollow_settleWindows {on onS : Bool} (hlb : on = summaryOn d .lb) (hlbs : onS = summaryOn d .lbs)
    (hf : d.pwr.held = false → FuncFollows d false ∧ FuncFollows d true) : LinesFollow (settleIntN (withWindows on onS d)) := by
  have hs := (sameSources_withWindows d on onS).summaryOn_eq
  exact linesFollow_settleIntN (hlb.trans (hs .lb).symm) (hlbs.trans (hs .lbs).symm)
    fun hh => ⟨(hf hh).1.withWindows on onS, (hf hh).2.withWindows on onS⟩

/-- After the interrupt outputs have followed, each line follows its sources, whatever it did before. -/
theorem linesFollow_settle (d : Dev) : LinesFollow (settle d) := by
  unfold settle
  dsimp only
  refine linesFollow_settleWindows rfl rfl fun hh => ?_
  split at hh
  case isTrue hd => exact absurd (hd.symm.trans hh) (by decide)
  case isFalse hd =>
    rw [if_neg hd]
    exact ⟨FuncFollows.settleFunc_other (b := true) (funcFollows_settleFunc d false), funcFollows_settleFunc _ true⟩

end

/-! ### Every command ends with the interrupt outputs -/

/-- A command is answered by the device once the interrupt outputs have followed, and leaves the queue. -/
theorem exec_settles (c : Instr) (s : State) : ∃ d, exec c s = .next { s with dev := settle d } := by
  cases c <;> exact ⟨_, rfl⟩

/-- Settles O33: a command ends by `settle`. -/
theorem commandsSettleInterruptLines : Obligations.CommandsSettleInterruptLines := by
  unfold Obligations.CommandsSettleInterruptLines
  intro c s t h
  obtain ⟨d, hd⟩ := exec_settles c s
  obtain rfl := Host.Outcome.next.inj (hd.symm.trans h)
  exact linesFollow_settle d

/-! ### A cycle of CLK_TOD -/

theorem countCycles_writes (t : Tod) (k : Nat) :
    ∃ sec ns frac adj, countCycles t k = { t with sec := sec, ns := ns, frac := frac, adj := adj } := by
  unfold countCycles
  split
  · exact ⟨_, _, _, t.adj, rfl⟩
  · exact ⟨_, _, _, _, rfl⟩

/-- A cycle of CLK_TOD writes the counter and its adjustment, the operating time and the always-on time, or nothing. -/
theorem todCycle_cases (d : Dev) :
    todCycle d = d ∨ ∃ opt optSub aonSec aonSub sec ns frac adj, todCycle d = { d with
      log := { d.log with opt := opt, optSub := optSub }
      tmp := { d.tmp with aonSec := aonSec, aonSub := aonSub }
      tod := { d.tod with sec := sec, ns := ns, frac := frac, adj := adj } } := by
  unfold todCycle
  split
  · exact .inl rfl
  · obtain ⟨sec, ns, frac, adj, h⟩ := countCycles_writes d.tod 1
    exact .inr ⟨_, _, _, _, sec, ns, frac, adj, by rw [← h]; rfl⟩

/-- It writes no register of the host interfaces. -/
theorem todCycle_gbl (d : Dev) : (todCycle d).gbl = d.gbl := by
  obtain h | ⟨opt, optSub, aonSec, aonSub, sec, ns, frac, adj, h⟩ := todCycle_cases d <;> rw [h]

/-- It writes no source of a line. -/
theorem sameSources_todCycle (d : Dev) : SameSources d (todCycle d) := by
  obtain h | ⟨opt, optSub, aonSec, aonSub, sec, ns, frac, adj, h⟩ := todCycle_cases d <;> rw [h]
  · exact SameSources.refl d
  · constructor <;> rfl

/-- Settles O32: a command settles the lines; an idle cycle writes neither a line nor a source. -/
theorem stepKeepsInterruptLines : Obligations.StepKeepsInterruptLines := by
  unfold Obligations.StepKeepsInterruptLines
  intro s t hs h
  cases hq : s.pending with
  | nil =>
    obtain rfl := Host.Outcome.next.inj ((step_idle hq).symm.trans h)
    exact (sameSources_todCycle s.dev).linesFollow (todCycle_gbl s.dev) hs
  | cons c rest =>
    rw [stepRunsTheFrontCommand c rest s hq] at h
    exact commandsSettleInterruptLines c _ t h

/-! ### At reset -/

/-- No source that is not enabled shows in a summary. -/
theorem summaryOn_of_disabled {d : Dev} {p : Path} (h : intEn d p = 0) : summaryOn d p = false := by
  simp [summaryOn, h]

/-- Settles O34: no source is enabled, and the device is held. -/
theorem resetInterruptLines : Obligations.ResetInterruptLines := by
  unfold Obligations.ResetInterruptLines
  have hheld : State.reset.dev.pwr.held ≠ false := by decide
  exact ⟨⟨(summaryOn_of_disabled rfl).symm, (summaryOn_of_disabled rfl).symm, fun h => absurd h hheld, fun _ => rfl, fun h => absurd h hheld⟩,
    rfl⟩

/-! ### Accesses that the map discards (R502) -/

theorem bit_setBit_same {w i : Nat} (v : BitVec w) (h : i < w) : bit (setBit v i).toNat i = true := by
  have hbit : bit (setBit v i).toNat i = (setBit v i).toNat.testBit i := (Nat.testBit_eq_decide_div_mod_eq ..).symm
  rw [hbit, setBit, BitVec.toNat_or, Nat.testBit_or, BitVec.toNat_ofNat, Nat.mod_eq_of_lt (Nat.pow_lt_pow_right (by decide) h),
    Nat.testBit_two_pow_self, Bool.or_true]

/-- GBL_ERR, the counters and the data blocks: what a discarded access may write, and what it may not. -/
def errorSide (d : Dev) : BitVec 9 × NMap W48 × Dev := (d.gbl.err, d.cnt, dataBlocks d)

section
variable (p : Path) (d : Dev)

theorem errorSide_settle : errorSide (settle d) = errorSide d := by
  have h := settle_lines d
  unfold errorSide
  rw [h.err, h.cnt, OnlyLines.dataBlocks_eq h]

theorem errorSide_accessOk : errorSide (accessOk p d) = errorSide d := by
  unfold accessOk
  split <;> rfl

theorem errorSide_keepHalf : errorSide (keepHalf p d) = errorSide d := by
  unfold keepHalf
  split <;> rfl

theorem errorSide_readAs (v : Nat) : errorSide (readAs v d) = errorSide d := rfl

/-- An unmapped access sets GBL_ERR.UNMAPPED, counts, and writes no data block. -/
theorem unmapped_recorded {d e : Dev} (h : errorSide e = errorSide (unmapped d)) :
    bit e.gbl.err.toNat 0 = true ∧ mget 0 e.cnt (cntKey 0 0 0) = mget 0 d.cnt (cntKey 0 0 0) + 1 ∧ dataBlocks e = dataBlocks d := by
  obtain ⟨herr, hrest⟩ := Prod.ext_iff.mp h
  obtain ⟨hcnt, hdata⟩ := Prod.ext_iff.mp hrest
  refine ⟨?flag, ?count, hdata⟩
  case flag => exact (congrArg (fun f => bit f.toNat 0) herr).trans (bit_setBit_same _ (by decide))
  case count => exact (congrArg (fun c => mget 0 c (cntKey 0 0 0)) hcnt).trans (mget_bumpAt_same d 0 0 0 1)

variable {p d} {addr v : W32}

theorem readAccess_unmapped (ho : pathOpen d p = true) (hm : isMapped p (addr.toNat / 4 * 4) = false) :
    readAccess p addr d = accessOk p (keepHalf p (readAs 0 (unmapped d))) := by
  simp [readAccess, readWord, ho, hm]

theorem writeAccess_unmapped {en : BitVec 4} (ho : pathOpen d p = true) (hm : isMapped p (addr.toNat / 4 * 4) = false) :
    writeAccess p addr v en d = accessOk p (unmapped d) := by
  simp [writeAccess, writeWord, ho, hm]

/-- A PCIe write without every byte enable sets GBL_ERR.PARTIAL and counts, and is answered by nothing else. -/
theorem writeAccess_partial {en : BitVec 4} (ho : pathOpen d p = true) (hm : isMapped p (addr.toNat / 4 * 4) = true) (hp : isLb p = false)
    (hen : en ≠ 15) : writeAccess p addr v en d = setFlag 0 1 (gblCnt 1 d) := by
  have hpart : (!isLb p && isMapped p (addr.toNat / 4 * 4) && en != 15) = true := by
    rw [hp, hm, bne_iff_ne.mpr hen]
    rfl
  rw [writeAccess, if_neg (by simp [ho]), if_pos hpart]

end

/-- Settles O54: the access is the record of the error, and the end of an access and the interrupt outputs leave `errorSide`. -/
theorem unmappedAndPartialAccesses : Obligations.UnmappedAndPartialAccesses := by
  unfold Obligations.UnmappedAndPartialAccesses
  refine ⟨fun p addr s ho hm => ⟨_, rfl, ?data, unmapped_recorded ?read⟩, fun p addr v en s ho hm => ⟨_, rfl, unmapped_recorded ?write⟩,
    fun p addr v en s ho hm hp hen => ⟨_, rfl, ?partly⟩⟩
  case data =>
    refine congrArg Prod.fst (?_ : readSide (settle (readAccess p addr s.dev)) = readSide (readAs 0 (unmapped s.dev)))
    rw [readSide_settle, readAccess_unmapped ho hm, readSide_accessOk, readSide_keepHalf]
  case read => rw [errorSide_settle, readAccess_unmapped ho hm, errorSide_accessOk, errorSide_keepHalf, errorSide_readAs]
  case write => rw [errorSide_settle, writeAccess_unmapped ho hm, errorSide_accessOk]
  case partly =>
    have h := settle_lines (writeAccess p addr v en s.dev)
    rw [writeAccess_partial ho hm hp hen] at h
    dsimp only
    rw [writeAccess_partial ho hm hp hen]
    exact ⟨h.err ▸ bit_setBit_same _ (by decide), (OnlyLines.dataBlocks_eq h).trans rfl, h.cmd, h.pub, h.cap, h.log, h.hrd⟩

end Sys2Proof.Proofs.HostInterfaces
end

section
/-!
Proofs of the statements of chapter 20: what reaches a device that is held in reset (R519, R522), and what a device reset wipes and keeps
(R522, R523).
-/
namespace Sys2Proof.Proofs.PowerAndReset

open Sys2Proof Sys2Proof.Machine Sys2Proof.Safety Sys2Proof.Proofs.Commands

/-! ### A device reset (R522, R523) -/

/-- SYS_RESET, the watchdog and a change of life cycle leave time for the flush of the event log. -/
theorem flushesFirst_of_cause {cause : Nat} (h : cause = 3 ∨ cause = 4 ∨ cause = 5) (d : Dev) : flushesFirst cause d = true := by
  obtain rfl | rfl | rfl := h
  all_goals rfl

/-- PWR_STAT.CAUSE holds each of the causes. -/
theorem toNat_cause (cause : Fin 8) : (BitVec.ofNat 3 cause.val).toNat = cause.val :=
  (BitVec.toNat_ofNat ..).trans (Nat.mod_eq_of_lt cause.isLt)

/-- Settles O50: `wiped` names what each block keeps, and a block it does not name is that of a new device. -/
theorem resetWipesAndKeeps : Obligations.ResetWipesAndKeeps := by
  unfold Obligations.ResetWipesAndKeeps
  intro cause d
  refine ⟨rfl, rfl, toNat_cause cause, ?_⟩
  simpa only [deviceReset, emit, wiped, keptLog, keptCmd, keptKey, true_and] using fun h => if_pos (flushesFirst_of_cause h d)

/-! ### What has no effect on a device in reset (R519, R522) -/

section
variable {d : Dev} (h : d.pwr.held = true)
include h

theorem isLive_held : isLive d = false := by simp [isLive, h]
theorem coreRuns_held : coreRuns d = false := by simp [coreRuns, corePowered, h]
theorem engRuns_held : engRuns d = false := by simp [engRuns, coreRuns_held h]
theorem pathOpen_held (p : Path) : pathOpen d p = false := by simp [pathOpen, h]

/-- No packet is accepted in reset. -/
theorem canAccept_held (hdr : Hdr) (op : Nat) (params : Bytes) : canAccept d hdr op params = false := by
  simp [canAccept, roomFor, isLive_held h]

theorem readAccess_held (p : Path) (addr : W32) : readAccess p addr d = d := by simp [readAccess, pathOpen_held h]
theorem writeAccess_held (p : Path) (addr v : W32) (en : BitVec 4) : writeAccess p addr v en d = d := by simp [writeAccess, pathOpen_held h]
theorem halfWrite_held (p : Path) (addr : W32) (high : Bool) (half : W16) : halfWrite p addr high half d = d := by
  simp [halfWrite, pathOpen_held h]
theorem mbxAccess_held (p : Path) (m : Nat) (f : Dev → Dev) : mbxAccess p m f d = d := by simp [mbxAccess, pathOpen_held h]

end

section
variable {s : State}

/-- An effect that leaves the device as it is leaves the step to the interrupt outputs. -/
theorem run_unchanged {f : Dev → Dev} (h : f s.dev = s.dev) : run f s = .next { s with dev := settle s.dev } := by
  rw [run, onDev, h]

/-- An effect whose condition does not hold changes nothing. -/
theorem run_whenDo_false {g : Dev → Bool} {f : Dev → Dev} (h : g s.dev = false) :
    run (fun d => whenDo (g d) f d) s = .next { s with dev := settle s.dev } :=
  run_unchanged (by simp [whenDo, h])

/-- SYS_FW_RESTART, whose restart follows its completion, asks for its turn as every packet does. -/
theorem sysFwRestart_held {h : Hdr} (hh : s.dev.pwr.held = true) : execSysFwRestart h s = .next { s with dev := settle s.dev } := by
  unfold execSysFwRestart
  exact run_unchanged (by simp only [canAccept_held hh, Bool.not_false, if_true])

/-- A write of GBL_INT_EOI reaches the device on an open path alone. -/
theorem gblIntEoiWrite_held {p : Path} {v : W32} (hh : s.dev.pwr.held = true) :
    execGblIntEoiWrite p v s = .next { s with dev := settle s.dev } := by
  unfold execGblIntEoiWrite
  exact run_unchanged (by simp only [pathOpen_held hh, Bool.false_eq_true, if_false])

end

/-- Settles O35: a packet is not accepted in reset and no path is open, and every event but those eight waits for a device out of reset. -/
theorem heldDeviceTakesNothingElse : Obligations.HeldDeviceTakesNothingElse := by
  unfold Obligations.HeldDeviceTakesNothingElse
  intro c s hheld hon hbrown hrelease htamper hpres hunpres hlost hsource
  cases hp : packetOf c with
  | some x =>
    obtain ⟨h, op, params, hb⟩ := x
    exact packetsOutOfTurnHaveNoEffect c h op params hb s hp (canAccept_held hheld h op params)
  | none =>
    cases c <;> cases hp
    case powerOn.refl => exact absurd rfl hon
    case brownOut.refl => exact absurd rfl hbrown
    case resetRelease.refl x => exact absurd rfl (hrelease x)
    case tamperDetected.refl x => exact absurd rfl (htamper x)
    case presenceRecognised.refl => exact absurd rfl hpres
    case presenceReleased.refl => exact absurd rfl hunpres
    case aonPowerLost.refl => exact absurd rfl hlost
    case aonSourceChangeover.refl x => exact absurd rfl (hsource x)
    case sysFwRestart.refl => exact sysFwRestart_held hheld
    case registerWrite.refl => exact run_unchanged (writeAccess_held hheld ..)
    case rcRegisterRead.refl => exact run_unchanged (readAccess_held hheld ..)
    case multiwordLowRead.refl => exact run_unchanged (readAccess_held hheld ..)
    case lbHalfWrite.refl => exact run_unchanged (halfWrite_held hheld ..)
    case mbxDataWrite.refl => exact run_unchanged (mbxAccess_held hheld ..)
    case mbxPost.refl => exact run_unchanged (mbxAccess_held hheld ..)
    case mbxTake.refl => exact run_unchanged (mbxAccess_held hheld ..)
    case gblIntEoiWrite.refl => exact gblIntEoiWrite_held hheld
    -- Each event left has one of the three gates that reset closes.
    all_goals exact run_whenDo_false (by simp only [isLive_held hheld, coreRuns_held hheld, engRuns_held hheld])

end Sys2Proof.Proofs.PowerAndReset
end

section
/-!
From an effect to the step's next state: the forms in which the statements of completion are proved.
-/
namespace Sys2Proof.Proofs.Completion

open Sys2Proof Sys2Proof.Machine Sys2Proof.Safety Sys2Proof.Laws Sys2Proof.Proofs.Generations

/-- Settles O31: a command ends by following the interrupt outputs, on the queue that it finds. -/
theorem everyCommandAnswers : Obligations.EveryCommandAnswers := by
  unfold Obligations.EveryCommandAnswers
  intro c s
  obtain ⟨d, hd⟩ := HostInterfaces.exec_settles c s
  exact ⟨settle d, hd⟩

section
variable {i : Instr} {w : Dev → Prop} {f eff : Dev → Dev}

/-- An event without a gate of its own takes the effect that it has where its condition holds. -/
theorem does_of_run (hx : ∀ s, exec i s = run f s) (he : ∀ d, w d → f d = eff d) : does i w eff := by
  intro s hw
  rw [hx, run, onDev, he _ hw]

/-- An event of the data path takes its effect while CLK_CORE and CLK_MEM run. -/
theorem does_of_runCore (hx : ∀ s, exec i s = runCore f s) (hl : ∀ d, w d → coreRuns d = true) (he : ∀ d, w d → f d = eff d) :
    does i w eff := by
  intro s hw
  rw [hx, runCore_next (hl _ hw), he _ hw]

/-- An event of the engines takes its effect while their clock runs. -/
theorem does_of_runEng (hx : ∀ s, exec i s = runEng f s) (hl : ∀ d, w d → engRuns d = true) (he : ∀ d, w d → f d = eff d) :
    does i w eff := by
  intro s hw
  rw [hx, runEng_next (hl _ hw), he _ hw]

end

section
variable {i : Instr} {h : Hdr} {op : Nat} {params : Bytes} {w : Dev → Prop}

/-- A packet with a block completes with the answer that its body gives. -/
theorem ends_of_block {hb : Bool} {st : Status} {reply : Dev → Bytes} {eff : Dev → Dev} {block : Dev → BlockRead} {body : Dev → Answer}
    (hx : ∀ s, exec i s = cmdWith h op params hb block body s) (he : ∀ d, w d → body d = (eff d, some (st, reply d))) :
    ends i h op params hb st w reply eff :=
  fun s hp hw => (hx s).trans (cmdWith_ends hp (he _ hw))

/-- A packet goes on executing with the effect that its body begins. -/
theorem begins_of_body {hb : Bool} {eff : Dev → Dev} {body : Dev → Answer} (hx : ∀ s, exec i s = cmd h op params hb body s)
    (he : ∀ d, w d → body d = (eff d, none)) : begins i h op params hb w eff :=
  fun s hp hw => (hx s).trans (cmd_begins hp (he _ hw))

/-- A staging command whose own condition says that its parameters are good. -/
theorem stages_of_stageWith {bad : Dev → Bool} {ks ls : Dev → List Nat} {f : Gen → Gen}
    (hx : ∀ s, exec i s = cmd h op params false (fun d => stageWith (bad d) (ks d) (ls d) f d) s) (hok : ∀ d, w d → bad d = false) :
    stages i h op params w ks ls f := by
  unfold stages sets
  exact ends_of_body hx fun d ⟨hw, hs⟩ => stageWith_ok (hok d hw) hs

/-- A staging command's change of the staged generation, written in another form. -/
theorem stages_congr {ks ls : Dev → List Nat} {f f' : Gen → Gen} (hf : ∀ g, f' g = f g) (hs : stages i h op params w ks ls f') :
    stages i h op params w ks ls f := by
  rwa [funext hf] at hs

end

/-! ### Conditions that several commands test -/

/-- A single check passes. -/
theorem one_check {bad : Bool} {st : Status} (hb : bad = false) : [(bad, st)].find? Prod.fst = none := by
  rw [hb]
  rfl

/-- A range that is not empty and ends inside its table. -/
theorem rangeBad_eq_false {size first count : Nat} (hcount : count ≠ 0) (hend : first + count ≤ size) : rangeBad size first count = false := by
  simp [rangeBad, hcount, hend]

/-- A change that the staged generation may take is written, with its keys in the change set. -/
theorem stage_ok {ks ls : List Nat} {f : Gen → Gen} {d : Dev} (hs : canStage ks ls d) : stage ks ls f d = okay (stagedBy ks ls f d) := by
  rw [← stageWith_ok (bad := false) rfl hs]
  exact (checks_pass (by simp [stagedShut, hs.1])).symm

/-- Directory entries whose fields are in form are staged. -/
theorem writeEntries_ok {first : Nat} {es : List DirEntry} {d : Dev} (hes : ∀ e ∈ es, writeFault e = none)
    (hs : canStage (rangeFrom first es.length) [] d) :
    writeEntries first es d = okay (stagedBy (rangeFrom first es.length) [] (putEntries (stagedNum d) first es) d) := by
  have hnone : (es.zipIdx.findSome? fun e => (writeFault e.1).map fun r => (first + e.2, r)) = none := by
    rw [List.findSome?_eq_none_iff]
    intro e he
    rw [hes e.1 (List.fst_mem_of_mem_zipIdx he), Option.map_none]
  unfold writeEntries
  rw [hnone]
  exact stage_ok hs

/-! ### Loads of tables (R160) -/

section
variable {d : Dev}

/-- A load that its table and its source allow starts. -/
theorem loadChecks_pass {h : Hdr} {size : Nat} {p : LoadP} {start : Dev → Answer} (hpend : d.clk.pending = none)
    (hsrc : p.source.toNat ≤ 1) (hcount : p.count.toNat ≠ 0) (hend : p.first.toNat + p.count.toNat ≤ size)
    (hreplay : p.source = 1 → h.chan = 24 ∧ (replaySection d p.addr.toNat).isSome = true) : loadChecks h size p start d = start d := by
  refine checks_pass ?_
  have hone : p.source = 1 → h.chan = 24 := fun h1 => (hreplay h1).1
  simpa [stagedShut, hpend, hsrc, rangeBad_eq_false hcount hend] using ⟨hone, fun h1 => (hreplay h1).2⟩

/-- The end of a load whose bytes are there, agree with its CRC and were read while the staged generation was open. -/
theorem loadAnswer_ok {l : LoadRun} {width : Nat} {data : Bytes} {eff : Bytes → Dev → Answer} (hconflict : l.conflict = false)
    (hlen : l.p.source = 1 → width * l.p.count.toNat ≤ (loadData d l data).length)
    (hcrc : crc32 (cut (loadData d l data) 0 (width * l.p.count.toNat)) = l.p.crc.toNat) :
    loadAnswer l width data true eff d = eff (cut (loadData d l data) 0 (width * l.p.count.toNat)) d := by
  refine checks_pass (l := [(l.conflict, .generationConflict), (!decide (l.p.source = 1) && !true, .internalFault),
    ((decide (l.p.source = 1) && decide ((loadData d l data).length < width * l.p.count.toNat)) ||
      crc32 (cut (loadData d l data) 0 (width * l.p.count.toNat)) != l.p.crc.toNat, .badParam)]) ?_
  simpa [hconflict, hcrc] using hlen

/-- An engine's load starts by the size of its table. -/
theorem engLoad_starts {h : Hdr} {tables : Nat → Option EngTable} {t : EngTable} {p : LoadP} {start : Dev → Dev}
    (ht : tables p.table.toNat = some t) (hpend : d.clk.pending = none) (hsrc : p.source.toNat ≤ 1) (hcount : p.count.toNat ≠ 0)
    (hend : p.first.toNat + p.count.toNat ≤ t.size)
    (hreplay : p.source = 1 → h.chan = 24 ∧ (replaySection d p.addr.toNat).isSome = true) :
    engLoad h tables p start d = (start d, none) := by
  unfold engLoad
  rw [ht]
  exact loadChecks_pass hpend hsrc hcount hend hreplay

/-- A clear takes a range of a table that the engine has. -/
theorem engClear_inTable {tables : Nat → Option EngTable} {t : EngTable} {table first count : Nat} (ht : tables table = some t)
    (hcount : count ≠ 0) (hend : first + count ≤ t.size) :
    (match tables table with | some t => rangeBad t.size first count | none => true) = false := by
  rw [ht]
  exact rangeBad_eq_false hcount hend

/-- The entries of an engine's table that are in form are staged in order. -/
theorem engEntries_ok {first : Nat} {bad : Bytes → Bool} {put : Gen → Nat → Bytes → Gen} {es : List Bytes} (hes : ∀ e ∈ es, bad e = false) :
    engEntries first bad put es d = okay { d with staged := es.zipIdx.foldl (fun g e => put g (first + e.2) e.1) d.staged } := by
  have hnone : (es.zipIdx.find? fun e => bad e.1) = none := by
    rw [List.find?_eq_none]
    intro e he
    simp [hes e.1 (List.fst_mem_of_mem_zipIdx he)]
  unfold engEntries
  rw [hnone]

/-- The end of an engine's load: its entries are staged, and its command completes. -/
theorem engDone_ok {l : LoadRun} {tables : Nat → Option EngTable} {t : EngTable} {bad : Nat → Bytes → Bool}
    {put : Nat → Gen → Nat → Bytes → Gen} {data : Bytes} (ht : tables l.p.table.toNat = some t) (hconflict : l.conflict = false)
    (hlen : l.p.source = 1 → t.width * l.p.count.toNat ≤ (loadData d l data).length)
    (hcrc : crc32 (cut (loadData d l data) 0 (t.width * l.p.count.toNat)) = l.p.crc.toNat)
    (hes : ∀ e ∈ chunksOf t.width l.p.count.toNat (cut (loadData d l data) 0 (t.width * l.p.count.toNat)), bad l.p.table.toNat e = false) :
    engDone l tables bad put data true d = finishLoad l .ok [] { d with
      staged := (chunksOf t.width l.p.count.toNat (cut (loadData d l data) 0 (t.width * l.p.count.toNat))).zipIdx.foldl
        (fun g e => put l.p.table.toNat g (l.p.first.toNat + e.2) e.1) d.staged } := by
  unfold engDone
  rw [ht]
  dsimp only
  rw [loadAnswer_ok hconflict hlen hcrc, engEntries_ok hes]
  rfl

end

end Sys2Proof.Proofs.Completion
end

section
/-!
Proofs of the statements of chapter 2: what happens to the timebase, and the TIME commands.
-/
namespace Sys2Proof.Proofs.TimeCompletion

open Sys2Proof Sys2Proof.Machine Sys2Proof.Safety Sys2Proof.Laws Sys2Proof.Proofs.Generations Sys2Proof.Proofs.Completion

/-- A sentence that can label its edge: valid, of a second of the minute, and its start bit 10 ms to 900 ms after an edge (R51). -/
theorem sentence_usable {m : NmeaIn} {x : Snap} (hvalid : m.valid = true) (hsec : m.second ≤ 60) (hfrom : 10 ≤ m.afterMs)
    (hto : m.afterMs ≤ 900) (hsnap : x.valid = true) :
    (!m.valid || decide (60 < m.second) || decide (m.afterMs < 10) || decide (900 < m.afterMs) || !x.valid) = false := by
  simp [hvalid, hsec, hfrom, hto, hsnap]

/-- Settles O2: each clause is the model's effect where the clause's condition decides its branches. -/
theorem timeEventsComplete : Obligations.TimeEventsComplete := by
  unfold Obligations.TimeEventsComplete
  refine ⟨?second, ?serial, fun value => ?inc, fun a => ?adjusted, fun input taken => ?edge, fun m => ?sentence, fun m => ?leap,
    fun port domain delay => ?delay, fun port domain sq o off => ?sync, fun port => ?request, fun port => ?master, fun code => ?lost,
    fun c t => ?upgrade, ?within, ?outside, ?pulse0, ?pulse1, fun path => ?now⟩
  case second =>
    refine does_of_runLive (fun _ => rfl) (fun _ hw => hw.1) fun d ⟨_, hdone⟩ => ?_
    simp only [secondStart, hdone, if_true]
  case serial =>
    refine does_of_runLive (fun _ => rfl) (fun _ hw => hw.1) fun d ⟨_, hen, hdrive, hout⟩ => ?_
    simp only [hen, hdrive, hout, Bool.and_self, if_true]
  case inc =>
    refine does_of_runLive (fun _ => rfl) (fun _ hw => hw.1) fun d ⟨_, hlow, hhigh, hstate⟩ => if_neg ?_
    simpa [hstate] using ⟨hlow, hhigh⟩
  case adjusted =>
    refine does_of_runLive (fun _ => rfl) (fun _ hw => hw.1) fun d ⟨_, hadj⟩ => ?_
    simp only [hadj]
  case edge =>
    refine does_of_runLive (fun _ => rfl) (fun _ hw => hw.1) fun d ⟨_, htakes⟩ => ?_
    simp [htakes]
  case sentence =>
    refine does_of_runLive (fun _ => rfl) (fun _ hw => hw.1) fun d ⟨_, hfw, hvalid, hsec, hfrom, hto, hsnap, hnear⟩ => ?_
    refine (if_neg (Bool.eq_false_iff.mp (sentence_usable hvalid hsec hfrom hto hsnap))).trans ((if_neg (by simp [hfw])).trans ?_)
    exact congrArg (labelled 1 _ _) (if_pos (show (unsetTime d || decide ((sentenceOff m d).natAbs < 500000000)) = true by simpa using hnear))
  case leap =>
    refine does_of_runLive (fun _ => rfl) (fun _ hw => hw.1) fun d ⟨_, hfw, hvalid, hsec, hfrom, hto, hsnap, hset, hfar⟩ => ?_
    refine (if_neg (Bool.eq_false_iff.mp (sentence_usable hvalid hsec hfrom hto hsnap))).trans ((if_neg (by simp [hfw])).trans ?_)
    exact congrArg (labelled 1 _ _) (if_neg (show ¬(unsetTime d || decide ((sentenceOff m d).natAbs < 500000000)) = true by simpa [hset] using hfar))
  case delay =>
    refine does_of_runLive (fun _ => rfl) (fun _ hw => hw.1) fun d ⟨_, hfw, hen, hdom, hrole⟩ => ?_
    refine if_neg ?_
    simp only [hfw, hen, hdom, hrole]
    simp
  case sync =>
    refine does_of_runLive (fun _ => rfl) (fun _ hw => hw.1) fun d ⟨_, hfw, hen, hdom, hrole, hslave⟩ => ?_
    refine (if_neg ?_).trans (if_pos (decide_eq_true hslave))
    simp only [hfw, hen, hdom, hrole]
    simp
  case request =>
    refine does_of_runLive (fun _ => rfl) (fun _ hw => hw.1) fun d ⟨_, hfw, hrole, hen, hstate⟩ => ?_
    refine (if_pos ?_).trans (if_neg ?_)
    · simp only [hfw, hrole, hen, decide_false, Bool.not_false, Bool.and_self]
    · simp only [hstate, decide_false, Bool.false_and, Bool.false_eq_true, not_false_eq_true]
  case master =>
    refine does_of_runLive (fun _ => rfl) (fun _ hw => hw.1) fun d ⟨_, hfw, hrole, hen, hstate, hboth, hu⟩ => ?_
    refine (if_pos ?_).trans (if_pos ?_)
    · simp only [hfw, hrole, hen, decide_false, Bool.not_false, Bool.and_self]
    · exact Bool.and_eq_true_iff.mpr ⟨Bool.and_eq_true_iff.mpr ⟨decide_eq_true hstate, hu⟩, by rw [hboth]; rfl⟩
  case lost =>
    refine does_of_runLive (fun _ => rfl) (fun _ hw => hw.1) fun d ⟨_, hcode, hlt, hhave⟩ => if_neg ?_
    have h0 : code.toNat ≠ 0 := fun h => hcode (BitVec.eq_of_toNat_eq h)
    obtain hpres | href := hhave
    · simp [h0, hlt, Option.isSome_iff_ne_none.mp hpres]
    · simp [h0, hlt, href]
  case upgrade =>
    refine does_of_runLive (fun _ => rfl) (fun _ hw => hw.1) fun d ⟨_, hfw, href, hrank, hfirst, hpres, hlong⟩ => ?_
    simp only [hrank, Option.getD_some, hfirst, List.find?_cons, hpres, hlong, hfw, href]
    rfl
  case within =>
    refine does_of_runLive (fun _ => rfl) (fun _ hw => hw.1) fun d ⟨_, hosc⟩ => ?_
    simp [hosc]
  case outside =>
    refine does_of_runLive (fun _ => rfl) (fun _ hw => hw.1) fun d ⟨_, hosc⟩ => ?_
    simp [hosc]
  case pulse0 =>
    refine does_of_runLive (fun _ => rfl) (fun _ hw => hw.1) fun d ⟨_, hhigh⟩ => ?_
    simp [hhigh]
  case pulse1 =>
    refine does_of_runLive (fun _ => rfl) (fun _ hw => hw.1) fun d ⟨_, hhigh⟩ => ?_
    simp [hhigh]
  case now => exact does_of_runLive (fun _ => rfl) (fun _ hw => hw) fun _ _ => rfl

/-- Settles O3: the checks of each TIME command pass where its parameters and the time state are as the clause says. -/
theorem timeCommandsComplete : Obligations.TimeCommandsComplete := by
  unfold Obligations.TimeCommandsComplete
  refine ⟨fun h => ?status, fun h sec ns uH => ?set, fun h sec ns uH => ?atPps, fun h sv n => ?adjust, fun h a => ?abort,
    fun h refs pol baud => ?refs, fun h uLock fRef10 aRef10 fRef100 aRef100 holdSpec degraded => ?qual, fun h entries => ?leap,
    fun h p => ?ptp, fun h p => ?outs⟩
  case status =>
    refine ends_of_body (fun _ => rfl) fun d hnone => ?_
    simp only [hnone]
    rfl
  case set =>
    refine ends_of_body (fun _ => rfl) fun d ⟨hns, hstate, hos⟩ => checks_pass ?_
    obtain hstate | hstate := hstate <;> simp [unsetTime, hstate, hos, hns]
  case atPps =>
    refine ends_of_body (fun _ => rfl) fun d ⟨hns, hstate, hos⟩ => checks_pass ?_
    obtain hstate | hstate := hstate <;> simp [unsetTime, hstate, hos, hns]
  case adjust =>
    refine ends_of_body (fun _ => rfl) fun d ⟨hn, hs, hadj, hstate⟩ => checks_pass ?_
    simpa [hadj, hstate] using ⟨hn, hs⟩
  case abort =>
    refine ends_of_body (fun _ => rfl) fun d hadj => ?_
    simp only [hadj]
    rfl
  case refs =>
    intro codes used
    refine ends_of_body (fun _ => rfl) fun d ⟨hrest, hcode, hnodup, hpol, hbaud⟩ => (checks_pass ?_).trans (congrArg okay (if_congr ?_ rfl rfl))
    · have hbad : (!(codes.drop used.length).all (· == 0) || used.any (5 < ·) || !used.Nodup) = false := by
        simpa [hnodup] using ⟨hrest, hcode⟩
      change [(_ || decide (4 ≤ pol.toNat) || decide (5 ≤ baud.toNat), Status.badParam)].find? Prod.fst = none
      rw [hbad]
      simp [hpol, hbaud]
    · simp [← BitVec.toNat_inj, used, codes]
  case qual =>
    refine ends_of_body (fun _ => rfl) fun d hdeg => checks_pass ?_
    obtain rfl | rfl := hdeg <;> rfl
  case leap =>
    refine ends_of_body (fun _ => rfl) fun d ⟨hok, hstate⟩ => checks_pass ?_
    simp [unsetTime, hstate, hok]
  case ptp =>
    refine ends_of_body (fun _ => rfl) fun d ⟨hport, hen, hprof, hslave, hpeer, hvid, hpcp, hgm, hother⟩ => checks_pass ?_
    simpa [hport, hen, hprof, hslave, hpeer, hvid, hpcp] using ⟨hgm, fun he hs => hother ⟨he, hs⟩⟩
  case outs =>
    refine ends_of_body (fun _ => rfl) fun d ⟨h1, h2, h3, h4, h5, h6, h7, h8, h9, h10, h11, h12, h13, h14⟩ => checks_pass ?_
    simp [h1, h2, h3, h4, h5, h6, h7, h8, h9, h10, h11, h12, h13, h14]

end Sys2Proof.Proofs.TimeCompletion
end

section
/-!
Proofs of the statement of chapter 6: what comes about at a slot, and the ALN commands.
-/
namespace Sys2Proof.Proofs.AlignmentCompletion

open Sys2Proof Sys2Proof.Machine Sys2Proof.Safety Sys2Proof.Laws Sys2Proof.Proofs.Generations Sys2Proof.Proofs.Completion

/-- Settles O4: each clause is the model's effect where the clause's condition decides its branches. -/
theorem alignmentCommandsComplete : Obligations.AlignmentCommandsComplete := by
  unfold Obligations.AlignmentCommandsComplete
  refine ⟨fun os sec tick x => ?deadline, fun os sec tick x => ?waited, fun r rest => ?amend, fun r rest => ?oldGen, fun r rest g => ?record,
    fun r rest => ?report, fun os => ?sweep, fun v => ?select, fun h p => ?define, fun h ostream => ?remove, fun h p => ?member,
    fun h first count => ?clear, fun h restartGap => ?params, fun h ostream x => ?ostream, fun h memb half x => ?memb, fun h => ?plan⟩
  case deadline =>
    refine does_of_runCore (fun _ => rfl) (fun _ hw => hw.1) fun d ⟨_, hslot, hopen⟩ => ?_
    simp only [hslot, hopen, decide_true, if_true]
  case waited =>
    refine does_of_runCore (fun _ => rfl) (fun _ hw => hw.1) fun d ⟨_, hslot, hwait⟩ => ?_
    simp only [hslot, hwait, if_true]
  case amend =>
    refine does_of_runCore (fun _ => rfl) (fun _ hw => hw.1) fun d ⟨_, hq, hamend⟩ => ?_
    simp only [hq, hamend, if_false]
  case oldGen =>
    refine does_of_runCore (fun _ => rfl) (fun _ hw => hw.1) fun d ⟨_, hq, hamend, hgen⟩ => ?_
    simp only [hq, hamend, if_true, hgen]
  case record =>
    refine does_of_runCore (fun _ => rfl) (fun _ hw => hw.1) fun d ⟨_, hq, hamend, hgen⟩ => ?_
    simp only [hq, hamend, if_true, hgen]
  case report =>
    refine does_of_runCore (fun _ => rfl) (fun _ hw => hw.1) fun d ⟨_, hq, hbp⟩ => ?_
    simp only [hq, hbp, Bool.false_and, Bool.false_eq_true, if_false]
  case sweep => exact does_of_runCore (fun _ => rfl) (fun _ hw => hw) fun _ _ => rfl
  case select => exact does_of_runLive (fun _ => rfl) (fun _ hw => hw) fun _ _ => rfl
  case define => exact stages_of_stageWith (fun _ => rfl) fun _ hok => hok
  case remove => exact stages_of_stageWith (fun _ => rfl) fun _ hos => decide_eq_false (Nat.not_le.mpr hos)
  case member => exact stages_of_stageWith (fun _ => rfl) fun _ hok => hok
  case clear =>
    refine stages_of_stageWith (fun _ => rfl) fun _ ⟨hcount, hend⟩ => rangeBad_eq_false ?_ hend
    exact fun h0 => hcount (BitVec.eq_of_toNat_eq h0)
  case params => exact ends_of_body (fun _ => rfl) fun d hgap => checks_pass (by simpa using hgap)
  case ostream =>
    refine ends_of_body (fun _ => rfl) fun d ⟨hos, hdef, hlast⟩ => (checks_pass (by simp [hos])).trans ?_
    simp only [Option.isNone_eq_false_iff.mpr hdef, hlast]
    rfl
  case memb =>
    refine ends_of_body (fun _ => rfl) fun d ⟨hmemb, hhalf, hdef⟩ => (checks_pass (by simp [hmemb, hhalf])).trans ?_
    simp only [hdef]
    rfl
  case plan =>
    refine ends_of_body (fun _ => rfl) fun d ⟨hpend, hbreach, hblocks, hfits⟩ => ?_
    have hroom : ¬ landMax < landBlocks d.cur.land (landPlan d) := Nat.not_lt.mpr hblocks
    simp only [stagedShut, hpend, hbreach, hfits, hroom]
    rfl

end Sys2Proof.Proofs.AlignmentCompletion
end

section
/-!
Proofs of the statements of chapter 4: what arrives at ingest, and the ING commands.
-/
namespace Sys2Proof.Proofs.IngestCompletion

open Sys2Proof Sys2Proof.Machine Sys2Proof.Safety Sys2Proof.Laws Sys2Proof.Proofs.Generations Sys2Proof.Proofs.Completion

/-- Firmware that serves takes what waits for it. -/
theorem fwServes {d : Dev} (hup : d.cmd.fwUp = true) (hrestart : d.cmd.fwRestarting = false) : (!d.cmd.fwUp || d.cmd.fwRestarting) = false := by
  simp [hup, hrestart]

/-- A descriptor whose fields are in range. -/
theorem hostDesc_inForm {x : HostDesc} (hlen : 16 ≤ x.len.toNat) (hstream : x.stream.toNat < 262144) (hbits : x.bits.toNat ≤ 1)
    (hres : x.reserved = 0) :
    (decide (x.len.toNat < 16) || decide (262144 ≤ x.stream.toNat) || x.bits.toNat / 2 != 0 || x.reserved != 0) = false := by
  have hhalf : x.bits.toNat / 2 = 0 := by omega
  simpa [hlen, hstream, hhalf] using hres

/-- Settles O5: each clause is the model's effect where the clause's condition decides its branches. -/
theorem ingestEventsComplete : Obligations.IngestEventsComplete := by
  unfold Obligations.IngestEventsComplete
  refine ⟨fun port m rest => ?arp, fun port m rest i => ?ip, fun port m rest i => ?udp, fun k rest f q => ?internal, fun k rest f q => ?external,
    fun r => ?report, fun c x rest => ?config, fun ring v => ?tail, fun ring x y => ?descriptor⟩
  case arp =>
    refine does_of_runLive (fun _ => rfl) (fun _ hw => hw.1) fun d ⟨_, hup, hrestart, hq, htype⟩ => ?_
    simp only [hq, fwServes hup hrestart, htype, Bool.false_eq_true, if_false, if_true]
  case ip =>
    refine does_of_runLive (fun _ => rfl) (fun _ hw => hw.1) fun d ⟨_, hup, hrestart, hq, htype, hparse⟩ => ?_
    simp only [hq, fwServes hup hrestart, htype, hparse, Bool.false_eq_true, if_false]
  case udp =>
    refine does_of_runCore (fun _ => rfl) (fun _ hw => hw.1) fun d ⟨_, hbp, hq, hparse, hproto, hdst⟩ => ?_
    simp only [hq, hbp, hparse, hproto, Bool.false_eq_true, if_false, if_true]
    refine if_neg ?_
    obtain hdst | hdst := hdst <;> simp [hdst]
  case internal =>
    refine does_of_runCore (fun _ => rfl) (fun _ hw => hw.1) fun d ⟨_, hready, hq, hroom⟩ => ?_
    simp only [hready, hroom, if_true]
    have htask : (streamOf { d with ing := { d.ing with readyInt := d.ing.readyInt.filter (· != k) } } k).queue = f :: q := hq
    simp only [serveInternal, htask]
    rfl
  case external =>
    refine does_of_runCore (fun _ => rfl) (fun _ hw => hw.1) fun d ⟨_, hint, hready, hq, hroom⟩ => ?_
    simp only [hint, hready, hroom, if_true]
    have htask : (streamOf { d with ing := { d.ing with readyExt := d.ing.readyExt.filter (· != k) } } k).queue = f :: q := hq
    simp only [serveExternal, htask]
    rfl
  case report =>
    exact does_of_runCore (fun _ => rfl) (fun _ hw => hw.1) fun d ⟨_, hint⟩ => if_pos hint
  case config =>
    refine does_of_runLive (fun _ => rfl) (fun _ hw => hw.1) fun d ⟨_, hup, hrestart, hq, hsync, htype⟩ => ?_
    simp only [hq, fwServes hup hrestart, hsync, htype, Bool.false_eq_true, if_false]
  case tail => exact does_of_runLive (fun _ => rfl) (fun _ hw => hw) fun _ _ => rfl
  case descriptor =>
    refine does_of_runCore (fun _ => rfl) (fun _ hw => hw.1) fun d ⟨_, hturn, hbp, hlink, hlen, hstream, hbits, hres, hdef, hkind⟩ => ?_
    refine (if_neg (by simp [hturn, hbp, hlink])).trans ?_
    have hhost : (decide (y.kind = .hostC37) || decide (y.kind = .hostSv)) = true := by simpa using hkind
    simp only [hostDesc_inForm hlen hstream hbits hres, hdef, hhost]
    rfl

/-- A stream number inside the stream table. -/
theorem stream_inTable {k : Nat} (hk : k < 262144) : decide (streamMax ≤ k) = false := decide_eq_false (Nat.not_le.mpr hk)

/-- Settles O6: the checks of each ING command pass where its parameters and the stream's state are as the clause says. -/
theorem ingestCommandsComplete : Obligations.IngestCommandsComplete := by
  unfold Obligations.IngestCommandsComplete
  refine ⟨fun h p => ?key, fun h p => ?define, fun h stream => ?remove, fun h stream => ?status, fun h stream => ?release, fun h p => ?addr,
    fun h p => ?ring, fun h stream on off mask => ?gate, fun h stream keyId slot kind => ?next, fun h stream keyId slot kind => ?rebind⟩
  case key =>
    dsimp only
    refine stages_of_stageWith (fun _ => rfl) fun d ⟨hk, hq, hport, hvid, hsrc, hkind, hstream, hother⟩ => ?_
    simp only [Bool.or_eq_false_iff]
    refine ⟨⟨⟨⟨⟨⟨⟨stream_inTable hk, by simpa using hq⟩, ?port⟩, ?vid⟩, ?src⟩, by simpa using hkind⟩, by simp only [hstream]; simp⟩, ?other⟩
    case port => split at hport <;> simp [*]
    case vid => split at hvid <;> simp [*]
    case src => simpa using hsrc
    case other =>
      rw [List.any_eq_false]
      intro e he
      simpa using hother e he
  case define =>
    dsimp only
    refine ends_of_body (fun _ => rfl) fun d ⟨hgood, hs⟩ => ?_
    simp only [stageWith_ok hgood hs, okay, decide_true, if_true]
    rfl
  case remove => exact stages_of_stageWith (fun _ => rfl) fun _ hk => stream_inTable hk
  case status =>
    dsimp only
    refine ends_of_body (fun _ => rfl) fun d ⟨hk, hdef⟩ => (checks_pass (by simp [stream_inTable hk])).trans ?_
    simp only [Option.isNone_eq_false_iff.mpr hdef, Bool.false_eq_true, if_false]
    rfl
  case release =>
    dsimp only
    exact ends_of_body (fun _ => rfl) fun d ⟨hk, hheld⟩ => checks_pass (by simp [stream_inTable hk, hheld])
  case addr =>
    dsimp only
    refine ends_of_body (fun _ => rfl) fun d ⟨hport, hver, he, hen, hplen, hmcast, hmapped, hfree⟩ => checks_pass (one_check ?_)
    simp only [Bool.or_eq_false_iff]
    refine ⟨⟨⟨⟨⟨⟨⟨by simpa using hport, ?ver⟩, by simpa using he⟩, by simpa using hen⟩, by simpa using hplen⟩, hmcast⟩, by simpa using hmapped⟩,
      ?free⟩
    case ver => obtain hver | hver := hver <;> rw [hver] <;> rfl
    case free =>
      simp only [Bool.and_eq_false_iff, List.any_eq_false, or_iff_not_imp_left, Bool.not_eq_false, decide_eq_true_eq]
      intro hen i hi
      rw [Bool.and_eq_true, not_and]
      intro hie
      cases hx : mfind d.ing.addrs (addrKey p.port.toNat (decide (p.version = 6)) i) with
      | none => simp
      | some y => simpa using hfree hen i (List.mem_range.mp hi) (by simpa using hie) y hx
  case ring =>
    dsimp only
    refine ends_of_body (fun _ => rfl) fun d ⟨hr, hsize, hbase, hwb, hen, hidle⟩ => checks_pass ?_
    simpa [hr, hsize, hbase, hwb, hen] using hidle
  case gate =>
    dsimp only
    refine ends_of_body (fun _ => rfl) fun d ⟨hk, hbits⟩ => checks_pass ?_
    simpa [stream_inTable hk] using hbits
  case next =>
    dsimp only
    refine ends_of_body (fun _ => rfl) fun d ⟨hk, hkind, hkinds, hslot, hquar⟩ => (checks_pass ?_).trans ?_
    · simpa [stream_inTable hk, hkinds] using hkind
    · simp only [hslot]
      refine congrArg okay (if_neg ?_)
      simp [hquar]
  case rebind =>
    dsimp only
    refine ends_of_body (fun _ => rfl) fun d ⟨hk, hkind, hkinds, hslot, hquar, hnext⟩ => (checks_pass ?_).trans ?_
    · simpa [stream_inTable hk, hkinds] using hkind
    · simp only [hslot]
      refine congrArg okay (if_pos ?_)
      simp [hquar, hslot, hnext]

end Sys2Proof.Proofs.IngestCompletion
end

section
/-!
Proofs of the statement of chapter 5: writes and loads of the staged directory, its reports and its windows.
-/
namespace Sys2Proof.Proofs.DirectoryCompletion

open Sys2Proof Sys2Proof.Machine Sys2Proof.Safety Sys2Proof.Laws Sys2Proof.Proofs.Generations Sys2Proof.Proofs.Completion

/-- A channel number inside the directory. -/
theorem chan_inDirectory {c : Nat} (hc : c < 33554432) : decide (dirSize ≤ c) = false := decide_eq_false (Nat.not_le.mpr hc)

/-- A load of directory entries that are in form ends: the entries are staged, and the load is logged. -/
theorem dirLoad_ends {l : LoadRun} {data : Bytes} {d : Dev} {es : List DirEntry}
    (hes : es = (chunksOf 32 l.p.count.toNat (cut (loadData d l data) 0 (32 * l.p.count.toNat))).map dirEntryOf) (hconflict : l.conflict = false)
    (hlen : l.p.source = 1 → 32 * l.p.count.toNat ≤ (loadData d l data).length)
    (hcrc : crc32 (cut (loadData d l data) 0 (32 * l.p.count.toNat)) = l.p.crc.toNat) (hform : ∀ e ∈ es, writeFault e = none)
    (hs : canStage (rangeFrom l.p.first.toNat es.length) [] d) :
    loadAnswer l 32 data true (fun b => writeEntries l.p.first.toNat ((chunksOf 32 l.p.count.toNat b).map dirEntryOf)) d =
      okay (stagedBy (rangeFrom l.p.first.toNat es.length) [] (putEntries (stagedNum d) l.p.first.toNat es) d) := by
  subst hes
  exact (loadAnswer_ok hconflict hlen hcrc).trans (writeEntries_ok hform hs)

/-- Where no row in a range has a fault, the validation of the range finds none. -/
theorem noFaultyRow {d : Dev} {f n : Nat}
    (hgood : ∀ e ∈ d.staged.dir, (n = 0 ∨ (f ≤ e.1 ∧ e.1 < f + n)) → rowFaults d.staged e.1 = []) :
    (((d.staged.dir.map Prod.fst).filter fun c => n = 0 || (f ≤ c && c < f + n)).filterMap fun c =>
      (rowFaults d.staged c).head?.map fun r => (c, r)) = [] := by
  rw [List.filterMap_eq_nil_iff]
  intro c hc
  obtain ⟨hmem, hin⟩ := List.mem_filter.mp hc
  obtain ⟨e, he, rfl⟩ := List.mem_map.mp hmem
  rw [hgood e he (by simpa using hin)]
  rfl

/-- Settles O7: each clause is the model's effect where the clause's condition decides its branches. -/
theorem directoryCommandsComplete : Obligations.DirectoryCommandsComplete := by
  unfold Obligations.DirectoryCommandsComplete
  refine ⟨fun h chan e => ?write, fun h p => ?load, fun l rest data => ?loaded, fun h first count => ?clear, fun h chan gsel => ?read,
    fun h index e => ?scale, fun h first count => ?validate, fun h => ?status, fun path v w => ?index, fun path w v => ?fetched⟩
  case write =>
    refine ends_of_body (fun _ => rfl) fun d ⟨hc, hform, hs⟩ => (checks_pass (by simp [stagedShut, hs.1, chan_inDirectory hc])).trans ?_
    exact writeEntries_ok (by simpa using hform) hs
  case load =>
    refine begins_of_body (fun _ => rfl) fun d ⟨hpend, hsrc, hcount, hend, hreplay⟩ => loadChecks_pass hpend hsrc ?_ hend hreplay
    exact fun h0 => hcount (BitVec.eq_of_toNat_eq h0)
  case loaded =>
    refine does_of_runLive (fun _ => rfl) (fun _ hw => hw.1) fun d ⟨_, hl, hconflict, hlen, hcrc, hform, hs⟩ => ?_
    simp only [hl]
    rw [dirLoad_ends (d := { d with dir := { d.dir with loads := rest } }) rfl hconflict hlen hcrc hform hs]
    rfl
  case clear =>
    refine ends_of_body (fun _ => rfl) fun d ⟨hcount, hend, hs⟩ => stageWith_ok (rangeBad_eq_false hcount hend) hs
  case read =>
    exact ends_of_body (fun _ => rfl) fun d ⟨hc, hsel⟩ => checks_pass (by simp [chan_inDirectory hc, hsel])
  case scale =>
    refine stages_of_stageWith (fun _ => rfl) fun d ⟨hindex, hres, hflags, hk, hk0, hb, ht⟩ => ?_
    have hhalf : e.flags.toNat / 2 = 0 := by omega
    simpa [hhalf, hk, hk0, hb, ht] using ⟨hindex, hres⟩
  case validate =>
    refine ends_of_body (fun _ => rfl) fun d ⟨hfirst, hend, hgood⟩ => (checks_pass (one_check ?_)).trans ?_
    · exact Bool.or_eq_false_iff.mpr ⟨chan_inDirectory hfirst, decide_eq_false (Nat.not_lt.mpr hend)⟩
    · simp only [noFaultyRow hgood]
      rfl
  case status => exact ends_of_body (fun _ => rfl) fun _ _ => rfl
  case index =>
    refine does_of_runLive (fun _ => rfl) (fun _ hw => hw.1) fun d ⟨_, hwin⟩ => ?_
    simp only [dirWinWrite, hwin]
  case fetched =>
    refine does_of_runLive (fun _ => rfl) (fun _ hw => hw.1) fun d ⟨_, hwin, hfetch, hdir⟩ => ?_
    simp only [hwin, hfetch, hdir, Bool.false_and, Bool.false_eq_true, if_false]

end Sys2Proof.Proofs.DirectoryCompletion
end

section
/-!
Proofs of the statements of chapter 3: what the line does to a port, and the PORT commands.
-/
namespace Sys2Proof.Proofs.PortCompletion

open Sys2Proof Sys2Proof.Machine Sys2Proof.Safety Sys2Proof.Laws Sys2Proof.Proofs.Generations Sys2Proof.Proofs.Completion

/-- What FRAME_RECEIVE tests of a frame before its addresses: the link, room for it, its line code, its length and its FCS (R74 to R77). -/
abbrev wholeFrame (port : Nat) (f : RxFrame) (x : Port) : Prop :=
  x.link = .up ∧ x.rxFill + storeBound x ≤ rxSize port ∧ f.lineOk = true ∧ 64 ≤ f.bytes.length ∧ f.bytes.length ≤ storeBound x ∧
  crc32 (f.bytes.take (f.bytes.length - 4)) = leAt f.bytes (f.bytes.length - 4) 4

/-- A whole frame passes every test that drops or counts a frame. -/
theorem wholeFrame_passes {port : Nat} {f : RxFrame} {x : Port} {α : Type} {a b c e g h k : α} (hf : wholeFrame port f x) :
    (if !decide (x.link = .up) then a
      else if rxSize port < x.rxFill + storeBound x then b
      else if !f.lineOk then c
      else if f.bytes.length < 64 then e
      else if storeBound x < f.bytes.length then g
      else if crc32 (f.bytes.take (f.bytes.length - 4)) != leAt f.bytes (f.bytes.length - 4) 4 then h
      else k) = k := by
  obtain ⟨hlink, hroom, hline, hmin, hmax, hfcs⟩ := hf
  simp [hlink, Nat.not_lt.mpr hroom, hline, Nat.not_lt.mpr hmin, Nat.not_lt.mpr hmax, hfcs]

/-- Settles O8: each clause is the model's effect where the clause's condition decides its branches. -/
theorem portEventsComplete : Obligations.PortEventsComplete := by
  unfold Obligations.PortEventsComplete
  refine ⟨fun port f cls => ?frame, fun port f cls => ?pauseFrame, fun port q => ?pauseOn, fun port q => ?pauseStarts, fun port => ?expired,
    fun port => ?expires, fun port f rest => ?transmit, fun port fecLock anDone partner => ?up, fun port entered cut => ?down,
    fun port codewords => ?ber⟩
  case frame =>
    refine does_of_runLive (fun _ => rfl) (fun _ hw => hw.1) fun d ⟨_, hlink, hroom, hline, hmin, hmax, hfcs, hcls, htype⟩ => ?_
    refine (wholeFrame_passes ⟨hlink, hroom, hline, hmin, hmax, hfcs⟩).trans ?_
    simp only [hcls, htype, if_false]
  case pauseFrame =>
    refine does_of_runLive (fun _ => rfl) (fun _ hw => hw.1) fun d ⟨_, hlink, hroom, hline, hmin, hmax, hfcs, hcls, htype, hop⟩ => ?_
    refine (wholeFrame_passes ⟨hlink, hroom, hline, hmin, hmax, hfcs⟩).trans ?_
    simp only [hcls, htype, hop, if_true]
  case pauseOn =>
    refine does_of_runLive (fun _ => rfl) (fun _ hw => hw.1) fun d ⟨_, hin, hkeeps⟩ => ?_
    simp only [hin]
    refine if_neg ?_
    obtain hleft | rfl := hkeeps
    · simp [hleft]
    · simp
  case pauseStarts =>
    refine does_of_runLive (fun _ => rfl) (fun _ hw => hw.1) fun d ⟨_, hin, hleft, hq⟩ => ?_
    simp only [hin]
    exact if_pos (by simpa [hleft] using hq)
  case expired =>
    refine does_of_runLive (fun _ => rfl) (fun _ hw => hw.1) fun d ⟨_, hleft⟩ => ?_
    simp only [hleft, decide_true, Bool.true_or, if_true]
  case expires =>
    refine does_of_runLive (fun _ => rfl) (fun _ hw => hw.1) fun d ⟨_, hleft, hrate⟩ => ?_
    simp only [hleft, hrate, decide_false, Bool.or_self, Bool.false_eq_true, if_false]
  case transmit =>
    refine does_of_runLive (fun _ => rfl) (fun _ hw => hw.1) fun d ⟨_, hup, hrole, hbuf, hpause, hlaunch, hres⟩ => ?_
    refine (if_neg (by simp [hup, hrole])).trans ?_
    simp only [hbuf, hpause, hlaunch, hres, decide_true, Bool.not_false, Bool.and_self, if_true]
  case up =>
    refine does_of_runLive (fun _ => rfl) (fun _ hw => hw.1) fun d ⟨_, hmode, hlink, hrole, hpow⟩ => if_neg ?_
    simpa [hmode, hlink, hrole] using hpow
  case down =>
    refine does_of_runLive (fun _ => rfl) (fun _ hw => hw.1) fun d ⟨_, hlink, hent⟩ => if_pos ?_
    simp [hlink, hent]
  case ber => exact does_of_runLive (fun _ => rfl) (fun _ hw => hw) fun _ _ => rfl

/-- The parameters of PORT_CONFIG are in range. -/
theorem portConfig_inRange {p : PortConfigP} (hport : portBad p.port = false) (hmode : modeOk p.port.toNat p.mode.toNat = true)
    (han : p.an.toNat ≤ 1) (hfec : p.fec.toNat ≤ 1) (hpol : p.polarity.toNat < 16) (hmin : 1518 ≤ p.maxLen.toNat)
    (hmax : p.maxLen.toNat ≤ 9216) (hpause : p.pause.toNat ≤ 1) (htags : p.arpTags.toNat ≤ 2) (htpid : p.arpTpid.toNat ≤ 2) :
    (portBad p.port || !modeOk p.port.toNat p.mode.toNat || decide (1 < p.an.toNat) || decide (1 < p.fec.toNat) ||
      decide (16 ≤ p.polarity.toNat) || decide (p.maxLen.toNat < 1518) || decide (9216 < p.maxLen.toNat) || decide (1 < p.pause.toNat) ||
      decide (2 < p.arpTags.toNat) || decide (2 < p.arpTpid.toNat)) = false := by
  simp [hport, hmode, han, hfec, hpol, hmin, hmax, hpause, htags, htpid]

/-- Settles O9: the checks of each PORT command pass where its parameters and the port are as the clause says. -/
theorem portCommandsComplete : Obligations.PortCommandsComplete := by
  unfold Obligations.PortCommandsComplete
  refine ⟨fun h p cut => ?same, fun h p cut => ?trains, fun h p cut => ?falls, fun h port addr mcast promisc => ?addr,
    fun h port first addrs => ?mcast, fun h p => ?vlan, fun h port rx tx => ?adjust, fun h port => ?status, fun h p => ?macsec,
    fun h p => ?txSa, fun h p => ?rxSa, fun h port an => ?txAn⟩
  case same =>
    refine ends_of_body (fun _ => rfl) fun d ⟨hport, hmode, han, hfec, hpol, hmin, hmax, hpause, htags, htpid, hm, hf, ha, hp⟩ =>
      (checks_pass (one_check (portConfig_inRange hport hmode han hfec hpol hmin hmax hpause htags htpid))).trans (congrArg okay (if_pos ?_))
    simp [hm, hf, ha, hp]
  case trains =>
    refine ends_of_body (fun _ => rfl) fun d ⟨hport, hmode, han, hfec, hpol, hmin, hmax, hpause, htags, htpid, hm, hlink⟩ =>
      (checks_pass (one_check (portConfig_inRange hport hmode han hfec hpol hmin hmax hpause htags htpid))).trans
        (congrArg okay ((if_neg ?_).trans (if_neg ?_)))
    · simp [hm]
    · simp [hlink]
  case falls =>
    refine ends_of_body (fun _ => rfl) fun d ⟨hport, hmode, han, hfec, hpol, hmin, hmax, hpause, htags, htpid, hm, hlink⟩ =>
      (checks_pass (one_check (portConfig_inRange hport hmode han hfec hpol hmin hmax hpause htags htpid))).trans
        (congrArg okay ((if_neg ?_).trans (if_pos ?_)))
    · simp [hm]
    · simp [hlink]
  case addr => exact ends_of_body (fun _ => rfl) fun d ⟨hport, hbit, hm, hp⟩ => checks_pass (by simp [hport, hbit, hm, hp])
  case mcast => exact ends_of_body (fun _ => rfl) fun d ⟨hport, hne, hlen, hend⟩ => checks_pass (by simp [hport, hne, hlen, hend])
  case vlan =>
    refine ends_of_body (fun _ => rfl) fun d ⟨hport, hun, hlast, hle, htpid, htpid', hset⟩ => checks_pass ?_
    simpa [hport, hun, hlast, hle, hset] using ⟨htpid, htpid'⟩
  case adjust => exact ends_of_body (fun _ => rfl) fun d ⟨hport, hrx, htx⟩ => checks_pass (by simpa [hport] using ⟨hrx, htx⟩)
  case status => exact ends_of_body (fun _ => rfl) fun d hport => checks_pass (by simp [hport])
  case macsec =>
    refine ends_of_body (fun _ => rfl) fun d ⟨hport, hen, hconf, hsci, hclear, hrep⟩ => checks_pass ?_
    simpa [hport, hen, hconf, hsci, hclear] using hrep
  case txSa =>
    refine ends_of_body (fun _ => rfl) fun d ⟨hport, hdir, han, hinst, hsc, hkey, hroom⟩ => (checks_pass ?_).trans ?_
    · have hfree : mfind (portOf d p.port.toNat).txSas p.an.toNat = none → (portOf d p.port.toNat).txSas.length ≤ 1 := fun hnew => by
        simpa [hnew, Nat.lt_succ_iff] using hroom
      simpa [hport, hdir, han, hinst, hsc, hkey] using hfree
    · simp [hdir, hinst, hkey]
      rfl
  case rxSa =>
    refine ends_of_body (fun _ => rfl) fun d ⟨hport, hdir, han, hinst, hsc, hkey⟩ => (checks_pass ?_).trans ?_
    · simp [hport, hdir, han, hinst, hsc, hkey]
    · simp [hdir, hinst, hkey]
      rfl
  case txAn =>
    refine ends_of_body (fun _ => rfl) fun d ⟨hport, hsa⟩ => checks_pass ?_
    simp [hport, Option.isSome_iff_ne_none.mp hsa]

end Sys2Proof.Proofs.PortCompletion
end

section
/-!
Proofs of the statements of chapter 7: what publishing does by itself, and the PUB commands.
-/
namespace Sys2Proof.Proofs.PublishingCompletion

open Sys2Proof Sys2Proof.Machine Sys2Proof.Safety Sys2Proof.Laws Sys2Proof.Proofs.Generations Sys2Proof.Proofs.Completion

/-- Settles O10: each clause is the model's effect where the clause's condition decides its branches. -/
theorem publishingEventsComplete : Obligations.PublishingEventsComplete := by
  unfold Obligations.PublishingEventsComplete
  refine ⟨fun ring x l => ?part, fun ring => ?record, fun ring v => ?head, fun q => ?feeder, fun q => ?egress, fun q => ?ring, ?firmware⟩
  case part =>
    refine does_of_runLive (fun _ => rfl) (fun _ hw => hw.1) fun d ⟨_, hpart, hen, hrun, hlink, hd3⟩ => ?_
    simp only [hpart, hen, hrun, hlink, hd3, Bool.not_false, Bool.and_self, if_true]
  case record =>
    refine does_of_runLive (fun _ => rfl) (fun _ hw => hw.1) fun d ⟨_, hpart, hwrites, hrec, hgap⟩ => ?_
    simp only [hpart, hwrites, List.isEmpty_eq_false_iff.mpr hrec, hgap, Bool.not_true, Bool.or_self, Bool.false_eq_true, if_false, if_true]
  case head => exact does_of_runLive (fun _ => rfl) (fun _ hw => hw) fun _ _ => rfl
  case feeder => exact does_of_runLive (fun _ => rfl) (fun _ hw => hw.1) fun d ⟨_, hq⟩ => if_pos hq
  case egress =>
    exact does_of_runLive (fun _ => rfl) (fun _ hw => hw.1) fun d ⟨_, hlow, hhigh⟩ => (if_neg (Nat.not_lt.mpr hlow)).trans (if_pos hhigh)
  case ring =>
    refine does_of_runLive (fun _ => rfl) (fun _ hw => hw.1) fun d ⟨_, hlow, hhigh⟩ => ?_
    exact (if_neg (by omega)).trans ((if_neg (Nat.not_lt.mpr hlow)).trans (if_pos hhigh))
  case firmware =>
    refine does_of_runLive (fun _ => rfl) (fun _ hw => hw) fun d _ => ?_
    exact (if_neg (by decide)).trans ((if_neg (by decide)).trans (if_neg (by decide)))

/-- The geometry of a ring that PUB_RING takes. -/
theorem ring_inRange {p : RingP} (hr : p.ring.toNat < 32) (hen : p.enable.toNat ≤ 1) (hbase : p.base.toNat % 4096 = 0)
    (hmin : 6 ≤ p.log2.toNat) (hmax : p.log2.toNat ≤ 24) (hwb : p.wb.toNat % 4 = 0) (hwm : p.watermark ≠ 0) (hstale : p.staleT.toNat ≤ 1000000) :
    (decide (32 ≤ p.ring.toNat) || decide (1 < p.enable.toNat) || p.base.toNat % 4096 != 0 || decide (p.log2.toNat < 6) ||
      decide (24 < p.log2.toNat) || p.wb.toNat % 4 != 0 || decide (p.watermark = 0) || decide (1000000 < p.staleT.toNat)) = false := by
  simpa [hr, hen, hbase, hmin, hmax, hwb, hstale] using hwm

/-- Settles O11: the checks of each PUB command pass where its parameters and the state are as the clause says. -/
theorem publishingCommandsComplete : Obligations.PublishingCommandsComplete := by
  unfold Obligations.PublishingCommandsComplete
  refine ⟨fun h src block => ?format, fun h src block => ?template, fun h template => ?remove, fun h ostream shard kind addr len image => ?image,
    fun h p => ?ringOn, fun h p => ?ringOff, fun h type ring => ?route, fun h queue limit watermark staleT => ?queue, fun h tMax plan => ?plan,
    fun h group sec tick count addr g => ?history, fun h template => ?status, fun h p => ?key⟩
  case format =>
    exact ends_of_block (fun _ => rfl) fun d ⟨hfits, hgood, hs⟩ => (withBlock_fits hfits).trans (stageWith_ok hgood hs)
  case template =>
    refine ends_of_block (fun _ => rfl) fun d ⟨hfits, hgood, href, hs⟩ => (withBlock_fits hfits).trans (stageWith_ok ?_ hs)
    exact Bool.or_eq_false_iff.mpr ⟨hgood, href⟩
  case remove => exact ends_of_body (fun _ => rfl) fun d ⟨ht, hs⟩ => stageWith_ok (decide_eq_false (Nat.not_le.mpr ht)) hs
  case image =>
    refine ends_of_body (fun _ => rfl) fun d ⟨hos, hkind, hlen, hroom, hs⟩ => (checks_pass ?_).trans (stageWith_ok rfl hs)
    simpa [stagedShut, hs.1, hos, hkind] using ⟨hlen, hroom⟩
  case ringOn =>
    refine ends_of_body (fun _ => rfl) fun d ⟨hen, hr, hbase, hmin, hmax, hwb, hwm, hstale, hidle⟩ => ?_
    refine (if_neg (by rw [hen]; decide)).trans (checks_pass ?_)
    rw [ring_inRange hr (by rw [hen]; decide) hbase hmin hmax hwb hwm hstale]
    obtain hidle | hidle := hidle <;> simp [hidle]
  case ringOff =>
    refine ends_of_body (fun _ => rfl) fun d ⟨hen, hr, hbase, hmin, hmax, hwb, hwm, hstale⟩ => ?_
    refine (if_pos hen).trans ((checks_pass (one_check ?_)).trans ?_)
    · exact ring_inRange hr (by rw [hen]; decide) hbase hmin hmax hwb hwm hstale
    · simp only [Bool.and_eq_true]
      rfl
  case route =>
    refine ends_of_body (fun _ => rfl) fun d ⟨hlow, hhigh, hring⟩ => checks_pass ?_
    simp [hring]
    omega
  case queue =>
    refine ends_of_body (fun _ => rfl) fun d ⟨hq, hmin, hmax, hwm, hstale⟩ => checks_pass ?_
    simpa [hq, hmin, hmax, hstale] using hwm
  case plan =>
    refine ends_of_body (fun _ => rfl) fun d ⟨hpend, hplan⟩ => (checks_pass (by simp [stagedShut, hpend])).trans ?_
    simp only [hplan]
    rfl
  case history =>
    refine ends_of_body (fun _ => rfl) fun d ⟨hg, htick, hstep, hcount⟩ => ?_
    simp only [hg]
    refine (checks_pass (one_check (by simpa [htick, hstep] using hcount))).trans ?_
    refine Prod.ext (congrArg (fun l : List Bytes => hostWrite addr l.flatten d) ?_)
      (congrArg (fun l : List Nat => some (Status.ok, leBytes 4 l.sum)) ?_)
    all_goals
      refine List.map_map.trans (List.map_congr_left fun i _ => ?_)
      dsimp only [Function.comp]
      generalize mfind d.pub.hist _ = block
      cases block <;> rfl
  case status => exact ends_of_body (fun _ => rfl) fun d ht => checks_pass (by simp [ht])
  case key =>
    refine ends_of_body (fun _ => rfl) fun d ⟨hindex, hbind, hswap, hslot⟩ => (checks_pass (by simp [hindex, hbind, hswap])).trans ?_
    simp only [hslot]
    rfl

end Sys2Proof.Proofs.PublishingCompletion
end

section
/-!
Proofs of the statement of chapter 8: the estimator's slots and factorisations, and the EST commands.
-/
namespace Sys2Proof.Proofs.EstimatorCompletion

open Sys2Proof Sys2Proof.Machine Sys2Proof.Safety Sys2Proof.Laws Sys2Proof.Proofs.Generations Sys2Proof.Proofs.Completion

/-- A record of the generation whose factor is installed, or with no factor ready, installs none. -/
theorem installFactor_kept {r : Record} {d : Dev} (hother : ∀ f, d.est.ready = some f → r.summary.gen ≠ f.gen) : installFactor r d = d := by
  have hnone : (d.est.ready.filter fun f => r.summary.gen = f.gen) = none := by
    rw [Option.filter_eq_none_iff]
    simpa using hother
  unfold installFactor
  rw [hnone]

/-- The first record of the generation whose factor is ready installs it (R246). -/
theorem installFactor_ready {r : Record} {f : Factor} {d : Dev} (hready : d.est.ready = some f) (hgen : r.summary.gen = f.gen) :
    installFactor r d =
      let n := d.est.fseq + 1
      let run := { d.est.run with
        factor := some { f with seq := n }, open_ := [], refOpen := f.branches, cold := d.est.run.cold || d.est.run.factor.isNone }
      logEv 0x0B01 n.toNat f.nnz f.unobs.length { d with est := { d.est with fseq := n, run := run, ready := none } } := by
  have hsome : (d.est.ready.filter fun f => r.summary.gen = f.gen) = some f := by
    simp [hready, hgen]
  unfold installFactor
  rw [hsome]

/-- Tables 0, 1 and 2 of the estimator, by the number and by the byte that names it. -/
theorem byTable_eq {α : Type} (table : Byte) (a b c : α) :
    (match table.toNat with | 0 => a | 1 => b | _ => c) = if table = 0 then a else if table = 1 then b else c := by
  split
  case h_1 h0 => rw [if_pos (BitVec.eq_of_toNat_eq h0)]
  case h_2 h1 =>
    obtain rfl : table = 1 := BitVec.eq_of_toNat_eq h1
    rfl
  case h_3 h0 h1 => rw [if_neg fun h => h0 (congrArg BitVec.toNat h), if_neg fun h => h1 (congrArg BitVec.toNat h)]

/-- Settles O13: each clause is the model's effect where the clause's condition decides its branches. -/
theorem estimatorCommandsComplete : Obligations.EstimatorCommandsComplete := by
  unfold Obligations.EstimatorCommandsComplete
  refine ⟨fun r rest => ?slot, fun r rest f => ?install, fun r g => ?delivered, fun f => ?factored, fun f => ?prepared, fun h p => ?config,
    fun h p t => ?load, fun l rest t data => ?loaded, fun h table first count t => ?clear, fun h => ?status, fun h => ?refactor,
    fun h row => ?release, fun h row => ?row⟩
  case slot =>
    refine does_of_runEng (fun _ => rfl) (fun _ hw => hw.1) fun d ⟨_, hidle, hq, hother⟩ => ?_
    simp only [hidle, hq, installFactor_kept hother]
  case install =>
    refine does_of_runEng (fun _ => rfl) (fun _ hw => hw.1) fun d ⟨_, hidle, hq, hready, hgen⟩ => ?_
    simp only [hidle, hq, installFactor_ready hready hgen]
  case delivered =>
    refine does_of_runEng (fun _ => rfl) (fun _ hw => hw.1) fun d ⟨_, hwork, hgen⟩ => ?_
    simp only [hwork, hgen]
  case factored =>
    refine does_of_runEng (fun _ => rfl) (fun _ hw => hw.1) fun d ⟨_, hrun, hprep, hgen⟩ => ?_
    simp only [hrun, hprep, hgen, bump_clk, bne_self_eq_false, Bool.false_eq_true, if_false, apply_ite factoriserFree, Bool.and_eq_true,
      Bool.not_eq_true', decide_eq_true_eq, and_assoc]
    rfl
  case prepared =>
    refine does_of_runEng (fun _ => rfl) (fun _ hw => hw.1) fun d ⟨_, hrun, hprep, hgen⟩ => ?_
    simp only [hrun, hprep, hgen, Bool.not_true, Bool.false_eq_true, if_false, apply_ite factoriserFree]
  case config =>
    refine stages_of_stageWith (fun _ => rfl) fun d ⟨hgood, hrate, hfits⟩ => ?_
    simp [hgood, hrate, hfits]
  case load =>
    exact begins_of_body (fun _ => rfl) fun d ⟨hpend, ht, hsrc, hcount, hend, hreplay⟩ => engLoad_starts ht hpend hsrc hcount hend hreplay
  case loaded =>
    refine does_of_runLive (fun _ => rfl) (fun _ hw => hw.1) fun d ⟨_, hl, ht, hconflict, hlen, hcrc, hform⟩ => ?_
    simp only [hl]
    exact engDone_ok (d := { d with est := { d.est with loads := rest } }) ht hconflict hlen hcrc hform
  case clear =>
    refine stages_congr (fun g => ?_) (stages_of_stageWith (fun _ => rfl) fun _ ⟨ht, hcount, hend⟩ => engClear_inTable ht hcount hend)
    exact congrArg (fun m => { g with est := m }) (byTable_eq table ..)
  case status => exact ends_of_body (fun _ => rfl) fun _ _ => rfl
  case refactor =>
    refine ends_of_body (fun _ => rfl) fun d hfree => checks_pass (one_check ?_)
    rw [Option.any_eq_false]
    simpa using hfree
  case release =>
    refine ends_of_body (fun _ => rfl) fun d ⟨hrow, hin, hdis, hcause⟩ => checks_pass ?_
    simp [hrow, hin, hdis, hcause]
  case row =>
    refine ends_of_body (fun _ => rfl) fun d ⟨hrow, hdef⟩ => (checks_pass (by simp [hrow])).trans ?_
    exact if_neg (by simp [Option.isSome_iff_ne_none.mp hdef])

end Sys2Proof.Proofs.EstimatorCompletion
end

section
/-!
Proofs of the statements of chapters 9 and 10: the slots of the mode engine and of the island engine, and the OSC and ISL commands.
-/
namespace Sys2Proof.Proofs.EngineCompletion

open Sys2Proof Sys2Proof.Machine Sys2Proof.Safety Sys2Proof.Laws Sys2Proof.Proofs.Generations Sys2Proof.Proofs.Completion

/-- Settles O14: each clause is the model's effect where the clause's condition decides its branches. -/
theorem modeEngineCommandsComplete : Obligations.ModeEngineCommandsComplete := by
  unfold Obligations.ModeEngineCommandsComplete
  refine ⟨fun r rest g c => ?slot, fun r g c => ?modes, fun r g c => ?evaluation, fun r g c => ?forced, fun h src block => ?config,
    fun h p t => ?load, fun l rest t data => ?loaded, fun h table first count t => ?clear, fun h => ?status, fun h => ?restart,
    fun h slot m => ?mode, fun h slot x => ?fo⟩
  case slot =>
    refine does_of_runEng (fun _ => rfl) (fun _ hw => hw.1) fun d ⟨_, hidle, hq, hgen⟩ => ?_
    simp only [hidle, hq, hgen]
  case modes =>
    refine does_of_runEng (fun _ => rfl) (fun _ hw => hw.1) fun d ⟨_, hwork, hgen⟩ => ?_
    simp only [hwork, hgen]
  case evaluation =>
    refine does_of_runEng (fun _ => rfl) (fun _ hw => hw.1) fun d ⟨_, hwork, hgen⟩ => ?_
    simp only [hwork, hgen]
  case forced =>
    refine does_of_runEng (fun _ => rfl) (fun _ hw => hw.1) fun d ⟨_, hwork, heval, hgen⟩ => ?_
    simp only [hwork, heval, hgen]
  case config =>
    refine ends_of_block (fun _ => rfl) fun d ⟨hfits, hfield, hrule, hos, hs⟩ => (withBlock_fits hfits).trans (stageWith_ok ?_ hs)
    rw [hfield, hrule, hos]
    rfl
  case load =>
    exact begins_of_body (fun _ => rfl) fun d ⟨hpend, ht, hsrc, hcount, hend, hreplay⟩ => engLoad_starts ht hpend hsrc hcount hend hreplay
  case loaded =>
    refine does_of_runLive (fun _ => rfl) (fun _ hw => hw.1) fun d ⟨_, hl, ht, hconflict, hlen, hcrc, hform⟩ => ?_
    simp only [hl]
    exact engDone_ok (d := { d with osc := { d.osc with loads := rest } }) ht hconflict hlen hcrc hform
  case clear => exact stages_of_stageWith (fun _ => rfl) fun _ ⟨ht, hcount, hend⟩ => engClear_inTable ht hcount hend
  case status => exact ends_of_body (fun _ => rfl) fun _ _ => rfl
  case restart =>
    exact ends_of_body (fun _ => rfl) fun d hforce => checks_pass (one_check (Option.isNone_eq_false_iff.mpr hforce))
  case mode =>
    refine ends_of_body (fun _ => rfl) fun d ⟨hslot, hm⟩ => (checks_pass (by simp [hslot])).trans ?_
    simp only [hm, bne_iff_ne]
    rfl
  case fo =>
    refine ends_of_body (fun _ => rfl) fun d ⟨hslot, hx⟩ => (checks_pass (by simp [hslot])).trans ?_
    simp only [hx]
    rfl

/-- Settles O15: each clause is the model's effect where the clause's condition decides its branches. -/
theorem islandEngineCommandsComplete : Obligations.IslandEngineCommandsComplete := by
  unfold Obligations.IslandEngineCommandsComplete
  refine ⟨fun r rest g c => ?slot, fun r g c => ?topology, fun r g c => ?coherency, fun h src block => ?config, fun h p t => ?load,
    fun l rest t data => ?loaded, fun h table first count t => ?clear, fun h => ?status, fun h => ?restart, fun h slot x => ?island⟩
  case slot =>
    refine does_of_runEng (fun _ => rfl) (fun _ hw => hw.1) fun d ⟨_, htopo, hcoh, hq, hgen⟩ => ?_
    have hidle : (d.isl.topo.isNone && d.isl.coh.isNone) = true := by rw [htopo, hcoh]; rfl
    simp only [hidle, hq, hgen]
  case topology =>
    refine does_of_runEng (fun _ => rfl) (fun _ hw => hw.1) fun d ⟨_, hwork, hgen⟩ => ?_
    simp only [hwork, hgen]
  case coherency =>
    refine does_of_runEng (fun _ => rfl) (fun _ hw => hw.1) fun d ⟨_, hwork, hgen⟩ => ?_
    simp only [hwork, hgen]
  case config =>
    refine ends_of_block (fun _ => rfl) fun d ⟨hfits, hfield, hos, hs⟩ => (withBlock_fits hfits).trans (stageWith_ok ?_ hs)
    exact Bool.or_eq_false_iff.mpr ⟨hfield, hos⟩
  case load =>
    exact begins_of_body (fun _ => rfl) fun d ⟨hpend, ht, hsrc, hcount, hend, hreplay⟩ => engLoad_starts ht hpend hsrc hcount hend hreplay
  case loaded =>
    refine does_of_runLive (fun _ => rfl) (fun _ hw => hw.1) fun d ⟨_, hl, ht, hconflict, hlen, hcrc, hform⟩ => ?_
    simp only [hl]
    exact engDone_ok (d := { d with isl := { d.isl with loads := rest } }) ht hconflict hlen hcrc hform
  case clear => exact stages_of_stageWith (fun _ => rfl) fun _ ⟨ht, hcount, hend⟩ => engClear_inTable ht hcount hend
  case status => exact ends_of_body (fun _ => rfl) fun _ _ => rfl
  case restart =>
    exact ends_of_body (fun _ => rfl) fun d hforce => checks_pass (one_check (Option.isNone_eq_false_iff.mpr hforce))
  case island =>
    refine ends_of_body (fun _ => rfl) fun d ⟨hslot, hx⟩ => (checks_pass (by simp [hslot])).trans ?_
    simp only [hx]
    rfl

end Sys2Proof.Proofs.EngineCompletion
end

section
/-!
Proofs of the statement of chapter 11: launches and event pins, and the LCH commands.
-/
namespace Sys2Proof.Proofs.LaunchCompletion

open Sys2Proof Sys2Proof.Machine Sys2Proof.Safety Sys2Proof.Laws Sys2Proof.Proofs.Generations Sys2Proof.Proofs.Completion

/-- An entry in range and in form, two ticks ahead, for which there is room in its tick, reaches its action's check. -/
theorem lchWrite_files {index : W16} {b : Bytes} {d : Dev} {eff : Dev → Answer} (hi : index.toNat ≤ 16383) (hgood : lchBad b = false)
    (hahead : nowOrd d + 2 ≤ tickOrd (lchEntryOf b).sec (lchEntryOf b).tick)
    (hfree : ∀ x, mfind d.lch.entries index.toNat = some x → x.filed = false)
    (hroom : filedIn d (lchEntryOf b).sec (lchEntryOf b).tick < 256)
    (haction : (decide ((lchEntryOf b).action = 6) &&
      switchConflict (BitVec.ofNat 16 ((lchEntryOf b).par 20 2)) (lchEntryOf b).sec (lchEntryOf b).tick d) = false) :
    (if (decide (16383 < index.toNat) || lchBad b) = true then reject .badParam d
      else if tickOrd (lchEntryOf b).sec (lchEntryOf b).tick < nowOrd d + 2 then (d, some (.badParam, [1]))
      else checks [((mfind d.lch.entries index.toNat).any LchEntry.filed, .busy),
        (256 ≤ filedIn d (lchEntryOf b).sec (lchEntryOf b).tick, .noResource),
        (decide ((lchEntryOf b).action = 6) &&
          switchConflict (BitVec.ofNat 16 ((lchEntryOf b).par 20 2)) (lchEntryOf b).sec (lchEntryOf b).tick d, .generationConflict)] eff d) =
      eff d := by
  refine (if_neg (by simp [hi, hgood])).trans ((if_neg (Nat.not_lt.mpr hahead)).trans (checks_pass ?_))
  have hany : (mfind d.lch.entries index.toNat).any LchEntry.filed = false := by
    rw [Option.any_eq_false]
    simpa using hfree
  simp [hany, hroom, haction]

/-- How a frame that waited ends, by what the port did with it. -/
def heldSent (y : LchHeld) (r : Dev × Option Nat) : Dev :=
  match r.2 with
  | some c => endHeld y .failed c r.1
  | none => endHeld y (if y.late then .lateDone else .delayed) 0 r.1

/-- Settles O16: each clause is the model's effect where the clause's condition decides its branches. -/
theorem launchCommandsComplete : Obligations.LaunchCommandsComplete := by
  unfold Obligations.LaunchCommandsComplete
  refine ⟨fun entry e => ?launch, fun port y => ?held, fun pin t => ?pulse, fun pin rise => ?edge, fun path => ?done, fun path pin => ?queue,
    fun h index entry => ?write, fun h index entry => ?writeSwitch, fun h index e => ?cancel, fun h index => ?status,
    fun h buffer len addr data => ?frame, fun h p => ?pin⟩
  case launch =>
    refine does_of_runLive (fun _ => rfl) (fun _ hw => hw.1) fun d ⟨_, he, hdue⟩ => ?_
    simp only [he, hdue, if_true]
  case held =>
    refine does_of_runLive (fun _ => rfl) (fun _ hw => hw.1) fun d ⟨_, hy, hgoes⟩ => ?_
    simp only [hy]
    refine (if_neg ?_).trans ?_
    · obtain hdown | ⟨hpause, hres⟩ := hgoes
      · simp [hdown]
      · simp [hpause, hres]
    · show heldSent y (launchSend port y.frame _) = heldSent y (launchSend port y.frame (heldFrameTaken port d))
      refine congrArg (fun x => heldSent y (launchSend port y.frame x)) ?_
      simp only [heldFrameTaken, Bool.and_eq_true, decide_eq_true_eq]
  case pulse =>
    refine does_of_runLive (fun _ => rfl) (fun _ hw => hw.1) fun d ⟨_, hend⟩ => ?_
    simp only [hend]
  case edge =>
    refine does_of_runLive (fun _ => rfl) (fun _ hw => hw.1) fun d ⟨_, hmode, hedge, hroom⟩ => ?_
    refine (if_neg (by simp [hmode])).trans ?_
    simp only [hedge, hroom, Bool.not_true, Bool.false_eq_true, if_false, if_true, Bool.and_eq_true]
  case done =>
    refine does_of_runLive (fun _ => rfl) (fun _ hw => hw.1) fun d ⟨_, hpath⟩ => if_neg (by simp [hpath])
  case queue =>
    refine does_of_runLive (fun _ => rfl) (fun _ hw => hw.1) fun d ⟨_, hpath⟩ => if_neg (by simp [hpath])
  case write =>
    refine ends_of_body (fun _ => rfl) fun d ⟨hi, hgood, hahead, hfree, hroom, haction⟩ =>
      (lchWrite_files hi hgood hahead hfree hroom ?_).trans (congrArg okay (if_neg haction))
    simp [haction]
  case writeSwitch =>
    refine ends_of_body (fun _ => rfl) fun d ⟨hi, hgood, hahead, hfree, hroom, haction, hconf⟩ =>
      (lchWrite_files hi hgood hahead hfree hroom ?_).trans (congrArg okay (if_pos haction))
    rw [hconf, Bool.and_false]
  case cancel =>
    refine ends_of_body (fun _ => rfl) fun d ⟨hi, he, haction, hpend⟩ => (checks_pass (by simp [hi])).trans ?_
    simp only [he, haction, hpend, if_false]
    rfl
  case status => exact ends_of_body (fun _ => rfl) fun d hi => checks_pass (by simp [hi])
  case frame =>
    refine ends_of_body (fun _ => rfl) fun d ⟨hbuf, hmin, hmax, hfree⟩ => checks_pass ?_
    have hused : (d.lch.entries.any fun e => decide (e.2.status = .armed) && e.2.action == 1 && e.2.par 21 2 == buffer.toNat) = false := by
      rw [List.any_eq_false]
      intro e he
      simpa [and_assoc] using hfree e he
    simp only [hused]
    simp [hbuf, hmin, hmax]
  case pin =>
    refine ends_of_body (fun _ => rfl) fun d ⟨hpin, hmode, hdrive, hactive, hedges, hin⟩ => checks_pass (one_check ?_)
    simpa [hpin, hmode, hdrive, hactive, hedges] using hin

end Sys2Proof.Proofs.LaunchCompletion
end

section
/-!
Proofs of the statement of chapter 12: triggers and ends of captures, and the CAP commands.
-/
namespace Sys2Proof.Proofs.CaptureCompletion

open Sys2Proof Sys2Proof.Machine Sys2Proof.Safety Sys2Proof.Laws Sys2Proof.Proofs.Generations Sys2Proof.Proofs.Completion

/-- Settles O17: each clause is the model's effect where the clause's condition decides its branches. -/
theorem captureCommandsComplete : Obligations.CaptureCommandsComplete := by
  unfold Obligations.CaptureCommandsComplete
  refine ⟨fun w rest => ?trigger, fun session => ?ends, fun v => ?select, fun h session addr desc list readOk => ?remove,
    fun h session addr desc list => ?define, fun h session mask addr desc => ?mask, fun h first values => ?skew, fun h session => ?arm,
    fun h session => ?stopArmed, fun h session => ?stopCapture, fun h session given sec ns => ?manual,
    fun h session lane first count addr => ?read, fun h session c => ?release, fun h session => ?status⟩
  case trigger =>
    refine does_of_runCore (fun _ => rfl) (fun _ hw => hw.1) fun d ⟨_, hq, harmed⟩ => ?_
    simp only [hq]
    refine if_neg (show ¬(decide (w.kind = 4) && !decide ((sessOf d w.session).state = .armed)) = true from ?_)
    simpa using harmed
  case ends =>
    refine does_of_runCore (fun _ => rfl) (fun _ hw => hw.1) fun d ⟨_, hstate, hdone⟩ => if_pos ?_
    simp [hstate, hdone]
  case select => exact does_of_runLive (fun _ => rfl) (fun _ hw => hw) fun _ _ => rfl
  case remove =>
    refine ends_of_body (fun _ => rfl) fun d ⟨hs, hfree⟩ => (if_pos rfl).trans (checks_pass ?_)
    simp [hs, hfree]
  case define =>
    dsimp only
    refine ends_of_body (fun _ => rfl) fun d ⟨hs, hfree, hgood, hroom⟩ => (if_neg (by decide)).trans (checks_pass ?_)
    simpa [hs, hfree, hgood] using hroom
  case mask =>
    refine ends_of_body (fun _ => rfl) fun d ⟨hs, hmask, hfree, hgood⟩ => checks_pass ?_
    simp [hs, hmask, hfree, hgood]
  case skew =>
    refine ends_of_body (fun _ => rfl) fun d ⟨hne, hlen, hend, hrange⟩ => checks_pass (one_check ?_)
    simpa [hne, hlen, hend] using hrange
  case arm =>
    refine ends_of_body (fun _ => rfl) fun d ⟨hs, hstate⟩ => checks_pass ?_
    simp [hs, hstate]
  case stopArmed =>
    refine ends_of_body (fun _ => rfl) fun d ⟨hs, hstate⟩ => (if_neg (Nat.not_lt.mpr hs)).trans ?_
    simp only [hstate]
    rfl
  case stopCapture =>
    refine ends_of_body (fun _ => rfl) fun d ⟨hs, hstate, hdone⟩ => (if_neg (Nat.not_lt.mpr hs)).trans ?_
    simp only [hstate, hdone]
    rfl
  case manual =>
    dsimp only
    refine ends_of_body (fun _ => rfl) fun d ⟨hs, hgiven, hns, hpast, hnear⟩ => checks_pass (one_check ?_)
    have hin : (decide (given = 1) && decide (secNs ≤ ns.toNat)) = false := by
      rw [Bool.and_eq_false_iff, decide_eq_false_iff_not, decide_eq_false_iff_not, ← imp_iff_not_or]
      exact fun hg => Nat.not_le.mpr (hns hg)
    rw [hin]
    simpa [hs, hgiven] using ⟨hpast, hnear⟩
  case read =>
    refine ends_of_body (fun _ => rfl) fun d ⟨hs, hlane, hlanes, hstate, hend⟩ => checks_pass (one_check ?_)
    simpa [hs, hlanes, hstate, hend] using hlane
  case release =>
    refine ends_of_body (fun _ => rfl) fun d ⟨hs, hstate, hdef, hhold⟩ => checks_pass ?_
    simp [hs, hstate, hdef, hhold]
  case status => exact ends_of_body (fun _ => rfl) fun d hs => checks_pass (by simp [hs])

end Sys2Proof.Proofs.CaptureCompletion
end

section
/-!
Proofs of the two statements of chapter 13: the local front end with the LMF commands, and the converters with the AUX commands.
-/
namespace Sys2Proof.Proofs.FrontEndCompletion

open Sys2Proof Sys2Proof.Machine Sys2Proof.Safety Sys2Proof.Laws Sys2Proof.Proofs.Generations Sys2Proof.Proofs.Completion

/-- Settles O18: each clause is the model's effect where the clause's condition decides its branches. -/
theorem localFrontEndCommandsComplete : Obligations.LocalFrontEndCommandsComplete := by
  unfold Obligations.LocalFrontEndCommandsComplete
  refine ⟨fun samples => ?sample, fun chan level => ?fault, fun chan => ?clear, fun chan => ?settled, fun circuit q r t => ?report,
    fun h p => ?clock, fun h p => ?chan, fun h p => ?pmu, fun h circuit => ?status⟩
  case sample =>
    dsimp only
    refine does_of_runEng (fun _ => rfl) (fun _ hw => hw.1) fun d ⟨_, hon⟩ => ?_
    simp only [Option.isNone_iff_eq_none]
    exact if_neg (by simpa only [List.isEmpty_iff] using hon)
  case fault =>
    refine does_of_runEng (fun _ => rfl) (fun _ hw => hw.1) fun d ⟨_, hon, hfault⟩ => if_neg ?_
    simp [hon, hfault]
  case clear => exact does_of_runEng (fun _ => rfl) (fun _ hw => hw.1) fun d ⟨_, hfault⟩ => if_pos hfault
  case settled => exact does_of_runEng (fun _ => rfl) (fun _ hw => hw.1) fun d ⟨_, hsettling⟩ => if_pos hsettling
  case report =>
    refine does_of_runEng (fun _ => rfl) (fun _ hw => hw.1) fun d ⟨_, hq, hdue⟩ => ?_
    have hbind : d.lmf.sample.bind (pmuDue d circuit) = some (r, t) := by rw [hq, Option.bind_some, hdue]
    simp only [hbind]
  case clock =>
    dsimp only
    refine ends_of_body (fun _ => rfl) fun d ⟨hlow, hhigh⟩ => checks_pass (one_check ?_)
    simp [hlow, hhigh]
  case chan =>
    refine ends_of_body (fun _ => rfl) fun d ⟨hc, hen, hr, hmed, hlow, hhigh, hfin, hpos, hfits⟩ => checks_pass (one_check ?_)
    rw [hpos]
    simpa [hc, hen, hmed, hlow, hhigh, hfin, hfits, or_iff_not_imp_left] using hr
  case pmu =>
    dsimp only
    refine ends_of_body (fun _ => rfl) fun d ⟨hc, hen, hrate, hcls, hnom, hstream, hm⟩ => checks_pass (one_check ?_)
    simpa [hc, hen, hrate, hcls, hstream, or_iff_not_imp_left] using ⟨or_iff_not_imp_left.mp hnom, hm⟩
  case status =>
    dsimp only
    exact ends_of_body (fun _ => rfl) fun d hc => checks_pass (one_check (by simpa using hc))

/-- A time that only passes leaves every lane. -/
theorem auxLaneOf_waitUntil (d : Dev) (op l : Nat) : auxLaneOf (waitUntil d op) l = auxLaneOf d l := by
  simp only [auxLaneOf, waitUntil_aux]

section
variable {l i : Nat} {raw : Int} {e : AuxEntry} {d : Dev}

/-- A regular conversion delivers its entry's result, and the lane goes to the next entry. -/
theorem auxConverted_regular (hwork : (auxLaneOf d l).work = .regular i) (he : (auxLaneOf d l).entries[i]? = some e) :
    auxConverted l raw d =
      let y := auxDeliver l e false raw d
      auxLaneNext l (auxSetLane l { auxLaneOf y l with next := (i + 1) % (auxLaneOf d l).entries.length, gaveOp := some (opNs y) } y) := by
  unfold auxConverted
  simp only [hwork, he]

/-- An injected conversion delivers its entry's result, and the lane goes on to the next injected entry, if there is one. -/
theorem auxConverted_injected (hwork : (auxLaneOf d l).work = .injected i) (he : (auxLaneOf d l).injected[i]? = some e) :
    auxConverted l raw d =
      let y := auxDeliver l e true raw d
      if i + 1 < (auxLaneOf d l).injected.length then auxBegin l (.injected (i + 1)) y else auxLaneNext l (bump y 0x0F 1) := by
  unfold auxConverted
  simp only [hwork, he]

end

/-- Settles O19: each clause is the model's effect where the clause's condition decides its branches. -/
theorem converterCommandsComplete : Obligations.ConverterCommandsComplete := by
  unfold Obligations.ConverterCommandsComplete
  refine ⟨fun lane raw i e => ?regular, fun lane raw i e => ?injected, fun v => ?injWrite, fun lane coefs => ?calDone, ?takeover,
    fun coefs => ?spareGood, fun coefs f => ?spareBad, fun buffer v => ?bufRd, fun h lane odr run => ?lane, fun h lane entries => ?seq,
    fun h lane trigger entries => ?inj, fun h buffer first len watermark => ?buffer, fun h p => ?period, fun h lane => ?cal,
    fun h lane => ?status⟩
  case regular =>
    dsimp only
    refine does_of_runEng (fun _ => rfl) (fun _ hw => hw.1) fun d ⟨_, hrun, hwork, he⟩ => (if_pos (by simp [hrun, hwork])).trans ?_
    rw [auxConverted_regular (i := i) (e := e) (by rwa [auxLaneOf_waitUntil]) (by rwa [auxLaneOf_waitUntil])]
    simp only [auxLaneOf_waitUntil]
  case injected =>
    dsimp only
    refine does_of_runEng (fun _ => rfl) (fun _ hw => hw.1) fun d ⟨_, hrun, hwork, he⟩ => (if_pos (by simp [hrun, hwork])).trans ?_
    rw [auxConverted_injected (i := i) (e := e) (by rwa [auxLaneOf_waitUntil]) (by rwa [auxLaneOf_waitUntil])]
    simp only [auxLaneOf_waitUntil]
  case injWrite => exact does_of_runEng (fun _ => rfl) (fun _ hw => hw) fun _ _ => rfl
  case calDone =>
    dsimp only
    refine does_of_runEng (fun _ => rfl) (fun _ hw => hw.1) fun d ⟨_, hrun, hwork⟩ => (if_pos ?_).trans ?_
    · simp [hrun, hwork]
    · simp only [auxSliceOf, waitUntil_aux]
  case takeover =>
    refine does_of_runEng (fun _ => rfl) (fun _ hw => hw.1) fun d ⟨_, hperiod, hspare⟩ => ?_
    have hgo : ¬(decide (d.aux.calPeriod = 0) || decide (9 ≤ d.aux.spare)) = true := by simp [hperiod, hspare]
    rw [if_neg hgo]
  case spareGood =>
    exact does_of_runEng (fun _ => rfl) (fun _ hw => hw.1) fun d ⟨_, hspare⟩ => if_neg (Nat.not_le.mpr hspare)
  case spareBad =>
    exact does_of_runEng (fun _ => rfl) (fun _ hw => hw.1) fun d ⟨_, hspare⟩ => if_neg (Nat.not_le.mpr hspare)
  case bufRd => exact does_of_runLive (fun _ => rfl) (fun _ hw => hw) fun _ _ => rfl
  case lane =>
    dsimp only
    refine ends_of_body (fun _ => rfl) fun d ⟨hl, hodr, hrun⟩ => checks_pass (one_check ?_)
    simpa [hl, hrun, or_iff_not_imp_left] using hodr
  case seq =>
    dsimp only
    refine ends_of_body (fun _ => rfl) fun d ⟨hl, hne, hlen, hgood, hrun⟩ => checks_pass ?_
    simpa [hl, hne, hlen, hrun] using hgood
  case inj =>
    dsimp only
    refine ends_of_body (fun _ => rfl) fun d ⟨hl, hlen, htrig, hgood, hrun⟩ => checks_pass ?_
    simpa [hl, hlen, hrun, or_iff_not_imp_left] using ⟨or_iff_not_imp_left.mp htrig, hgood⟩
  case buffer =>
    dsimp only
    refine ends_of_body (fun _ => rfl) fun d ⟨hb, hlow, hhigh, hend, hclash, hused⟩ => checks_pass ?_
    have hapart : (d.aux.bufs.any fun e => e.1 != buffer.toNat && first.toNat < e.2.first + e.2.len &&
        e.2.first < first.toNat + len.toNat) = false := by
      rw [List.any_eq_false]
      intro e he
      simpa [or_iff_not_imp_left] using hclash e he
    have hidle : (d.aux.lanes.any fun e => e.2.run && (e.2.entries ++ e.2.injected).any fun y => y.buffer == buffer.toNat) = false := by
      rw [List.any_eq_false]
      intro e he
      simpa [or_imp, forall_and] using hused e he
    rw [hapart, hidle]
    simp [hb, hlow, hhigh, hend]
  case period =>
    refine ends_of_body (fun _ => rfl) fun d hp => checks_pass ?_
    simpa using hp
  case cal =>
    dsimp only
    refine ends_of_body (fun _ => rfl) fun d ⟨hl, hrun⟩ => checks_pass ?_
    have hne : lane ≠ 0xFF := by rintro rfl; exact absurd hl (by decide)
    rw [decide_eq_false hne]
    simp [hl, hrun]
  case status =>
    dsimp only
    refine ends_of_body (fun _ => rfl) fun d hl => (checks_pass (one_check (by simpa using hl))).trans ?_
    simp only [Bool.not_eq_true']
    rfl

end Sys2Proof.Proofs.FrontEndCompletion
end

section
/-!
Proofs of the statement of chapter 14: interval ends, pulses and saves, and the MTR commands.
-/
namespace Sys2Proof.Proofs.MeteringCompletion

open Sys2Proof Sys2Proof.Machine Sys2Proof.Safety Sys2Proof.Laws Sys2Proof.Proofs.Generations Sys2Proof.Proofs.Completion

/-- An interval without new marks. -/
theorem mark_nil (v : MtrInterval) : v.mark [] = v := rfl

/-- The end of an interval at a boundary that the counter has been brought to. -/
theorem endAtBoundary_bringTo (c b ns : Nat) (d : Dev) :
    endAtBoundary c b [] (bringTo d ns) =
      let e := bringTo d ns
      let s := max b ((lastBoundary (circOf d c).demand (leapTable e) e.tod.sec.toNat).getD b)
      closeIv c (stampOfNs (b * secNs)) [] (some (openIv e (s * secNs))) e := by
  have hcirc : circOf (bringTo d ns) c = circOf d c := by simp only [circOf, bringTo_mtr]
  unfold endAtBoundary
  simp only [hcirc, mark_nil]

/-- Settles O20: each clause is the model's effect where the clause's condition decides its branches. -/
theorem meteringCommandsComplete : Obligations.MeteringCommandsComplete := by
  unfold Obligations.MeteringCommandsComplete
  refine ⟨fun circuit v b => ?boundary, fun circuit v stop rest => ?record, fun output => ?pulseStart, fun output => ?pulseEnd, ?savePeriodic,
    ?saveDone, fun t => ?testDone, fun h p => ?config, fun h mask mode len utcAlign => ?demand, fun h p => ?pulse, fun h period => ?saveParams,
    fun h => ?saveNow, fun h circuit => ?status, fun h circuit => ?test, fun h mask => ?clear⟩
  case boundary =>
    dsimp only
    refine does_of_runEng (fun _ => rfl) (fun _ hw => hw.1) fun d ⟨_, hopen, hon, hlaunch, hgap, hb⟩ => ?_
    have hperiodic : periodic d circuit = true := by
      unfold periodic
      simpa [hon, hlaunch, Decidable.imp_iff_not_or] using hgap
    simp only [hopen, hperiodic, Bool.not_true, Bool.false_eq_true, if_false, hb]
    exact endAtBoundary_bringTo ..
  case record =>
    dsimp only
    refine does_of_runEng (fun _ => rfl) (fun _ hw => hw.1) fun d ⟨_, hclosing, hformed⟩ => ?_
    simp only [hclosing, hformed, Bool.not_true, Bool.false_eq_true, if_false]
  case pulseStart =>
    dsimp only
    refine does_of_runEng (fun _ => rfl) (fun _ hw => hw.1) fun d ⟨_, hon, howed, hidle, hfrozen⟩ => if_pos ?_
    simp [hon, howed, hidle, hfrozen]
  case pulseEnd =>
    dsimp only
    refine does_of_runEng (fun _ => rfl) (fun _ hw => hw.1) fun d ⟨_, hactive, hfrozen⟩ => if_pos ?_
    simp [hactive, hfrozen]
  case savePeriodic =>
    refine does_of_runEng (fun _ => rfl) (fun _ hw => hw.1) fun d ⟨_, hsaving, hpfw, hseq, hfw⟩ => if_neg ?_
    simp [hsaving, hpfw, hseq, hfw]
  case saveDone => exact does_of_runLive (fun _ => rfl) (fun _ hw => hw) fun _ _ => rfl
  case testDone =>
    refine does_of_runEng (fun _ => rfl) (fun _ hw => hw.1) fun d ⟨_, ht⟩ => ?_
    simp only [ht]
  case config =>
    refine ends_of_body (fun _ => rfl) fun d ⟨hc, hen, hconn, hnom, hi, hu, hfin, hpos, hcreep⟩ => checks_pass (one_check ?_)
    rw [hi, hu, hpos, hcreep]
    simpa [hc, hen, hconn, hfin] using or_iff_not_imp_left.mp hnom
  case demand =>
    refine ends_of_body (fun _ => rfl) fun d ⟨hmode, hlen, halign⟩ => checks_pass (one_check ?_)
    simpa [hmode, halign, or_iff_not_imp_left] using hlen
  case pulse =>
    refine ends_of_body (fun _ => rfl) fun d ⟨hout, hc, hreg, hkp, hwidth, hmax, hdrive, hactive, hen⟩ => checks_pass (one_check ?_)
    simpa [hout, hc, hreg, hmax, hdrive, hactive, hen] using ⟨hkp, hwidth⟩
  case saveParams =>
    refine ends_of_body (fun _ => rfl) fun d ⟨hne, hmax⟩ => checks_pass (one_check ?_)
    simpa [hmax] using hne
  case saveNow => exact ends_of_body (fun _ => rfl) fun d hsaving => checks_pass (one_check (by rw [hsaving]; rfl))
  case status =>
    exact ends_of_body (fun _ => rfl) fun d hc => checks_pass (one_check (by simpa using hc))
  case test =>
    refine begins_of_body (fun _ => rfl) fun d ⟨hc, htest, hon⟩ => checks_pass ?_
    simp [hc, htest, hon]
  case clear => exact ends_of_body (fun _ => rfl) fun d hpresence => checks_pass (one_check (by rw [hpresence]; rfl))

end Sys2Proof.Proofs.MeteringCompletion
end

section
/-!
Proofs of two statements of chapter 16: the loader's image store, and the accesses to the command queues and mailboxes.
-/
namespace Sys2Proof.Proofs.CommandPathCompletion

open Sys2Proof Sys2Proof.Machine Sys2Proof.Safety Sys2Proof.Laws Sys2Proof.Proofs.Generations Sys2Proof.Proofs.Completion

/-- Settles O22: each clause is the model's effect where the clause's condition decides its branches. -/
theorem imageStoreCommandsComplete : Obligations.ImageStoreCommandsComplete := by
  unfold Obligations.ImageStoreCommandsComplete
  refine ⟨fun h kind addr header readOk s => ?begins, fun h offset len kind addr data readOk => ?write, fun h => ?finish, fun h => ?status⟩
  case begins =>
    intro p d b x hp ⟨hbusy, hkind, hread, hhdr, hsvn, hschema, hfawn⟩
    by_cases hsig : x.sigOk = true
    · rw [if_pos hsig]
      refine cmd_ends hp (checks_pass ?_)
      simpa [d, p, b, x, hbusy, hkind, hhdr, hsig, hsvn, hschema, hfawn] using hread
    · rw [if_neg hsig]
      refine cmd_ends hp (TimeReference.checks_fail (c := (true, .authFail)) ?_)
      simpa [d, p, b, x, hbusy, hkind, hhdr, hsig, Decidable.imp_iff_not_or] using hread
  case write =>
    dsimp only
    refine ends_of_body (fun _ => rfl) fun d ⟨hbusy, hopen, hkind, hoff, hlow, hhigh, hlen, hend, hsmall, hread⟩ => checks_pass ?_
    simpa [hbusy, hopen, hkind, hoff, hlow, hhigh, hlen, hend] using ⟨hsmall, hread⟩
  case finish =>
    refine ends_of_body (fun _ => rfl) fun d ⟨hbusy, hopen, hhash⟩ => checks_pass ?_
    simp [hbusy, hopen, hhash]
  case status => exact ends_of_body (fun _ => rfl) fun _ _ => rfl

/-- A mailbox that the path reaches takes the access. -/
theorem mbxAccess_reached {path : Path} {m : Nat} {f : Dev → Dev} {d : Dev} (hopen : pathOpen d path = true) (hreach : mbxReach path m = true) :
    mbxAccess path m f d = f d := by
  simp [mbxAccess, hopen, hreach]

/-- Settles O23: each clause is the model's effect where the clause's condition decides its branches. -/
theorem queueAndMailboxEventsComplete : Obligations.QueueAndMailboxEventsComplete := by
  unfold Obligations.QueueAndMailboxEventsComplete
  refine ⟨fun pair v => ?tail, fun pair v => ?head, fun pair v => ?enable, fun pair v => ?disable, fun pair packet => ?fetch,
    fun path mbx word v => ?data, fun path mbx => ?post, fun path mbx => ?take, fun mbx => ?taken, fun mbx b rest => ?reply,
    fun mbx => ?stall⟩
  case tail => exact does_of_runLive (fun _ => rfl) (fun _ hw => hw) fun _ _ => rfl
  case head => exact does_of_runLive (fun _ => rfl) (fun _ hw => hw) fun _ _ => rfl
  case enable => exact does_of_runLive (fun _ => rfl) (fun _ hw => hw) fun _ _ => rfl
  case disable => exact does_of_runLive (fun _ => rfl) (fun _ hw => hw) fun _ _ => rfl
  case fetch =>
    dsimp only
    refine does_of_runLive (fun _ => rfl) (fun _ hw => hw.1) fun d ⟨_, hen, hstop, hmore, hroom, hlink, hhot, hstall⟩ => (if_neg ?_).trans ?_
    · simp [hen, hstop, hmore, hroom, hlink, hhot, hstall]
    · by_cases hbad : (pairOf d pair).seqFixed = true ∧ packetSeq packet ≠ (pairOf d pair).seqNext
      · simp only [Bool.and_eq_true, bne_iff_ne, if_pos hbad]
      · simp only [Bool.and_eq_true, bne_iff_ne, if_neg hbad]
  case data =>
    dsimp only
    refine does_of_run (fun _ => rfl) fun d ⟨hopen, hreach, hin, hfull⟩ => (mbxAccess_reached hopen hreach).trans (if_neg ?_)
    simp [hin, hfull]
  case post =>
    dsimp only
    refine does_of_run (fun _ => rfl) fun d ⟨hopen, hreach, hin, hfull⟩ =>
      (mbxAccess_reached hopen hreach).trans ((if_neg ?_).trans (if_neg ?_))
    · simp [hin]
    · simp [hfull]
  case take =>
    dsimp only
    refine does_of_run (fun _ => rfl) fun d ⟨hopen, hreach, hin, hfull⟩ => (mbxAccess_reached hopen hreach).trans (if_neg ?_)
    simp [hin, hfull]
  case taken =>
    dsimp only
    refine does_of_runLive (fun _ => rfl) (fun _ hw => hw.1) fun d ⟨_, hin, hfull, htaken, hreplies, hserved⟩ => if_neg ?_
    simp [hin, hfull, htaken, hreplies, hserved]
  case reply =>
    dsimp only
    refine does_of_runLive (fun _ => rfl) (fun _ hw => hw.1) fun d ⟨_, hin, hreplies, hfull, hruns⟩ => ?_
    simp only [hreplies]
    refine if_neg ?_
    simp [hin, hfull, hruns]
  case stall =>
    dsimp only
    refine does_of_runLive (fun _ => rfl) (fun _ hw => hw.1) fun d ⟨_, hfull, hstalled⟩ => if_neg ?_
    simp [hfull, hstalled]

end Sys2Proof.Proofs.CommandPathCompletion
end

section
/-!
The end of a command leaves the due restart of the firmware alone (R437, R452): it is needed where SYS_FW_RESTART ends and restarts.
-/
namespace Sys2Proof.Proofs.RestartDue

open Sys2Proof Sys2Proof.Machine Sys2Proof.Safety Sys2Proof.Laws Sys2Proof.Proofs.KeysAndTamper

/-! ### Records and notices write nothing of the command interface -/

section
variable (d : Dev)

@[simp] theorem tally_cmd (kind inst n arg : Nat) : (tally kind inst n arg d).cmd = d.cmd := by
  unfold tally
  dsimp only
  split
  · split <;> rfl
  · rfl

@[simp] theorem setFlag_pub_cmd (i : Nat) : (setFlag 0x0A i d).cmd = d.cmd := rfl

@[simp] theorem ringDrop_cmd (r type : Nat) : (ringDrop r type d).cmd = d.cmd := by simp [ringDrop]

@[simp] theorem capFree_cmd (n : Nat) : (capFree n d).cmd = d.cmd := by
  unfold capFree
  dsimp only
  split <;> rfl

@[simp] theorem capLost_cmd (head : Bytes) : (capLost head d).cmd = d.cmd := by
  unfold capLost
  dsimp only
  split
  · split <;> simp
  · rfl

@[simp] theorem capDone_cmd (head : Bytes) : (capDone head d).cmd = d.cmd := by
  unfold capDone
  dsimp only
  split
  · split <;> simp
  · rfl

@[simp] theorem recDropped_cmd (x : HostRec) : (recDropped x d).cmd = d.cmd := by
  unfold recDropped
  split <;> simp

@[simp] theorem queueGrew_cmd (q depth : Nat) : (queueGrew q depth d).cmd = d.cmd := by
  unfold queueGrew
  dsimp only
  split <;> split <;> rfl

@[simp] theorem feed_cmd (r : Nat) (x : HostRec) : (feed r x d).cmd = d.cmd := by
  unfold feed
  dsimp only
  split
  · split
    · simp
    · rw [recDropped_cmd, ringDrop_cmd]
      split <;> rfl
  · split <;> simp

@[simp] theorem postRecord_cmd (type : Nat) (head : Bytes) (more : List Bytes) : (postRecord type head more d).cmd = d.cmd := feed_cmd d _ _

@[simp] theorem bufferRec_cmd (x : LogRec) : (bufferRec x d).cmd = d.cmd := by
  unfold bufferRec
  dsimp only
  split
  · rfl
  · split <;> rfl

@[simp] theorem logFull_cmd (src code : Nat) (sev : Sev) (p1 p2 p3 : Nat) (summary : Bool) :
    (logFull src code sev p1 p2 p3 summary d).cmd = d.cmd := by
  unfold logFull
  dsimp only
  split <;> split <;> simp

@[simp] theorem logEv_cmd (code p1 p2 p3 : Nat) : (logEv code p1 p2 p3 d).cmd = d.cmd := logFull_cmd d ..

@[simp] theorem hostWrite_cmd (a : W64) (b : Bytes) : (hostWrite a b d).cmd = d.cmd := by
  unfold hostWrite
  split <;> rfl

@[simp] theorem sendMsix_cmd (b : Bool) (v : Nat) : (sendMsix b v d).cmd = d.cmd := by
  obtain ⟨p, h⟩ | h | h := sendMsix_cases b v d <;> simp [h]

@[simp] theorem digestStep_cmd (h : Hdr) (op : Nat) (params : Bytes) (st : Status) : (digestStep h op params st d).cmd = d.cmd := by
  unfold digestStep
  split <;> rfl

/-! ### Starting and ending a command keep the due restart -/

/-- The due restart of the firmware. -/
def restartDue (d : Dev) : Bool := d.cmd.restartDue

/-- What leaves the command interface alone leaves the due restart alone. -/
theorem restartDue_of_cmd {d e : Dev} (h : e.cmd = d.cmd) : restartDue e = restartDue d := congrArg Cmd.restartDue h

@[simp] theorem restartDue_setPair (q : Nat) (x : QPair) : restartDue (setPair d q x) = restartDue d := rfl

@[simp] theorem restartDue_bump (b i : Nat) : restartDue (bump d b i) = restartDue d := rfl

@[simp] theorem restartDue_hostWrite (a : W64) (b : Bytes) : restartDue (hostWrite a b d) = restartDue d := restartDue_of_cmd (hostWrite_cmd d a b)

@[simp] theorem restartDue_sendMsix (b : Bool) (v : Nat) : restartDue (sendMsix b v d) = restartDue d := restartDue_of_cmd (sendMsix_cmd d b v)

@[simp] theorem restartDue_logEv (code p1 p2 p3 : Nat) : restartDue (logEv code p1 p2 p3 d) = restartDue d :=
  restartDue_of_cmd (logEv_cmd d ..)

@[simp] theorem restartDue_digestStep (h : Hdr) (op : Nat) (params : Bytes) (st : Status) :
    restartDue (digestStep h op params st d) = restartDue d := restartDue_of_cmd (digestStep_cmd d ..)

@[simp] theorem restartDue_cqWrite (n : Nat) (e : Bytes) : restartDue (cqWrite n d e) = restartDue d := by
  simp [cqWrite]

@[simp] theorem restartDue_queueReply (n : Nat) (l : List Bytes) : restartDue (queueReply n l d) = restartDue d := by
  unfold queueReply
  dsimp only
  split <;> simp [foldl_keeps restartDue fun d e => restartDue_cqWrite d n e]

@[simp] theorem restartDue_sendReply (h : Hdr) (op st : Nat) (order : W32) (reply : Bytes) :
    restartDue (sendReply h op st order reply d) = restartDue d := by
  unfold sendReply
  dsimp only
  split
  · simp
  · split
    · rfl
    · split <;> rfl

@[simp] theorem restartDue_replayStep (st : Status) : restartDue (replayStep st d) = restartDue d := by
  unfold replayStep
  dsimp only
  split
  · rfl
  · exact restartDue_logEv ..

@[simp] theorem restartDue_finishOne (h : Hdr) (op : Nat) (params : Bytes) (st : Status) (reply : Bytes) :
    restartDue (finishOne h op params st reply d) = restartDue d := by
  unfold finishOne
  dsimp only
  split <;> split <;> split <;> simp <;> rfl

@[simp] theorem restartDue_endAborts (chan : Nat) (seq : W32) : restartDue (endAborts chan seq d) = restartDue d := by
  refine foldl_keeps restartDue (fun d w => ?_) _ _
  split <;> simp

@[simp] theorem restartDue_takePacket (h : Hdr) : restartDue (takePacket h d) = restartDue d := by
  unfold takePacket
  split
  · rfl
  · split <;> rfl

@[simp] theorem restartDue_startCmd (h : Hdr) (op : Nat) (params : Bytes) : restartDue (startCmd h op params d) = restartDue d := rfl

@[simp] theorem restartDue_refuseUndefined (n : Nat) : restartDue (refuseUndefined n d) = restartDue d := by
  induction n generalizing d with
  | zero => rfl
  | succ n ih =>
    unfold refuseUndefined
    split
    · rfl
    · dsimp only
      rw [ih]
      split
      · simp
      · split
        · simp
        · split <;> simp

/-- The end of a command keeps the due restart. -/
theorem restartDue_finish (h : Hdr) (op : Nat) (params : Bytes) (st : Status) (reply : Bytes) :
    restartDue (finish h op params st reply d) = restartDue d := by
  simp [finish, refuseWaiting]

end

end Sys2Proof.Proofs.RestartDue
end

section
/-!
Proofs of the statement of chapters 16 and 17: the system's commands, the configuration store with its replay, and the event log's commands.
-/
namespace Sys2Proof.Proofs.SystemCompletion

open Sys2Proof Sys2Proof.Machine Sys2Proof.Safety Sys2Proof.Laws Sys2Proof.Proofs.Generations Sys2Proof.Proofs.Completion
  Sys2Proof.Proofs.RestartDue

/-! ### CMD_ABORT (Table 16-4) -/

section
variable {h : Hdr} {chan : Byte} {seq : W32} {e : Executing} {d : Dev}

/-- An abort of a channel that its own channel may name goes by Table 16-4. -/
theorem abort_passes (hn : chan.toNat ≤ 23) (hsec : secureChan chan.toNat = true → secureChan h.chan = true) :
    checks [(decide (23 < chan.toNat), .badParam), (secureChan chan.toNat && !secureChan h.chan, .notPermitted)] (abortCmd h chan.toNat seq)
      (cmdCnt 4 d) = abortCmd h chan.toNat seq (cmdCnt 4 d) := by
  refine checks_pass ?_
  simpa [hn] using hsec

/-- An abort that names a command of another channel that executes. -/
theorem abortCmd_executing {n : Nat} (hwaits : waitsOn d n seq = false) (hex : executingOn d n = some e) (hseq : e.hdr.seq = seq)
    (hother : n ≠ h.chan) :
    abortCmd h n seq d =
      if e.abortable && workOn d n e then
        if d.key.update.any (fun u => u.chan == n) then okay (dropUpdate .aborted d) else okay (finishExec e .aborted [] (dropWork n e d))
      else goesOn { d with cmd := { d.cmd with aborts := d.cmd.aborts ++ [{ chan := h.chan, target := n, seq := seq }] } } := by
  unfold abortCmd
  rw [hwaits, hex]
  refine (if_neg (by decide)).trans (if_neg ?_)
  simp [hseq, hother]

/-- The work of a key update goes on on its channel. -/
theorem workOn_update {n : Nat} (hupd : (d.key.update.any fun u => u.chan == n) = true) : workOn d n e = true := by
  unfold workOn
  simp [hupd]

end

/-! ### SYS_FW_RESTART (R452) -/

/-- The restart of the firmware follows the completion of its command. -/
theorem sysFwRestart_restarts {h : Hdr} {s : State} (hp : passes h 0x0108 [] false s.dev) :
    let d := started h 0x0108 [] s.dev
    exec (.sysFwRestart h) s =
      .next { s with dev := settle (fwRestart 1 0x0108 (finish h 0x0108 [] .ok [] { d with cmd := { d.cmd with restartDue := true } })) } := by
  intro d
  have hdue : (finish h 0x0108 [] .ok [] { d with cmd := { d.cmd with restartDue := true } }).cmd.restartDue = true :=
    restartDue_finish _ h 0x0108 [] .ok []
  have hbody (block : Dev → BlockRead) :
      acceptCmd h 0x0108 [] false block (fun d => okay { d with cmd := { d.cmd with restartDue := true } }) s.dev =
        finish h 0x0108 [] .ok [] { d with cmd := { d.cmd with restartDue := true } } := acceptCmd_passes hp
  show execSysFwRestart h s = _
  simp only [execSysFwRestart, run, onDev, hp.1, hbody, hdue, Bool.not_true, Bool.false_eq_true, if_false, if_true]

/-- Settles O24: each clause is the model's effect where the clause's condition decides its branches. -/
theorem systemAndLogCommandsComplete : Obligations.SystemAndLogCommandsComplete := by
  unfold Obligations.SystemAndLogCommandsComplete
  refine ⟨?restart, ?reset, fun b e => ?replayed, ?replayDone, fun b e => ?commit, fun t => ?resetDelay, ?memory, fun h => ?identify,
    fun h chan seq => ?abortWaiting, fun h chan seq e => ?abortWork, fun h chan seq e => ?abortUpdate, fun h chan seq e => ?abortLater,
    fun h data => ?nop, fun h delay => ?sysReset, fun h addr len kind batch given => ?store, fun h => ?storeClear, fun h => ?storeStatus,
    fun h s hp => sysFwRestart_restarts hp, ?flushRun, fun h hostMin mramMin => ?logConfig, fun h src fromOpt count buffered addr => ?logReply,
    fun h src fromOpt count buffered addr => ?logHost, fun h => ?logStatus, fun h maxSev => ?logClear, fun h code sev p1 p2 p3 => ?logWrite,
    fun h => ?logFlush⟩
  case restart =>
    refine does_of_runLive (fun _ => rfl) (fun _ hw => hw.1) fun d ⟨_, hup, hrestarting, hfew⟩ => (if_neg ?_).trans (if_neg ?_)
    · simp [hup, hrestarting]
    · exact Nat.not_le.mpr hfew
  case reset =>
    refine does_of_runLive (fun _ => rfl) (fun _ hw => hw.1) fun d ⟨_, hup, hrestarting, hmany⟩ => (if_neg ?_).trans (if_pos hmany)
    simp [hup, hrestarting]
  case replayed =>
    dsimp only
    refine does_of_runLive (fun _ => rfl) (fun _ hw => hw.1) fun d ⟨_, hrun, hpend, hret, hsoft, hb, htakes, hall, hsw⟩ =>
      (if_neg ?_).trans ?_
    · simp [hrun, hpend, hret, hsoft]
    · simp only [hb, htakes, Nat.not_lt.mpr hall, hsw, Bool.not_true, Bool.false_eq_true, if_false]
  case replayDone =>
    dsimp only
    refine does_of_runLive (fun _ => rfl) (fun _ hw => hw.1) fun d ⟨_, hrun, hpend, hret, hsoft, hnone⟩ => (if_neg ?_).trans ?_
    · simp [hrun, hpend, hret, hsoft]
    · simp only [hnone]
  case commit =>
    dsimp only
    refine does_of_runLive (fun _ => rfl) (fun _ hw => hw.1) fun d ⟨_, hpend, hsoft, hex⟩ => ?_
    simp only [hpend, hsoft, hex, Bool.not_true, Bool.false_eq_true, if_false]
  case resetDelay =>
    refine does_of_runLive (fun _ => rfl) (fun _ hw => hw.1) fun d ⟨_, ht⟩ => ?_
    simp only [ht]
  case memory => exact does_of_runLive (fun _ => rfl) (fun _ hw => hw) fun _ _ => rfl
  case identify => exact ends_of_body (fun _ => rfl) fun _ _ => rfl
  case abortWaiting =>
    dsimp only
    refine ends_of_body (fun _ => rfl) fun d ⟨hn, hsec, hwaits⟩ => (abort_passes hn hsec).trans ?_
    exact if_pos hwaits
  case abortWork =>
    dsimp only
    refine ends_of_body (fun _ => rfl) fun d ⟨hn, hsec, hwaits, hex, hseq, hother, habort, hwork, hupd⟩ => (abort_passes hn hsec).trans ?_
    rw [abortCmd_executing hwaits hex hseq hother, habort, hwork, hupd]
    rfl
  case abortUpdate =>
    dsimp only
    refine ends_of_body (fun _ => rfl) fun d ⟨hn, hsec, hwaits, hex, hseq, hother, habort, hupd⟩ => (abort_passes hn hsec).trans ?_
    rw [abortCmd_executing hwaits hex hseq hother, habort, workOn_update hupd, hupd]
    rfl
  case abortLater =>
    dsimp only
    refine begins_of_body (fun _ => rfl) fun d ⟨hn, hsec, hwaits, hex, hseq, hother, hno⟩ => (abort_passes hn hsec).trans ?_
    rw [abortCmd_executing hwaits hex hseq hother]
    refine if_neg ?_
    simpa [Decidable.imp_iff_not_or] using hno
  case nop => exact ends_of_body (fun _ => rfl) fun d hlen => checks_pass (one_check (by simpa using hlen))
  case sysReset => exact ends_of_body (fun _ => rfl) fun d hdelay => checks_pass (one_check (by simpa using hdelay))
  case store =>
    dsimp only
    refine begins_of_body (fun _ => rfl) fun d ⟨hsrc, hpend, hgood, hschema, hbase, hroom⟩ => ?_
    have hgiven : (if kind = 1 then replaySection d addr.toNat else some batch) = some given := by
      obtain ⟨rfl, rfl⟩ | ⟨rfl, -, hsec⟩ := hsrc
      · rfl
      · exact hsec
    have hkind : ¬(decide (1 < kind.toNat) || decide (kind = 1) && h.chan != 24 || (some given).isNone) = true := by
      obtain ⟨rfl, -⟩ | ⟨rfl, hchan, -⟩ := hsrc
      · simp
      · simp [hchan]
    dsimp only
    rw [hgiven, if_neg hkind, hpend]
    refine (if_neg (by decide)).trans ((if_neg (by simp)).trans (checks_pass ?_))
    simpa [hgood, hschema, hbase] using hroom
  case storeClear => exact ends_of_body (fun _ => rfl) fun d hpend => checks_pass (one_check (by rw [hpend]; rfl))
  case storeStatus => exact ends_of_body (fun _ => rfl) fun _ _ => rfl
  case flushRun =>
    refine does_of_runLive (fun _ => rfl) (fun _ hw => hw.1) fun d ⟨_, hdue, hsoft⟩ => if_pos ?_
    simpa [hsoft] using hdue
  case logConfig =>
    refine ends_of_body (fun _ => rfl) fun d ⟨hhost, hmram⟩ => checks_pass (one_check ?_)
    simp [hhost, hmram]
  case logReply =>
    refine ends_of_body (fun _ => rfl) fun d ⟨hsrc, hopt, hcount, hbuf⟩ => (checks_pass (one_check ?_)).trans rfl
    simpa [hbuf] using ⟨⟨hsrc, hopt⟩, hcount⟩
  case logHost =>
    dsimp only
    refine ends_of_body (fun _ => rfl) fun d ⟨hsrc, hopt, hcount, hbuf⟩ => (checks_pass (one_check ?_)).trans rfl
    simpa [hbuf] using ⟨⟨hsrc, hopt⟩, hcount⟩
  case logStatus => exact ends_of_body (fun _ => rfl) fun _ _ => rfl
  case logClear =>
    dsimp only
    refine ends_of_body (fun _ => rfl) fun d ⟨hpresence, hsev⟩ => checks_pass ?_
    simp [hpresence, hsev]
  case logWrite =>
    refine ends_of_body (fun _ => rfl) fun d ⟨hcode, hsev⟩ => checks_pass (one_check ?_)
    simp [hcode, hsev]
  case logFlush => exact ends_of_body (fun _ => rfl) fun _ _ => rfl

end Sys2Proof.Proofs.SystemCompletion
end

section
/-!
Proofs of the two statements of chapter 18: what the pair does, and the HRD commands.
-/
namespace Sys2Proof.Proofs.PairCompletion

open Sys2Proof Sys2Proof.Machine Sys2Proof.Safety Sys2Proof.Laws Sys2Proof.Proofs.Generations Sys2Proof.Proofs.Completion

/-- A branch on a decision is one on the proposition. -/
theorem ite_decide_eq {α : Type} {p : Prop} [Decidable p] (x y : α) : (if decide p = true then x else y) = if p then x else y := by
  simp only [decide_eq_true_eq]

/-- Three conditions of a branch, as a Bool and as a proposition. -/
theorem ite_or_or {α : Type} {a : Bool} {p q : Prop} [Decidable p] [Decidable q] (x y : α) :
    (if (a || decide p || decide q) = true then x else y) = if a = true ∨ p ∨ q then x else y := by
  simp only [Bool.or_eq_true, decide_eq_true_eq, or_assoc]

/-- What the loss of the heartbeat records, once the counter has come to it: the run of heartbeats, the reference and the planned switch-over
are gone, and a standby leaves its role. -/
def hbGone (t : Nat) (x : Dev) : Dev :=
  let e := { x with hrd := { x.hrd with
    hb := false, hbRun := 0, offset := 0, outage := some 2, lostSent := lastFits x.hrd.sentFit t, lostPeer := lastFits x.hrd.peerFit t } }
  let e := withdrawSwitch (refGone 4 (logEv 0x1402 (roleCode e.hrd.role) (logSec e e.tod.sec) 0 (setFlag 0x14 1 (hrdCnt 4 e))))
  if e.hrd.role = .standby then noteExit 2 e else e

/-- The model's loss of the heartbeat: what it records, and the witness asked unless the peer has said that it goes or the role has none. -/
theorem hbLost_eq (x : Dev) (t : Nat) :
    (let d := { x with hrd := { x.hrd with
       hb := false, hbRun := 0, offset := 0, outage := some 2, lostSent := lastFits x.hrd.sentFit t, lostPeer := lastFits x.hrd.peerFit t } }
     let d := logEv 0x1402 (roleCode d.hrd.role) (logSec d d.tod.sec) 0 (setFlag 0x14 1 (hrdCnt 4 d))
     let d := withdrawSwitch (refGone 4 d)
     let d := if decide (d.hrd.role = .standby) then noteExit 2 d else d
     if peerBit d 19 || decide (d.hrd.role = .unpaired) || decide (d.hrd.role = .fenced) then d
     else hrdCnt 5 { d with hrd := { d.hrd with witnessDue := some (t + 3), peerSeen := false, peerSeenOn := 0 } }) =
      let e := hbGone t x
      if peerBit e 19 = true ∨ e.hrd.role = .unpaired ∨ e.hrd.role = .fenced then e
      else hrdCnt 5 { e with hrd := { e.hrd with witnessDue := some (t + 3), peerSeen := false, peerSeenOn := 0 } } := by
  simp only [hbGone, ite_or_or, ite_decide_eq]

/-- Settles O25: each clause is the model's effect where the clause's condition decides its branches. -/
theorem pairEventsComplete : Obligations.PairEventsComplete := by
  unfold Obligations.PairEventsComplete
  refine ⟨fun b k => ?heartSide, fun b => ?heartCell, ?lost, fun actLow t => ?witness, fun health => ?goingDown, ?decision, ?tie,
    fun t => ?waitExpiry, fun s => ?freeze, fun s => ?handTaker, fun s => ?handGiver, fun c x => ?xchk, ?laneUp, ?laneDown,
    fun entries => ?stateCell, fun origin packet => ?forwarded, fun chan f => ?timeout, fun chan status order reply f => ?replyOne,
    fun chan status order reply f x => ?replyBoth, fun chan status order reply f => ?replyThere, fun chan status order reply f => ?replyFirst⟩
  case heartSide =>
    dsimp only
    refine does_of_runLive (fun _ => rfl) (fun _ hw => hw.1) fun d ⟨_, hside, hk, hold⟩ => (if_pos hside).trans ?_
    simp only [hk, hold, Bool.false_eq_true, if_false]
  case heartCell =>
    dsimp only
    refine does_of_runLive (fun _ => rfl) (fun _ hw => hw.1) fun d ⟨_, hside⟩ => (if_neg (by simp [hside])).trans ?_
    simp only [Bool.not_eq_true', bne_iff_ne]
  case lost =>
    intro t
    have ht : t = wheelOrd := rfl
    clear_value t
    subst ht
    intro lost
    refine does_of_runLive (fun _ => rfl) (fun _ hw => hw.1) fun d ⟨_, hhb, hnow, hbefore, hlater⟩ => (if_neg ?_).trans ?_
    · simp [hhb, hnow, hbefore, hlater]
    · have hlost : lost d = hbGone (wheelOrd d) (bringTo d (ordNs (wheelOrd d) + 2000)) := rfl
      generalize bringTo d (ordNs (wheelOrd d) + 2000) = x at hlost ⊢
      generalize lost d = y at hlost ⊢
      subst hlost
      exact hbLost_eq x (wheelOrd d)
  case witness =>
    dsimp only
    refine does_of_runLive (fun _ => rfl) (fun _ hw => hw.1) fun d ⟨_, ht⟩ => ?_
    simp only [ht]
  case goingDown =>
    dsimp only
    refine does_of_runLive (fun _ => rfl) (fun _ hw => hw) fun d _ => ?_
    simp only [Bool.not_eq_true', decide_eq_false_iff_not, ite_not]
  case decision =>
    refine does_of_runLive (fun _ => rfl) (fun _ hw => hw.1) fun d ⟨_, hrole, hpeer, hhb, hrun, hdue, hprio⟩ => (if_neg ?_).trans (if_neg ?_)
    · simp [hrole, hpeer, hhb, hrun, hdue]
    · rwa [bringTo_hrd]
  case tie =>
    refine does_of_runLive (fun _ => rfl) (fun _ hw => hw.1) fun d ⟨_, hrole, hpeer, hhb, hrun, hdue, hprio⟩ => (if_neg ?_).trans (if_pos ?_)
    · simp [hrole, hpeer, hhb, hrun, hdue]
    · rwa [bringTo_hrd]
  case waitExpiry =>
    dsimp only
    refine does_of_runLive (fun _ => rfl) (fun _ hw => hw.1) fun d ⟨_, hrole, hheard, hhb, ht⟩ => ?_
    simp only [ht]
    refine (if_neg (by simp [hrole, hheard, hhb])).trans ?_
    simp only [waitUntil_pwr, waitUntil_hrd]
  case freeze =>
    dsimp only
    refine does_of_runLive (fun _ => rfl) (fun _ hw => hw.1) fun d ⟨_, hs, htaker, hrole, hfrozen⟩ => ?_
    simp only [hs]
    refine if_neg ?_
    simp [htaker, hrole, hfrozen]
  case handTaker =>
    dsimp only
    refine does_of_runLive (fun _ => rfl) (fun _ hw => hw.1) fun d ⟨_, hs, htaker, hrole⟩ => ?_
    simp only [hs]
    refine (if_pos htaker).trans (if_neg ?_)
    simp [hrole]
  case handGiver =>
    dsimp only
    refine does_of_runLive (fun _ => rfl) (fun _ hw => hw.1) fun d ⟨_, hs, htaker, hrole, hfrozen⟩ => ?_
    simp only [hs]
    refine (if_neg (by simp [htaker])).trans (if_neg ?_)
    simpa [hrole, Option.isSome_iff_ne_none] using hfrozen
  case xchk =>
    refine does_of_runLive (fun _ => rfl) (fun _ hw => hw.1) fun d ⟨_, hrole, hown, hx, hc, habsent⟩ => (if_neg (by simp [hrole])).trans ?_
    simp only [hown]
    refine if_neg ?_
    simp [hx, hc, habsent]
  case laneUp => exact does_of_runLive (fun _ => rfl) (fun _ hw => hw) fun _ _ => rfl
  case laneDown => exact does_of_runLive (fun _ => rfl) (fun _ hw => hw) fun _ _ => rfl
  case stateCell => exact does_of_runLive (fun _ => rfl) (fun _ hw => hw) fun _ _ => rfl
  case forwarded => exact does_of_runLive (fun _ => rfl) (fun _ hw => hw) fun _ _ => rfl
  case timeout =>
    refine does_of_runLive (fun _ => rfl) (fun _ hw => hw.1) fun d ⟨_, hf⟩ => ?_
    simp only [hf]
  case replyOne =>
    refine does_of_runLive (fun _ => rfl) (fun _ hw => hw.1) fun d ⟨_, hf, htarget⟩ => ?_
    simp only [hf]
    exact if_pos htarget
  case replyBoth =>
    refine does_of_runLive (fun _ => rfl) (fun _ hw => hw.1) fun d ⟨_, hf, htarget, hfirst, hhere⟩ => ?_
    simp only [hf]
    refine (if_neg htarget).trans ((if_neg (by simp [hfirst])).trans ?_)
    simp only [hhere]
  case replyThere =>
    refine does_of_runLive (fun _ => rfl) (fun _ hw => hw.1) fun d ⟨_, hf, htarget, hfirst, hhere⟩ => ?_
    simp only [hf]
    refine (if_neg htarget).trans ((if_neg (by simp [hfirst])).trans ?_)
    simp only [hhere, beq_iff_eq]
  case replyFirst =>
    refine does_of_runLive (fun _ => rfl) (fun _ hw => hw.1) fun d ⟨_, hf, htarget, hfirst⟩ => ?_
    simp only [hf]
    exact (if_neg htarget).trans (if_pos hfirst)

/-- Settles O26: each clause is the model's effect where the clause's condition decides its branches. -/
theorem pairCommandsComplete : Obligations.PairCommandsComplete := by
  unfold Obligations.PairCommandsComplete
  refine ⟨fun h p => ?config, fun h => ?status, fun h sec tick => ?switchover, fun h s => ?cancel, fun h => ?unfence, fun h => ?override,
    fun h => ?unpair, fun h => ?resetKept, fun h => ?resetBoth⟩
  case config =>
    dsimp only
    refine ends_of_body (fun _ => rfl) fun d ⟨hgood, hrole⟩ => (checks_pass ?_).trans ?_
    · simpa [hgood, Decidable.imp_iff_not_or] using hrole
    · simp only [Bool.and_eq_true, Bool.not_eq_true', decide_eq_true_eq, decide_eq_false_iff_not]
      rfl
  case status => exact ends_of_body (fun _ => rfl) fun _ _ => rfl
  case switchover =>
    dsimp only
    refine ends_of_body (fun _ => rfl) fun d ⟨hrole, hpeer, htick, hnear, hfree⟩ => checks_pass ?_
    simp [hrole, hpeer, htick, hnear, hfree]
  case cancel =>
    refine ends_of_body (fun _ => rfl) fun d ⟨hs, htaker, hbefore⟩ => ?_
    simp only [hs]
    refine if_neg ?_
    simpa [htaker] using hbefore
  case unfence =>
    refine ends_of_body (fun _ => rfl) fun d ⟨hrole, hhb⟩ => (checks_pass ?_).trans (if_pos rfl)
    simp [hrole, hhb]
  case override =>
    refine ends_of_body (fun _ => rfl) fun d hrole => (checks_pass ?_).trans (if_neg (by decide))
    simpa [Decidable.imp_iff_not_or] using hrole
  case unpair =>
    refine ends_of_body (fun _ => rfl) fun d hrole => (checks_pass (one_check (by simpa using hrole))).trans ?_
    simp only [decide_eq_true_eq]
    rfl
  case resetKept =>
    refine ends_of_body (fun _ => rfl) fun d htarget => ?_
    simp only [bne_iff_ne.mpr htarget, Bool.and_true]
    rfl
  case resetBoth =>
    refine ends_of_body (fun _ => rfl) fun d htarget => ?_
    simp only [htarget, bne_self_eq_false, Bool.and_false]
    rfl

end Sys2Proof.Proofs.PairCompletion
end

section
/-!
Proofs of the statements of chapters 19 and 20: the host interfaces, and power, reset and start-up.
-/
namespace Sys2Proof.Proofs.HostAndPowerCompletion

open Sys2Proof Sys2Proof.Machine Sys2Proof.Safety Sys2Proof.Laws Sys2Proof.Proofs.Generations Sys2Proof.Proofs.Completion

/-! ### Register accesses (R502, R510) -/

section
variable {path : Path} {a v : Nat} {d : Dev}

/-- A write of a whole word outside the mailboxes goes to its map. -/
theorem writeWord_register (hmapped : isMapped path a = true) (hmbx : mbxAt path a = none) (hlb : isLb path = true → pcieOnly a = false) :
    writeWord path a v d = accessOk path (if isSecure path then writePf1 path a v d else writePf0 path a v d) := by
  unfold writeWord
  rw [hmapped, hmbx]
  refine congrArg (accessOk path) (if_neg ?_)
  simpa using hlb

/-- A write of a whole word in a mailbox. -/
theorem writeWord_mailbox {m : Nat} (hmapped : isMapped path a = true) (hmbx : mbxAt path a = some m) :
    writeWord path a v d = writeMbx path m (a % 0x100) v d := by
  unfold writeWord
  rw [hmapped, hmbx]
  rfl

/-- A write with every byte enable, or from the local bus, writes the whole word. -/
theorem writeAccess_whole {addr w : W32} {enables : BitVec 4} (hopen : pathOpen d path = true) (hen : isLb path = true ∨ enables = 15) :
    writeAccess path addr w enables d = writeWord path (addr.toNat / 4 * 4) w.toNat d := by
  refine (if_neg (by simp [hopen])).trans (if_neg ?_)
  obtain hlb | rfl := hen
  · simp [hlb]
  · simp

/-- A read of a register of one word gives its value and clears its RC fields. -/
theorem readWord_one (hmapped : isMapped path a = true) (hlow : lowRead path a d = none) (hhigh : isHighWord d path a = false) :
    readWord path a d = readAs (wordAt d path a) (clearRc path a d) := by
  unfold readWord
  rw [hmapped, hlow, hhigh]
  rfl

/-- A read of the low word of a register of several words. -/
theorem readWord_low {e : Dev} (hmapped : isMapped path a = true) (hlow : lowRead path a d = some e) : readWord path a d = e := by
  unfold readWord
  rw [hmapped, hlow]
  rfl

/-- A read on a path that is answered. -/
theorem readAccess_open {addr : W32} (hopen : pathOpen d path = true) :
    readAccess path addr d = accessOk path (keepHalf path (readWord path (addr.toNat / 4 * 4) d)) := if_pos hopen

/-- In 16-bit mode a half-word written on an open path is not discarded. -/
theorem halfWrite_open (hwidth : d.pwr.straps.lbWidth = true) (hopen : pathOpen d path = true) :
    ¬(!d.pwr.straps.lbWidth || !pathOpen d path) = true := by
  simp [hwidth, hopen]

end

/-- What PCIe does takes its effect while the link is up. -/
theorem does_of_linked {i : Instr} {f : Dev → Dev} (hx : ∀ s, exec i s = runLive (fun d => if !d.gbl.linkUp then d else f d) s) :
    does i (fun d => isLive d = true ∧ d.gbl.linkUp = true) f :=
  does_of_runLive hx (fun _ hw => hw.1) fun _ ⟨_, hup⟩ => if_neg (by simp [hup])

/-- Settles O27: each clause is the model's effect where the clause's condition decides its branches. -/
theorem hostInterfaceCommandsComplete : Obligations.HostInterfaceCommandsComplete := by
  unfold Obligations.HostInterfaceCommandsComplete
  refine ⟨fun path addr v enables => ?register, fun path addr v enables m => ?mailbox, fun path addr => ?read, fun path addr e => ?low,
    fun secure addr half => ?halfLow, fun secure addr half => ?halfHigh, fun path v => ?eoi, fun pf1 => ?unsupported, fun pf1 => ?malformed,
    fun pf1 => ?poisonedWrite, fun pf1 => ?poisonedCompletion, fun pf1 => ?timeout, fun pf1 => ?longRead, fun pf1 => ?unexpected,
    fun pf1 => ?correctable, fun pf1 => ?ecc, fun pf1 => ?flr, fun pf1 => ?d3hot, ?linkDown, ?perst, fun speed width mps => ?linkUp,
    fun pf1 v => ?unmaskOne, fun pf1 => ?unmaskAll, ?lbRst, ?lbTimeout⟩
  case register =>
    dsimp only
    exact does_of_run (fun _ => rfl) fun d ⟨hopen, hmapped, hen, hmbx, hlb⟩ =>
      (writeAccess_whole hopen hen).trans (writeWord_register hmapped hmbx hlb)
  case mailbox =>
    dsimp only
    exact does_of_run (fun _ => rfl) fun d ⟨hopen, hmapped, hen, hmbx⟩ => (writeAccess_whole hopen hen).trans (writeWord_mailbox hmapped hmbx)
  case read =>
    dsimp only
    refine does_of_run (fun _ => rfl) fun d ⟨hopen, hmapped, hlow, hhigh⟩ => (readAccess_open hopen).trans ?_
    rw [readWord_one hmapped hlow hhigh]
  case low =>
    dsimp only
    refine does_of_run (fun _ => rfl) fun d ⟨hopen, hmapped, hlow⟩ => (readAccess_open hopen).trans ?_
    rw [readWord_low hmapped hlow]
  case halfLow =>
    dsimp only
    exact does_of_run (fun _ => rfl) fun d ⟨hwidth, hopen⟩ => (if_neg (halfWrite_open hwidth hopen)).trans (if_pos rfl)
  case halfHigh =>
    dsimp only
    exact does_of_run (fun _ => rfl) fun d ⟨hwidth, hopen⟩ => (if_neg (halfWrite_open hwidth hopen)).trans (if_neg (by decide))
  case eoi =>
    refine does_of_run (fun s => show execGblIntEoiWrite path v s = _ from rfl) fun d hopen => ?_
    exact if_pos hopen
  case unsupported => exact does_of_linked fun _ => rfl
  case malformed => exact does_of_linked fun _ => rfl
  case poisonedWrite => exact does_of_linked fun _ => rfl
  case poisonedCompletion => exact does_of_linked fun _ => rfl
  case timeout => exact does_of_linked fun _ => rfl
  case longRead => exact does_of_linked fun _ => rfl
  case unexpected => exact does_of_linked fun _ => rfl
  case correctable => exact does_of_linked fun _ => rfl
  case ecc => exact does_of_linked fun _ => rfl
  case flr => exact does_of_runLive (fun _ => rfl) (fun _ hw => hw.1) fun d ⟨_, hup⟩ => if_pos hup
  case d3hot => exact does_of_runLive (fun _ => rfl) (fun _ hw => hw.1) fun d ⟨_, hup, hd3⟩ => if_pos (by simp [hup, hd3])
  case linkDown => exact does_of_runLive (fun _ => rfl) (fun _ hw => hw) fun _ _ => rfl
  case perst => exact does_of_runLive (fun _ => rfl) (fun _ hw => hw) fun _ _ => rfl
  case linkUp => exact does_of_runLive (fun _ => rfl) (fun _ hw => hw) fun _ _ => rfl
  case unmaskOne => exact does_of_runLive (fun _ => rfl) (fun _ hw => hw.1) fun d ⟨_, hv⟩ => if_neg (Nat.not_le.mpr hv)
  case unmaskAll => exact does_of_runLive (fun _ => rfl) (fun _ hw => hw) fun _ _ => rfl
  case lbRst => exact does_of_runLive (fun _ => rfl) (fun _ hw => hw) fun _ _ => rfl
  case lbTimeout => exact does_of_runLive (fun _ => rfl) (fun _ hw => hw.1) fun d ⟨_, hopen⟩ => if_pos hopen

/-- Settles O28: each clause is the model's effect where the clause's condition decides its branches. -/
theorem powerCommandsComplete : Obligations.PowerCommandsComplete := by
  unfold Obligations.PowerCommandsComplete
  refine ⟨?powerOn, ?porst, ?brownOut, fun straps => ?release, ?ready, ?pfwAssert, ?pfwRelease, ?restartDone, fun sec tick => ?dormantEntry,
    fun sec tick => ?dormantExit, fun h => ?dormant, fun h => ?wake, fun h => ?status, ?aonLost, fun vdd => ?changeover⟩
  case powerOn =>
    refine does_of_run (fun s => show execPowerOn s = _ from rfl) fun d hdown => ?_
    exact if_neg (by simp [hdown])
  case porst => exact does_of_runLive (fun _ => rfl) (fun _ hw => hw) fun _ _ => rfl
  case brownOut =>
    refine does_of_run (fun s => show execBrownOut s = _ from rfl) fun d hlive => ?_
    simp only [hlive, if_true]
  case release =>
    dsimp only
    refine does_of_run (fun s => show execResetRelease straps s = _ from rfl) fun d ⟨hheld, hsup⟩ => (if_neg ?_).trans ?_
    · simp [hheld, hsup]
    · rfl
  case ready =>
    dsimp only
    refine does_of_runLive (fun _ => rfl) (fun _ hw => hw.1) fun d ⟨_, hrun, hfw, hfirst⟩ => if_neg ?_
    simp [hrun, hfw, hfirst]
  case pfwAssert =>
    dsimp only
    refine does_of_runLive (fun _ => rfl) (fun _ hw => hw.1) fun d ⟨_, hpfw, hseq⟩ => if_neg ?_
    simp [hpfw, hseq]
  case pfwRelease =>
    refine does_of_runLive (fun _ => rfl) (fun _ hw => hw.1) fun d ⟨_, hpfw, hseq⟩ => if_pos ?_
    simp [hpfw, hseq]
  case restartDone => exact does_of_runLive (fun _ => rfl) (fun _ hw => hw.1) fun d ⟨_, hrestart⟩ => if_pos hrestart
  case dormantEntry =>
    refine does_of_runLive (fun _ => rfl) (fun _ hw => hw.1) fun d ⟨_, hat, hrun, hpfw⟩ => ?_
    simp only [hat]
    refine if_neg ?_
    simp [hrun, hpfw]
  case dormantExit =>
    refine does_of_runLive (fun _ => rfl) (fun _ hw => hw.1) fun d ⟨_, hat, hrun⟩ => ?_
    simp only [hat]
    refine if_neg ?_
    simp [hrun]
  case dormant =>
    refine ends_of_body (fun _ => rfl) fun d ⟨hrole, hrun, hpfw, hpend, hret⟩ => checks_pass ?_
    have hmay : (decide (d.hrd.role = .unpaired) || decide (d.hrd.role = .standby)) = true := by simpa using hrole
    rw [hmay]
    simp [hrun, hpfw, hpend, hret]
  case wake => exact ends_of_body (fun _ => rfl) fun d hspan => checks_pass (one_check (by rw [hspan]; rfl))
  case status => exact ends_of_body (fun _ => rfl) fun _ _ => rfl
  case aonLost => exact does_of_run (fun s => show execAonPowerLost s = _ from rfl) fun _ _ => rfl
  case changeover => exact does_of_run (fun s => show execAonSourceChangeover vdd s = _ from rfl) fun _ _ => rfl

end Sys2Proof.Proofs.HostAndPowerCompletion
end

section
/-!
What is left open of the statement of chapter 15's commands (O21, which this file does not settle). An accepted KEY_UPDATE goes on executing,
and then the model refuses the undefined packets whose turn has come (`refuseWaiting`); the statement's clause leaves that out. A message is
accepted only if its 32 bytes of identity are the hash of the identity key, and the hash is opaque: the statement holds if and only if that
hash does not have 32 bytes, which the model does not say. Every other clause holds.
-/
namespace Sys2Proof.Proofs.KeyCompletion

open Sys2Proof Sys2Proof.Machine Sys2Proof.Safety Sys2Proof.Laws Sys2Proof.Proofs.Generations Sys2Proof.Proofs.Completion

/-- The hash by which an update message names its device (Table 15-4, step 2). -/
def identityHash : Bytes := Config.hash 256 (Config.identity ()).1

/-! ### A hash of another length: no message is accepted -/

theorem length_cut (b : Bytes) (off n : Nat) : (cut b off n).length = n := by
  simp [cut]

/-- No message has an identity that is not of 32 bytes. -/
theorem msgChecks_refuses (hlen : identityHash.length ≠ 32) (d : Dev) (m : Bytes) : ∃ st, msgChecks d m = .inl st := by
  have hother : (cut m 56 32 != Config.hash 256 (Config.identity ()).1) = true := by
    rw [bne_iff_ne]
    intro he
    exact hlen (by rw [identityHash, ← he, length_cut])
  unfold msgChecks
  rw [hother, Bool.or_true]
  dsimp only
  split
  · exact ⟨_, rfl⟩
  · split
    · exact ⟨_, rfl⟩
    · exact ⟨_, if_pos rfl⟩

/-- Every clause is the model's effect, where no update message is accepted. -/
theorem complete_of_refused (hlen : identityHash.length ≠ 32) : Obligations.KeyAndTamperCommandsComplete := by
  unfold Obligations.KeyAndTamperCommandsComplete
  refine ⟨fun u => ?commit, fun bad => ?scrub, ?remask, fun test => ?drbgFault, fun sources => ?tamperHeld, fun sources => ?tamper, ?recognised,
    ?released, fun n => ?lcChange, fun h => ?status, fun h addr len msg s => ?update, fun h slot => ?slotStatus, fun h slot nonce addr => ?attest,
    fun h addr len s => ?identity, fun h count => ?random, fun h loops internal => ?config, fun h => ?clear, fun h => ?tmpStatus⟩
  case commit =>
    refine does_of_runLive (fun _ => rfl) (fun _ hw => hw.1) fun d ⟨_, hu, hstall⟩ => ?_
    simp only [hu]
    exact (if_neg (by simp [hstall])).trans rfl
  case scrub =>
    refine does_of_runLive (fun _ => rfl) (fun _ hw => hw.1) fun d ⟨_, hv, hstall⟩ => if_pos ?_
    simp [hv, hstall]
  case remask =>
    refine does_of_runLive (fun _ => rfl) (fun _ hw => hw.1) fun d ⟨_, hv, hdead, hstall⟩ => if_pos ?_
    simp [hv, hdead, hstall]
  case drbgFault =>
    refine does_of_runLive (fun _ => rfl) (fun _ hw => hw.1) fun d ⟨_, hdead⟩ => if_neg ?_
    simp [hdead]
  case tamperHeld =>
    intro act
    refine does_of_run (fun s => show execTamperDetected sources s = _ from rfl) fun d ⟨hact, hheld⟩ => ?_
    exact (if_neg hact).trans (if_pos hheld)
  case tamper =>
    intro act zeroed logged
    refine does_of_run (fun s => show execTamperDetected sources s = _ from rfl) fun d ⟨hact, hheld⟩ => ?_
    exact (if_neg hact).trans ((if_neg (by simp [hheld])).trans (PairCompletion.ite_decide_eq ..))
  case recognised => exact does_of_run (fun s => show execPresenceRecognised s = _ from rfl) fun _ _ => rfl
  case released => exact does_of_run (fun s => show execPresenceReleased s = _ from rfl) fun _ _ => rfl
  case lcChange =>
    refine does_of_runLive (fun _ => rfl) (fun _ hw => hw.1) fun d ⟨_, hn⟩ => ?_
    simp only [hn, decide_eq_true_eq]
  case status => exact ends_of_body (fun _ => rfl) fun _ _ => rfl
  case update =>
    intro p m d hp ⟨hupd, hchg⟩
    obtain ⟨st, hst⟩ := msgChecks_refuses hlen d m
    rw [hst]
    refine cmd_ends hp ?_
    refine (if_neg ?_).trans ((if_neg (by decide)).trans ?_)
    · exact Bool.not_eq_true _ ▸ (by rw [hupd, hchg]; rfl)
    · dsimp only
      rw [hst]
      rfl
  case slotStatus =>
    refine ends_of_body (fun _ => rfl) fun d hslot => (checks_pass (one_check (by simp [hslot]))).trans ?_
    rfl
  case attest =>
    refine ends_of_body (fun _ => rfl) fun d ⟨hslot, hdead, hid⟩ => checks_pass ?_
    simp [hslot, hdead, hid]
  case identity =>
    intro p d b hp
    by_cases hfits : b.length ≤ len.toNat
    · rw [if_pos hfits]
      refine cmd_ends hp (checks_pass (one_check ?_))
      exact decide_eq_false (Nat.not_lt.mpr hfits)
    · rw [if_neg hfits]
      refine cmd_ends hp (TimeReference.checks_fail (c := (true, .badParam)) ?_)
      rw [decide_eq_true (Nat.not_le.mp hfits)]
      rfl
  case random =>
    refine ends_of_body (fun _ => rfl) fun d ⟨hne, hmax, hdead⟩ => checks_pass ?_
    simpa [hmax, hdead] using hne
  case config =>
    dsimp only
    refine ends_of_body (fun _ => rfl) fun d ⟨hloops, hint, hmay⟩ => checks_pass ?_
    have hgood : (cut loops 0 4).any loopBad = false := by
      rw [List.any_eq_false]
      intro x hx
      simp [hloops x hx]
    rw [hgood, hint]
    simpa [or_iff_not_imp_left] using hmay
  case clear => exact ends_of_body (fun _ => rfl) fun d hpresence => checks_pass (one_check (by rw [hpresence]; rfl))
  case tmpStatus => exact ends_of_body (fun _ => rfl) fun _ _ => rfl

/-! ### A hash of 32 bytes: an accepted message lets a packet be refused -/

/-- The device with an update message accepted, and waiting for its commit. -/
def withUpdate (h : Hdr) (m : Bytes) (k : Option Bytes) (d : Dev) : Dev :=
  { d with key := { d.key with update := some { chan := h.chan, seq := h.seq, msg := m, key := k } } }

section
variable {h : Hdr} {addr : W64} {len : W16} {msg : Bytes} {s : State} {k : Option Bytes}

/-- KEY_UPDATE goes on executing with an accepted message, and undefined packets whose turn has come are refused. -/
theorem keyUpdate_accepts (hp : passes h 0x0902 (pk addr ++ pk len) true s.dev)
    (hidle : (started h 0x0902 (pk addr ++ pk len) s.dev).key.update = none ∧ (started h 0x0902 (pk addr ++ pk len) s.dev).key.changing = none)
    (hk : msgChecks (started h 0x0902 (pk addr ++ pk len) s.dev) (cut msg 0 len.toNat) = .inr k) :
    exec (.keyUpdate h addr len msg true) s =
      .next { s with dev := settle (refuseWaiting (withUpdate h (cut msg 0 len.toNat) k (started h 0x0902 (pk addr ++ pk len) s.dev))) } := by
  refine cmd_begins hp ((if_neg ?_).trans ((if_neg (by decide)).trans ?_))
  · simp [hidle]
  · dsimp only
    rw [hk]
    rfl

/-- The clause of KEY_UPDATE says that accepting a message refuses no packet, and so leaves ORDER as it was. -/
theorem order_of_statement (ho : Obligations.KeyAndTamperCommandsComplete) (hp : passes h 0x0902 (pk addr ++ pk len) true s.dev)
    (hidle : (started h 0x0902 (pk addr ++ pk len) s.dev).key.update = none ∧ (started h 0x0902 (pk addr ++ pk len) s.dev).key.changing = none)
    (hk : msgChecks (started h 0x0902 (pk addr ++ pk len) s.dev) (cut msg 0 len.toNat) = .inr k) :
    (refuseWaiting (withUpdate h (cut msg 0 len.toNat) k (started h 0x0902 (pk addr ++ pk len) s.dev))).cmd.order =
      (withUpdate h (cut msg 0 len.toNat) k (started h 0x0902 (pk addr ++ pk len) s.dev)).cmd.order := by
  unfold Obligations.KeyAndTamperCommandsComplete at ho
  obtain ⟨_, _, _, _, _, _, _, _, _, _, hupdate, _⟩ := ho
  have hsays := hupdate h addr len msg s hp hidle
  rw [keyUpdate_accepts hp hidle hk, hk] at hsays
  injection hsays with hstate
  injection hstate with hdev
  have horder := congrArg (fun d : Dev => d.cmd.order) hdev
  simp only [(settle_lines _).cmd] at horder
  exact horder

end

/-- A ZEROIZE message of form 0 that names the device. -/
def zeroizeMsg : Bytes :=
  [0x57, 0x4B, 0x55, 0x4D, 0, 7] ++ List.replicate 50 0 ++ (List.range 32).map (fun i => identityHash.getD i 0) ++ List.replicate 360 0

/-- KEY_UPDATE of that message through secure mailbox 0, posted from PF1. -/
def updateHdr : Hdr := { chan := 20, path := .pf1, flags := 0, target := 0, seq := 7, plen := 10, status := 0, order := 0, pad := true }

/-- The parameters of that command. -/
def updateParams : Bytes := pk (64 : W64) ++ pk (448 : W16)

/-- A device of life cycle BLANK with presence: KEY_UPDATE waits in secure mailbox 0, and a packet with the undefined opcode 0xFFFF in
mailbox 0. -/
def twoWait : Dev :=
  { pwr := { held := false, supplies := true, run := .ready }, gbl := { linkUp := true, lbRunning := true }, tmp := { presence := true }
    cmd := { fwUp := true, mailboxes := [
      (0, { taken := some { path := .pf0, packet := packetBytes { updateHdr with chan := 16, path := .pf0, plen := 0 } 0xFFFF [] } }),
      (8, { taken := some { path := .pf1, packet := packetBytes updateHdr 0x0902 updateParams } })] } }

/-- That device with KEY_UPDATE started. -/
def accepting : Dev := started updateHdr 0x0902 updateParams twoWait

theorem passes_twoWait : passes updateHdr 0x0902 updateParams true twoWait :=
  ⟨by decide +kernel, by decide +kernel, by decide +kernel, by decide +kernel, by decide +kernel⟩

/-- The message's 32 bytes of identity are a hash of 32 bytes. -/
theorem cut_identity (hlen : identityHash.length = 32) : cut (cut zeroizeMsg 0 448) 56 32 = Config.hash 256 (Config.identity ()).1 := by
  have hcut : cut (cut zeroizeMsg 0 448) 56 32 = (List.range 32).map (fun i => identityHash.getD i 0) := rfl
  rw [hcut]
  refine List.ext_getElem ?_ fun i _ hi => ?_
  · rw [List.length_map, List.length_range]
    exact hlen.symm
  · rw [List.getElem_map, List.getElem_range]
    exact List.getD_eq_getElem _ _ hi

/-- The message passes every check of Table 15-4. -/
theorem msgChecks_zeroize (hlen : identityHash.length = 32) : msgChecks accepting (cut zeroizeMsg 0 448) = .inr none := by
  have hfields : msgFieldsBad accepting (cut zeroizeMsg 0 448) = false := by decide +kernel
  have hform : msgByte (cut zeroizeMsg 0 448) 4 = 0 := by decide +kernel
  have hop : msgByte (cut zeroizeMsg 0 448) 5 = 7 := by decide +kernel
  have heui : (beAt (cut zeroizeMsg 0 448) 48 8 != accepting.gbl.eui.toNat) = false := by decide +kernel
  have hauth : msgAuth accepting (cut zeroizeMsg 0 448) = some [] := by decide +kernel
  have hstale : msgStale accepting (cut zeroizeMsg 0 448) = false := by decide +kernel
  have hparent : msgParentFault accepting (cut zeroizeMsg 0 448) = none := by decide +kernel
  have htarget : msgTargetFault accepting (cut zeroizeMsg 0 448) = none := by decide +kernel
  have hpresence : accepting.tmp.presence = true := by decide +kernel
  simp [msgChecks, hfields, hform, hop, heui, cut_identity hlen, hauth, hstale, hparent, htarget, hpresence, opCarries]

/-- The packet that waits in mailbox 0 is refused once KEY_UPDATE executes, and ORDER advances. -/
theorem order_refused : (refuseWaiting (withUpdate updateHdr (cut zeroizeMsg 0 448) none accepting)).cmd.order ≠
    (withUpdate updateHdr (cut zeroizeMsg 0 448) none accepting).cmd.order := by decide +kernel

/-- The statement of chapter 15's commands stands or falls with the length of an opaque hash. -/
theorem keyAndTamperCommandsComplete_iff : Obligations.KeyAndTamperCommandsComplete ↔ identityHash.length ≠ 32 := by
  refine ⟨fun ho hlen => ?_, complete_of_refused⟩
  exact order_refused (order_of_statement (addr := 64) (len := 448) (msg := zeroizeMsg) (s := { dev := twoWait, pending := [] }) ho
    passes_twoWait (by decide +kernel) (msgChecks_zeroize hlen))

end Sys2Proof.Proofs.KeyCompletion
end
